-- ==== Sys2Proof/Word.lean ====
section
/-! DEFINITION. The word types of the IX4860 (00_scope R4, R7, R12, R14) and the plain names the commands use. -/

namespace Sys2Proof

/-- A word of the register space, of packets and of memories: 20 bits (R7). -/
abbrev Word := BitVec 20

/-- A value of the 60-bit timebase, in 4 ns ticks (R14). -/
abbrev Stamp := BitVec 60

/-- An angle in ac: a 20-bit count of one cycle (R12). -/
abbrev Angle := BitVec 20

/-- A channel number 0 to 47 (R4). -/
abbrev Chan := Fin 48

/-- A group number 0 to 5 (R4). -/
abbrev Grp := Fin 6

/-- A local index 0 to 7 of a channel in its group (R4). -/
abbrev Lidx := Fin 8

/-- Host port A or B (R110). -/
inductive Port where
  | a | b
deriving DecidableEq, Repr

/-- The three angle inputs of group 0 (R6, R201). -/
inductive AngIn where
  | anga | angb | angz
deriving DecidableEq, Repr

/-- How a stream of words ended (R147, R148): `none` for an ordinary packet. -/
inductive StreamEnd where
  | none | whole | badLength | aborted
deriving DecidableEq, Repr

/-- A command packet as the interpreter meets it: the port it came from, its tag, payload lanes and WAKE bit (R142),
the payload words, whether its check word is good (R146), and how its stream ended (R147). -/
structure Msg where
  port : Port
  tag : BitVec 7
  lanes : BitVec 2
  wake : Bool
  words : List Word
  good : Bool
  stream : StreamEnd
deriving DecidableEq, Repr

/-- One defect that a pattern test found: memory index, word address, whether the code can mend it (R478). -/
structure PatternFault where
  mem : Fin 16
  addr : Word
  mendable : Bool
deriving DecidableEq, Repr

/-- The tracker registers that TRACKER_CONFIG_WRITE names (R232, R233, R237). -/
inductive TrkReg where
  | angIn | wheel | ztooth | angOfs | angRofs | trkCfg | spdMin | spdMax
  | tcor (k : Fin 1024)
deriving DecidableEq, Repr

/-- The digital diagnostic conditions of one slice that DIAG_TIMER judges (R318, R339 to R342). -/
inductive DigDiag where
  | wireBreak | inputShort | openOff | shortVf | openOn | swFail
deriving DecidableEq, Repr

/-- The analog diagnostic conditions of one slice that ANALOG_DIAG_TIMER judges (R346, R348, R358). -/
inductive AnaDiag where
  | opened | shorted
deriving DecidableEq, Repr

end Sys2Proof
end

