-- ==== Sys2Proof/Syntax.lean ====
section
/-! DEFINITION. The commands of the block: one constructor for each row of spec/opcode_table.json, in the table's order.
Host command rows carry the packet; a measured quantity, or what the plant or the external memory answers, is an operand. -/

namespace Sys2Proof

/-- The commands (spec/opcode_table.json; none of its rows has bits). -/
inductive Instr where
  /-- POWER_ON (R76). -/
  | powerOn
  /-- VSUP_BROWNOUT (R79). -/
  | vsupBrownout (collapse : Bool)
  /-- VSUP_LOSS (R80). -/
  | vsupLoss
  /-- VIO_LOSS (R81). -/
  | vioLoss
  /-- RESET_N_PULSE (R82). -/
  | resetNPulse (ns : Nat)
  /-- RESET_TAKE_HOLD (R83). -/
  | resetTakeHold
  /-- BOOT_BEGIN (R87). -/
  | bootBegin (strapA strapB : Bool)
  /-- PLL_LOCK (R194). -/
  | pllLock
  /-- PLL_LOCK_TIMEOUT (R88). -/
  | pllLockTimeout
  /-- PATTERN_TEST_END (R89). -/
  | patternTestEnd (faults : List PatternFault)
  /-- FIRMWARE_VERIFY (R488). -/
  | firmwareVerify (selfTest : Bool)
  /-- GROUP_BRING_UP (R92). -/
  | groupBringUp (g : Grp)
  /-- LINK_UP (R381). -/
  | linkUp (g : Grp) (vintage : BitVec 4)
  /-- LINK_LOCK_TIMEOUT (R381). -/
  | linkLockTimeout (g : Grp)
  /-- BOOT_END (R87). -/
  | bootEnd (lockstepOk collectorOk : Bool)
  /-- SAFE_N_ASSERT (R40). -/
  | safeNAssert
  /-- SAFE_N_RELEASE (R72). -/
  | safeNRelease
  /-- STBY_N_FALL (R99). -/
  | stbyNFall
  /-- STANDBY_ENTRY (R100). -/
  | standbyEntry
  /-- STANDBY_WAKE (R101). -/
  | standbyWake (csA csB stby : Bool)
  /-- STANDBY_TIMER_WAKE (R108). -/
  | standbyTimerWake
  /-- SELECT_BEGIN (R111). -/
  | selectBegin (p : Port)
  /-- SELECT_END (R125). -/
  | selectEnd (p : Port) (midBeat : Bool)
  /-- HEADER_BEAT (R151). -/
  | headerBeat (p : Port) (h0 h1 : Word)
  /-- PACKET_COMPLETE (R126). -/
  | packetComplete (p : Port) (payload : List Word) (check : Word)
  /-- STREAM_BEAT (R120). -/
  | streamBeat (p : Port) (w0 w1 : Word)
  /-- DAISY_SELECT_BEGIN (R128). -/
  | daisySelectBegin (p : Port)
  /-- DAISY_FRAME (R134). -/
  | daisyFrame (p : Port) (edges : Nat) (bits : BitVec 32)
  /-- DAISY_TIMEOUT (R136). -/
  | daisyTimeout (p : Port)
  /-- REPLY_FETCH (R160). -/
  | replyFetch (p : Port) (lanes : BitVec 2) (whole : Bool)
  /-- HELLO (R162). -/
  | hello (m : Msg)
  /-- STATUS (R167). -/
  | status (m : Msg)
  /-- REG_READ (R165). -/
  | regRead (m : Msg)
  /-- REG_WRITE (R166). -/
  | regWrite (m : Msg)
  /-- TAP_TAKE (R188). -/
  | tapTake (m : Msg)
  /-- TAP_RELEASE (R188). -/
  | tapRelease (m : Msg)
  /-- TAP_IDLE_TIMEOUT (R190). -/
  | tapIdleTimeout (k : Fin 32)
  /-- CHAN_CONFIG (R310). -/
  | chanConfig (m : Msg)
  /-- CHAN_SET (R312). -/
  | chanSet (m : Msg)
  /-- CHAN_GET (R314). -/
  | chanGet (m : Msg)
  /-- SAFE_NOW (R398). -/
  | safeNow (m : Msg)
  /-- RELINK (R398). -/
  | relink (m : Msg)
  /-- GROUP_CMD_CLR_CNT (R398). -/
  | groupCmdClrCnt (m : Msg)
  /-- SAFE_NOW_ACK (R398). -/
  | safeNowAck (g : Grp)
  /-- TRELLIS_LOAD (R249). -/
  | trellisLoad (m : Msg)
  /-- TRELLIS_ARM (R253). -/
  | trellisArm (m : Msg)
  /-- TRELLIS_STOP (R255). -/
  | trellisStop (m : Msg)
  /-- TRELLIS_HALT (R255). -/
  | trellisHalt (m : Msg)
  /-- TRELLIS_READ (R251). -/
  | trellisRead (m : Msg)
  /-- PAN_READ (R297). -/
  | panRead (m : Msg)
  /-- WD_SERVE (R461). -/
  | wdServe (m : Msg)
  /-- WD_CONFIG_SET (R456). -/
  | wdConfigSet (m : Msg)
  /-- WD_CONFIG_START (R456). -/
  | wdConfigStart (m : Msg)
  /-- WD_CONFIG_STOP (R456). -/
  | wdConfigStop (m : Msg)
  /-- IRQ_ACK (R424). -/
  | irqAck (m : Msg)
  /-- CASK_STATUS (R521). -/
  | caskStatus (m : Msg)
  /-- CASK_START (R521). -/
  | caskStart (m : Msg)
  /-- CASK_STOP (R521). -/
  | caskStop (m : Msg)
  /-- CASK_FREEZE (R521). -/
  | caskFreeze (m : Msg)
  /-- CASK_CLEAR (R521). -/
  | caskClear (m : Msg)
  /-- CASK_NOTE (R521). -/
  | caskNote (m : Msg)
  /-- CASK_READ (R529). -/
  | caskRead (m : Msg)
  /-- RACK (R526). -/
  | rack (m : Msg)
  /-- RACK_COMPLETE (R526). -/
  | rackComplete
  /-- REPLAY_START (R530). -/
  | replayStart (m : Msg)
  /-- REPLAY_ABORT (R531). -/
  | replayAbort (m : Msg)
  /-- REPLAY_BEGIN (R532). -/
  | replayBegin
  /-- REPLAY_RECORD_ACT (R533). -/
  | replayRecordAct
  /-- REPLAY_END (R531). -/
  | replayEnd
  /-- CAL_SET (R365). -/
  | calSet (m : Msg)
  /-- CAL_ARM (R366). -/
  | calArm (m : Msg)
  /-- CAL_ARM_CANCEL (R366). -/
  | calArmCancel (m : Msg)
  /-- CAL_ARM_TIMEOUT (R367). -/
  | calArmTimeout
  /-- CAL_BUTTON_PRESS (R367). -/
  | calButtonPress (span bothHigh : Bool)
  /-- CAL_CAPTURE_CONVERSION (R368). -/
  | calCaptureConversion (x : Int) (beyond : Bool)
  /-- CAL_CAPTURE_END (R368). -/
  | calCaptureEnd
  /-- CAL_STORE_OP_END (R369). -/
  | calStoreOpEnd
  /-- ATTEST (R499). -/
  | attest (m : Msg)
  /-- ATTEST_COMPLETE (R500). -/
  | attestComplete
  /-- SEAL_LOAD (R496). -/
  | sealLoad (m : Msg)
  /-- SEAL_LOAD_COMPLETE (R497). -/
  | sealLoadComplete
  /-- OWNER_ENROLL (R491). -/
  | ownerEnroll (m : Msg)
  /-- OWNER_ENROLL_COMPLETE (R491). -/
  | ownerEnrollComplete
  /-- OWNER_RELEASE (R493). -/
  | ownerRelease (m : Msg)
  /-- OWNER_RELEASE_COMPLETE (R493). -/
  | ownerReleaseComplete
  /-- NV_UPDATE_BEGIN (R503). -/
  | nvUpdateBegin (m : Msg)
  /-- NV_UPDATE_ABORT (R503). -/
  | nvUpdateAbort (m : Msg)
  /-- NV_UPDATE_ERASE_DONE (R503). -/
  | nvUpdateEraseDone
  /-- NV_UPDATE_DATA (R504). -/
  | nvUpdateData (m : Msg)
  /-- NV_UPDATE_COMMIT (R505). -/
  | nvUpdateCommit (m : Msg)
  /-- UPDATE_REBOOT (R505). -/
  | updateReboot
  /-- STATE_REQ (R578). -/
  | stateReq (m : Msg)
  /-- STATE_REQ_COMPLETE (R578). -/
  | stateReqComplete
  /-- INJECT (R557). -/
  | inject (m : Msg)
  /-- INJECT_TIMED_END (R560). -/
  | injectTimedEnd
  /-- FAULT_READ (R451). -/
  | faultRead (m : Msg)
  /-- FAULT_ACK (R452). -/
  | faultAck (m : Msg)
  /-- PORT_SLEEP (R427). -/
  | portSleep (m : Msg)
  /-- RESET_CAUSE_CLEAR (R106). -/
  | resetCauseClear (p : Port)
  /-- WAKE_CAUSE_CLEAR (R107). -/
  | wakeCauseClear (p : Port)
  /-- PORT_ERR_CLEAR (R140). -/
  | portErrClear (p x : Port)
  /-- PORT_DAISY_CLEAR (R140). -/
  | portDaisyClear (p x : Port)
  /-- TB_LOCK_CLEAR (R200). -/
  | tbLockClear (p : Port)
  /-- TRACKER_CONFIG_WRITE (R221). -/
  | trackerConfigWrite (p : Port) (r : TrkReg) (v : Word)
  /-- TRK_RESEEK (R234). -/
  | trkReseek (p : Port)
  /-- TRK_PHASE0 (R234). -/
  | trkPhase0 (p : Port)
  /-- TRK_PHASE1 (R234). -/
  | trkPhase1 (p : Port)
  /-- TRK_CLR_LEARN (R234). -/
  | trkClrLearn (p : Port)
  /-- TRK_CLR_CNT (R234). -/
  | trkClrCnt (p : Port)
  /-- SEQ_CLR_CNT (R271). -/
  | seqClrCnt (p : Port)
  /-- SMP_FIRE (R279). -/
  | smpFire (p : Port)
  /-- SMP_CLR_CNT (R301). -/
  | smpClrCnt (p : Port)
  /-- PAN_CMD_OPEN (R304). -/
  | panCmdOpen (p : Port) (g : BitVec 3) (pan : BitVec 4)
  /-- PAN_CMD_CLOSE (R304). -/
  | panCmdClose (p : Port) (g : BitVec 3) (pan : BitVec 4)
  /-- PAN_CMD_RELEASE (R304). -/
  | panCmdRelease (p : Port) (g : BitVec 3) (pan : BitVec 4)
  /-- MODE_CHANGE (R308). -/
  | modeChange (p : Port) (n : Chan) (v : Word)
  /-- DCTL_CLR_LATCH (R329). -/
  | dctlClrLatch (p : Port) (n : Chan)
  /-- DCTL_CLR_CNT (R320). -/
  | dctlClrCnt (p : Port) (n : Chan)
  /-- DCTL_CLR_EVT (R344). -/
  | dctlClrEvt (p : Port) (n : Chan) (mask : BitVec 11)
  /-- ACTL_CLR_EVT (R371). -/
  | actlClrEvt (p : Port) (n : Chan) (mask : BitVec 5)
  /-- GRP_CLR_CNT (R400). -/
  | grpClrCnt (p : Port) (g : Grp)
  /-- GRP_CLR_EVT (R400). -/
  | grpClrEvt (p : Port) (g : Grp) (mask : BitVec 8)
  /-- GOV_CLR_CNT (R413). -/
  | govClrCnt (p : Port)
  /-- IPEND_WRITE (R415). -/
  | ipendWrite (p : Port) (k : Fin 5) (v : Word)
  /-- IEN_WRITE (R416). -/
  | ienWrite (p : Port) (k : Fin 5) (v : Word)
  /-- INT_CFG_WRITE (R425). -/
  | intCfgWrite (p : Port) (s : Fin 96) (v : Word)
  /-- PORT_PRIO_WRITE (R419). -/
  | portPrioWrite (p x : Port) (v : Word)
  /-- MOD_CFG_WRITE (R423). -/
  | modCfgWrite (p : Port) (m : Fin 16) (v : Word)
  /-- IRQ_BELL_RING (R434). -/
  | irqBellRing (p : Port)
  /-- MI_TEST_RUN (R479). -/
  | miTestRun (p : Port) (sel : BitVec 16)
  /-- MI_TEST_END (R479). -/
  | miTestEnd (faults : List PatternFault)
  /-- MI_CLR_CNT (R481). -/
  | miClrCnt (p : Port)
  /-- MEMINJ_ARM (R480). -/
  | meminjArm (p : Port) (mem : BitVec 4) (half : Bool)
  /-- SEC_CLR_CNT (R508). -/
  | secClrCnt (p : Port)
  /-- CASK_CLR_LOSS (R536). -/
  | caskClrLoss (p : Port)
  /-- CASK_AUTO_RESUME (R528). -/
  | caskAutoResume (p : Port)
  /-- MMP_CLR_CNT (R554). -/
  | mmpClrCnt (p : Port)
  /-- MMP_CLR_ERR (R554). -/
  | mmpClrErr (p : Port)
  /-- INJ_CANCEL (R561). -/
  | injCancel (p : Port)
  /-- MMP_HOST_READ (R552). -/
  | mmpHostRead (p : Port) (i : Fin 512)
  /-- MMP_HOST_WRITE (R553). -/
  | mmpHostWrite (p : Port) (i : Fin 512) (v : Word)
  /-- SNAPSHOT_READ (R179). -/
  | snapshotRead (p : Port) (addr : BitVec 16)
  /-- STAGED_WORD_WRITE (R182). -/
  | stagedWordWrite (p : Port) (addr : BitVec 16) (v : Word)
  /-- ANGLE_EDGE (R202). -/
  | angleEdge (i : AngIn) (level : Bool)
  /-- EDGE_TAKEUP (R213). -/
  | edgeTakeup
  /-- EDGE_MISSING (R225). -/
  | edgeMissing
  /-- TRACKER_STOP_TIMEOUT (R226). -/
  | trackerStopTimeout
  /-- CYCLE_BOUNDARY (R219). -/
  | cycleBoundary
  /-- BANK_DECISION (R256). -/
  | bankDecision
  /-- TIME_BANK_PERIOD (R247). -/
  | timeBankPeriod
  /-- LOOKAHEAD_ENTRY (R258). -/
  | lookaheadEntry
  /-- COMMIT_HORIZON (R259). -/
  | commitHorizon
  /-- SKEW_CHECK (R260). -/
  | skewCheck
  /-- MARK_EXECUTE (R243). -/
  | markExecute
  /-- DOWNSTREAM_FRAME_SEND (R375). -/
  | downstreamFrameSend (g : Grp)
  /-- DOWNSTREAM_FRAME_RECEIVE (R387). -/
  | downstreamFrameReceive (g : Grp) (good : Bool) (phase : Int)
  /-- UPSTREAM_FRAME_SEND (R375). -/
  | upstreamFrameSend (g : Grp)
  /-- UPSTREAM_FRAME_RECEIVE (R378). -/
  | upstreamFrameReceive (g : Grp) (good : Bool)
  /-- LINK_LOST (R383). -/
  | linkLost (g : Grp)
  /-- FIELD_LINK_LOST (R384). -/
  | fieldLinkLost (g : Grp)
  /-- LINK_WATCHDOG_EXPIRY (R389). -/
  | linkWatchdogExpiry (g : Grp)
  /-- SAFE_HOLD_END (R390). -/
  | safeHoldEnd (n : Chan)
  /-- FIELD_PARK (R92). -/
  | fieldPark (g : Grp)
  /-- FIELD_POWER_UP (R395). -/
  | fieldPowerUp (g : Grp) (hot : BitVec 8)
  /-- VFG_LOW (R396). -/
  | vfgLow (g : Grp)
  /-- VFG_LOW_END (R396). -/
  | vfgLowEnd (g : Grp)
  /-- VFG_MISSING (R397). -/
  | vfgMissing (g : Grp)
  /-- SUPPLY_GOOD_WAIT_END (R382). -/
  | supplyGoodWaitEnd (g : Grp)
  /-- ACTION_EXECUTE (R387). -/
  | actionExecute (g : Grp)
  /-- SAMPLE_TIMER_INSTANT (R279). -/
  | sampleTimerInstant
  /-- CONVERSION (R272). -/
  | conversion (n : Chan) (x : Int) (pinOut : Bool)
  /-- PAN_OPEN (R293). -/
  | panOpen (g : Grp) (pan : Fin 16)
  /-- PAN_CLOSE (R295). -/
  | panClose (g : Grp) (pan : Fin 16)
  /-- PAN_CLOSED (R296). -/
  | panClosed (g : Grp) (pan : Fin 16)
  /-- DI_EDGE (R317). -/
  | diEdge (n : Chan) (level : Bool)
  /-- RAW_DI_TRANSITION (R509). -/
  | rawDiTransition (n : Chan) (level : Bool)
  /-- FREQ_TIMEOUT (R321). -/
  | freqTimeout (n : Chan)
  /-- DIAG_TIMER (R318). -/
  | diagTimer (n : Chan) (c : DigDiag) (present : Bool)
  /-- DIAG_THRESHOLD_SWAP (R318). -/
  | diagThresholdSwap (n : Chan)
  /-- LIMIT_TIMER_TRIP (R325). -/
  | limitTimerTrip (n : Chan)
  /-- GUARD_STEP (R326). -/
  | guardStep (g : Grp) (mA : Vector Nat 8)
  /-- THERMAL_LATCH_SET (R328). -/
  | thermalLatchSet (n : Chan)
  /-- THERMAL_LATCH_CLEAR (R328). -/
  | thermalLatchClear (n : Chan)
  /-- RETRY_PAUSE_END (R327). -/
  | retryPauseEnd (n : Chan)
  /-- RETRY_COUNT_RESET (R327). -/
  | retryCountReset (n : Chan)
  /-- INRUSH_WINDOW_END (R324). -/
  | inrushWindowEnd (n : Chan)
  /-- PWM_EDGE (R333). -/
  | pwmEdge (n : Chan)
  /-- PWM_HIT_END (R334). -/
  | pwmHitEnd (n : Chan)
  /-- MONITOR_STEP (R347). -/
  | monitorStep (n : Chan) (imon : BitVec 12) (vpin : BitVec 8)
  /-- ANALOG_DIAG_TIMER (R348). -/
  | analogDiagTimer (n : Chan) (c : AnaDiag) (present : Bool)
  /-- COMPLIANCE_TIMER (R357). -/
  | complianceTimer (n : Chan) (saturated : Bool)
  /-- HEADROOM_STEP (R360). -/
  | headroomStep (g : Grp) (vfg : BitVec 8) (drive : BitVec 12)
  /-- HR_ERR_TIMER (R361). -/
  | hrErrTimer (g : Grp) (away : Bool)
  /-- GOV_TEMP_STEP (R401). -/
  | govTempStep (raw : Int)
  /-- GOV_RELEASE_STEP (R405). -/
  | govReleaseStep
  /-- GOV_DEFER_TIMEOUT (R406). -/
  | govDeferTimeout (n : Chan)
  /-- GOV_OVER_TIMER (R411). -/
  | govOverTimer
  /-- FIELD_TEMP_EVENT (R412). -/
  | fieldTempEvent (g : Grp) (hot : Bool)
  /-- MODERATOR_TIMER_FIRE (R421). -/
  | moderatorTimerFire (m : Fin 16)
  /-- IRQ_TIMER_TICK (R434). -/
  | irqTimerTick
  /-- FAULT_WINDOW_END (R438). -/
  | faultWindowEnd (d : Fin 12) (c : BitVec 5)
  /-- HEARTBEAT_MISSING (R44). -/
  | heartbeatMissing
  /-- WD_WARNING (R458). -/
  | wdWarning
  /-- WD_EXPIRY (R463). -/
  | wdExpiry
  /-- WD_CLOCK_MONITOR_TRIP (R465). -/
  | wdClockMonitorTrip (running : Bool)
  /-- PLL_FAIL (R446). -/
  | pllFail
  /-- SCRUB_READ (R476). -/
  | scrubRead
  /-- LINE_REFETCH_DONE (R475). -/
  | lineRefetchDone (bank : Bool) (words : List Word) (ok : Bool)
  /-- SEGMENT_TIMER (R523). -/
  | segmentTimer
  /-- CFGHASH_RECORD (R509). -/
  | cfghashRecord
  /-- SEGMENT_HASH_DONE (R519). -/
  | segmentHashDone
  /-- ANCHOR_SIGNED (R520). -/
  | anchorSigned
  /-- AUTO_RACK_PAGE_DONE (R528). -/
  | autoRackPageDone
  /-- MMP_TRANSACTION_START (R547). -/
  | mmpTransactionStart
  /-- MMP_TRANSACTION_END (R538). -/
  | mmpTransactionEnd (data : List (BitVec 8))
  /-- MMP_STATUS_POLL (R546). -/
  | mmpStatusPoll (status : BitVec 8)
  /-- MMP_POLL_TIMEOUT (R546). -/
  | mmpPollTimeout
  /-- MMP_STROBE_TIMEOUT (R538). -/
  | mmpStrobeTimeout
  /-- NV_UPDATE_COMMIT_DONE (R505). -/
  | nvUpdateCommitDone
  /-- LOCKSTEP_MISMATCH (R53). -/
  | lockstepMismatch
  /-- STBY_N_RISE (R99). -/
  | stbyNRise
deriving DecidableEq, Repr

end Sys2Proof
end

