-- ==== Sys2Proof/Machine/Bits.lean ====
section
/-! DEFINITION. Bit-field, counter, list and checksum helpers that every family uses. -/

namespace Sys2Proof.Machine

/-- `len` bits of `w` from bit `lo`, as a number. -/
def fld {n : Nat} (w : BitVec n) (lo len : Nat) : Nat := (w.toNat >>> lo) % 2 ^ len

/-- Bit `i` of `w`. -/
def bit {n : Nat} (w : BitVec n) (i : Nat) : Bool := w.getLsbD i

/-- A word put together from fields: each value stands at its bit position. -/
def pack (l : List (Nat × Nat)) : Word := BitVec.ofNat 20 (l.foldl (fun a p => a ||| (p.2 <<< p.1)) 0)

/-- 1 or 0. -/
def b2n (b : Bool) : Nat := if b then 1 else 0

/-- Set or clear bit `i` of `w`. -/
def setBit {n : Nat} (w : BitVec n) (i : Nat) (b : Bool) : BitVec n :=
  if b then w ||| BitVec.twoPow n i else w &&& ~~~(BitVec.twoPow n i)

/-- A saturating counter plus `k` (R437 to R453 and the error counters of every chapter). -/
def satAdd {n : Nat} (c : BitVec n) (k : Nat) : BitVec n := BitVec.ofNat n (min (c.toNat + k) (2 ^ n - 1))

/-- A saturating counter plus 1. -/
def satInc {n : Nat} (c : BitVec n) : BitVec n := satAdd c 1

/-- Change one entry of a vector. -/
def vmod {α : Type} {n : Nat} (v : Vector α n) (i : Fin n) (f : α → α) : Vector α n := v.set i (f v[i])

/-- Port A is 0, port B is 1. -/
def pidx : Port → Fin 2
  | .a => 0
  | .b => 1

/-- The other port. -/
def pother : Port → Port
  | .a => .b
  | .b => .a

/-- The three words of a timebase value, lowest first. -/
def stampWords (t : Nat) : List Word := [BitVec.ofNat 20 t, BitVec.ofNat 20 (t >>> 20), BitVec.ofNat 20 (t >>> 40)]

/-- Value that a sparse list holds at an address. -/
def lookupD {α : Type} (d : α) (a : Nat) : List (Nat × α) → α
  | [] => d
  | (b, x) :: l => if a = b then x else lookupD d a l

/-- Put a value into a list with rising keys; `keep` is false for the value an unlisted key stands for. -/
def insertKey {α : Type} (a : Nat) (x : α) (keep : Bool) : List (Nat × α) → List (Nat × α)
  | [] => if keep then [(a, x)] else []
  | (b, y) :: l =>
    if a < b then (if keep then (a, x) :: (b, y) :: l else (b, y) :: l)
    else if a = b then (if keep then (a, x) :: l else l)
    else (b, y) :: insertKey a x keep l

/-- One step of a CRC of width `n` over one bit. -/
def crcStep {n : Nat} (poly : BitVec n) (c : BitVec n) (b : Bool) : BitVec n :=
  let top := c.getLsbD (n - 1)
  if top != b then (c <<< 1) ^^^ poly else c <<< 1

/-- The bits of a word, most significant first. -/
def msbBits {n : Nat} (w : BitVec n) : List Bool := (List.range n).map fun i => w.getLsbD (n - 1 - i)

/-- The bits of a word, least significant first. -/
def lsbBits {n : Nat} (w : BitVec n) : List Bool := (List.range n).map fun i => w.getLsbD i

/-- A CRC over bits in the order given. -/
def crcBits {n : Nat} (poly init : BitVec n) (bits : List Bool) : BitVec n := bits.foldl (crcStep poly) init

/-- First index below `n` that satisfies `p`. -/
def firstIdx (n : Nat) (p : Nat → Bool) : Option Nat := (List.range n).find? p

/-- Largest value of a list, 0 when it is empty. -/
def maxNat (l : List Nat) : Nat := l.foldl max 0

/-- All groups, channels, ports, moderators and tests in index order. -/
def groups : List Grp := [0, 1, 2, 3, 4, 5]
def lidxs : List Lidx := [0, 1, 2, 3, 4, 5, 6, 7]
def chans : List Chan := List.finRange 48
def ports : List Port := [.a, .b]

/-- Channel n is local index n mod 8 of group n div 8 (R4). -/
def chanGrp (n : Chan) : Grp := ⟨n.val / 8, by omega⟩
def chanLidx (n : Chan) : Lidx := ⟨n.val % 8, by omega⟩
def chanOf (g : Grp) (l : Lidx) : Chan := ⟨8 * g.val + l.val, by omega⟩

/-- Integer division that rounds to nearest, halves away from zero. -/
def roundDiv (a : Int) (b : Nat) : Int :=
  if 0 ≤ a then (2 * a + b) / (2 * b) else -((2 * (-a) + b) / (2 * b))

/-- The signed value of an n-bit word, and its two's complement word. -/
def sval {n : Nat} (w : BitVec n) : Int := w.toInt
def sword (n : Nat) (x : Int) : BitVec n := BitVec.ofInt n x

end Sys2Proof.Machine
end

