-- ==== Sys2Proof/Machine/Reg.lean ====
section
/-! DEFINITION. The register map (06_registers_taps R175 and the register tables of every chapter): one name for each
register the spec defines, its address, and the register at an address. -/

namespace Sys2Proof.Machine

/-- Registers of a channel block, by offset (R305, R345, R373, R399). -/
inductive ChReg where
  | cfg | safe | safeT | safeV | dicfg | diag | cntcfg | docfg | retry | pwmcfg | pwmper | pwmduty | pwmph
  | dstat | evt | evtEn | dctl | cnt (k : Fin 2) | fper (k : Fin 2) | fedg | lstate | lcnt (k : Fin 2)
  | lstamp (k : Fin 3) | acfg | astat | aevt | aevtEn | actl | aocode | amon | calcfg | tzero (s : Fin 6)
  | tgain (s : Fin 6) | calstat
deriving DecidableEq, Repr

/-- Registers of a group block, by offset (R374, R400). -/
inductive GrpReg where
  | lstat | lcfg | sup | lerr0 | lerr1 | evt | evtEn | ctl | hrcfg | hrstat | hrdrv
deriving DecidableEq, Repr

/-- The registers of the spec. -/
inductive Reg where
  -- blocks 0 to 5
  | partId | fwVer | vintages | stepping
  | devState | resetCause | wakeCause | stbyCfg | stbyTimer | bootStat | grpUp
  | portStat (p : Port) | portPrio (p : Port) | portErr (p : Port) (k : Fin 3) | portDcfg (p : Port)
  | portDmap (p : Port) | portDstat (p : Port) | portDstat2 (p : Port) | portClr (p : Port)
  | intCfg (s : Fin 96) | ipend (k : Fin 5) | ien (k : Fin 5) | iactA (k : Fin 5) | iactB (k : Fin 5) | ivec (p : Port)
  | modCfg (m : Fin 16) | modStat (m : Fin 16) | irqTimer | irqBell | bellAB | bellBA
  | fltStat | fltSeq | fltCfg (d : Fin 12) | frec (k : Fin 7) | fltDom (d : Fin 12) | fltCnt (d : Fin 12) (c : Fin 32)
  | wdCfg | wdClose | wdTimeout | wdWarn | wdStat | wdCount | wdToken | wdErr (k : Fin 2)
  | tapStat (k : Fin 32) | tapCfg (k : Fin 32) | tapSum (k : Fin 4)
  -- block 6
  | tb (k : Fin 3) | tbLock | tbErr (g : Grp)
  | angIn | wheel | ztooth | angOfs | angRofs | trkCfg | spdMin | spdMax | trkCmd
  | ang (k : Fin 10) | trkCnt (k : Fin 3) | tcor (k : Fin 1024)
  -- blocks 7 to 9
  | seqCfg | seqStat | bankCfg (b : Fin 2) | bankPeriod (b : Fin 2) | bankCheck (b : Fin 2) | bankChkExp (b : Fin 2)
  | bankStat (b : Fin 2) | seqCnt (k : Fin 3) | seqSkmax | seqClr | toff (k : Fin 3) | mark (k : Fin 8)
  | entry (b : Fin 2) (i : Fin 3072)
  -- blocks 10 and 11
  | ch (n : Chan) (r : ChReg) | grp (g : Grp) (r : GrpReg)
  -- block 12 and the pan window
  | smpCfg (n : Chan) | smpTimer | smpCmd | smpMask (k : Fin 3) | smpT (k : Fin 3) | smpCnt (g : Grp) | smpClr
  | smpLast (n : Chan) (k : Fin 5) | panCfg (g : Grp) (p : Fin 16) | panRegion (g : Grp) (p : Fin 16)
  | panDecim (g : Grp) (p : Fin 16) | panStat (g : Grp) (p : Fin 16) | panCmd | panWin | panSkip (g : Grp)
  | panWindow (i : Fin 16384)
  -- block 13
  | caskCfg | caskPost | caskGrp (g : Grp) | caskDisel (k : Fin 3) | caskRbase | caskRcount | caskStat | caskSeg (k : Fin 2)
  | caskSess | caskRnext | caskLoss (k : Fin 2) | caskRpstat | caskRpofs (k : Fin 3) | caskCtl
  -- block 14
  | mmpCfg | mmpStat | mmpErr (k : Fin 3) | mmpCnt | mmpClr | mmpSel (s : Fin 8) (k : Fin 4)
  | mmpWin (w : Fin 4) (k : Fin 3) | mmpHacc | mmpHaddr | mmpHdata (i : Fin 512)
  -- block 15
  | secStat | secRb | secSeq | secPseq | secSer (k : Fin 2) | secCseq | updStat | updOfs | updLen | secCnt | secCtl
  -- blocks 16 to 18
  | miCfg | miStat | miPass | miRefbase (b : Fin 2) | miTest | miClr | meminj (k : Fin 3) | miCnt (m : Fin 16)
  | miLcor (m : Fin 16) | miLbad (m : Fin 16)
  | injStat | injPoint | injArg | injLseq | injPermit | injCtl
  | govCfg | govStat | govBudget | govEst | govResv | govGcfg (g : Grp) | govGstat (g : Grp) | govGpwr (g : Grp)
  | govDefer (k : Fin 3) | govCnt (k : Fin 2) | govClr
deriving DecidableEq, Repr

/-- Offset of a channel register in its 64-word block. -/
def ChReg.ofs : ChReg → Nat
  | .cfg => 0x00 | .safe => 0x01 | .safeT => 0x02 | .safeV => 0x03 | .dicfg => 0x08 | .diag => 0x09 | .cntcfg => 0x0A
  | .docfg => 0x0B | .retry => 0x0C | .pwmcfg => 0x0D | .pwmper => 0x0E | .pwmduty => 0x0F | .pwmph => 0x10
  | .dstat => 0x11 | .evt => 0x12 | .evtEn => 0x13 | .dctl => 0x14 | .cnt k => 0x15 + k.val | .fper k => 0x17 + k.val
  | .fedg => 0x19 | .lstate => 0x1A | .lcnt k => 0x1B + k.val | .lstamp k => 0x1D + k.val | .acfg => 0x20
  | .astat => 0x21 | .aevt => 0x22 | .aevtEn => 0x23 | .actl => 0x24 | .aocode => 0x25 | .amon => 0x26
  | .calcfg => 0x27 | .tzero s => 0x28 + 2 * s.val | .tgain s => 0x29 + 2 * s.val | .calstat => 0x34

/-- Offset of a group register in its 64-word block. -/
def GrpReg.ofs : GrpReg → Nat
  | .lstat => 0x00 | .lcfg => 0x01 | .sup => 0x02 | .lerr0 => 0x03 | .lerr1 => 0x04 | .evt => 0x05 | .evtEn => 0x06
  | .ctl => 0x07 | .hrcfg => 0x30 | .hrstat => 0x31 | .hrdrv => 0x32

/-- Address of a register (R175). -/
def Reg.addr : Reg → Nat
  | .partId => 0x0000 | .fwVer => 0x0001 | .vintages => 0x0002 | .stepping => 0x0003
  | .devState => 0x0010 | .resetCause => 0x0011 | .wakeCause => 0x0012 | .stbyCfg => 0x0013 | .stbyTimer => 0x0014
  | .bootStat => 0x0015 | .grpUp => 0x0016
  | .portStat p => 0x0400 + 0x20 * (pidx p).val | .portPrio p => 0x0401 + 0x20 * (pidx p).val
  | .portErr p k => 0x0402 + 0x20 * (pidx p).val + k.val
  | .portDcfg p => 0x0408 + 0x20 * (pidx p).val | .portDmap p => 0x0409 + 0x20 * (pidx p).val
  | .portDstat p => 0x040A + 0x20 * (pidx p).val | .portDstat2 p => 0x040B + 0x20 * (pidx p).val
  | .portClr p => 0x040F + 0x20 * (pidx p).val
  | .intCfg s => 0x0800 + s.val | .ipend k => 0x0860 + k.val | .ien k => 0x0868 + k.val | .iactA k => 0x0870 + k.val
  | .iactB k => 0x0878 + k.val | .ivec p => 0x0880 + (pidx p).val | .modCfg m => 0x0890 + 2 * m.val
  | .modStat m => 0x0891 + 2 * m.val | .irqTimer => 0x08B0 | .irqBell => 0x08B1 | .bellAB => 0x08B2 | .bellBA => 0x08B3
  | .fltStat => 0x0C00 | .fltSeq => 0x0C01 | .fltCfg d => 0x0C10 + d.val | .frec k => 0x0C20 + k.val
  | .fltDom d => 0x0C30 + d.val | .fltCnt d c => 0x0C40 + 32 * d.val + c.val
  | .wdCfg => 0x1000 | .wdClose => 0x1001 | .wdTimeout => 0x1002 | .wdWarn => 0x1003 | .wdStat => 0x1004
  | .wdCount => 0x1005 | .wdToken => 0x1006 | .wdErr k => 0x1007 + k.val
  | .tapStat k => 0x1400 + 2 * k.val | .tapCfg k => 0x1401 + 2 * k.val | .tapSum k => 0x1440 + k.val
  | .tb k => 0x1800 + k.val | .tbLock => 0x1804 | .tbErr g => 0x1808 + g.val
  | .angIn => 0x1820 | .wheel => 0x1821 | .ztooth => 0x1822 | .angOfs => 0x1823 | .angRofs => 0x1824 | .trkCfg => 0x1825
  | .spdMin => 0x1826 | .spdMax => 0x1827 | .trkCmd => 0x1828 | .ang k => 0x1830 + k.val | .trkCnt k => 0x1840 + k.val
  | .tcor k => 0x1C00 + k.val
  | .seqCfg => 0x2000 | .seqStat => 0x2001 | .bankCfg b => 0x2010 + 8 * b.val | .bankPeriod b => 0x2011 + 8 * b.val
  | .bankCheck b => 0x2012 + 8 * b.val | .bankChkExp b => 0x2013 + 8 * b.val | .bankStat b => 0x2014 + 8 * b.val
  | .seqCnt k => 0x2020 + k.val | .seqSkmax => 0x2023 | .seqClr => 0x2024 | .toff k => 0x2028 + k.val
  | .mark k => 0x2030 + k.val | .entry b i => 0x4000 + 0x1000 * b.val + i.val
  | .ch n r => 0x6000 + 64 * n.val + r.ofs | .grp g r => 0x7000 + 64 * g.val + r.ofs
  | .smpCfg n => 0x7400 + n.val | .smpTimer => 0x7440 | .smpCmd => 0x7441 | .smpMask k => 0x7442 + k.val
  | .smpT k => 0x7445 + k.val | .smpCnt g => 0x7448 + g.val | .smpClr => 0x744F
  | .smpLast n k => 0x7480 + 8 * n.val + k.val
  | .panCfg g p => 0x7600 + 64 * g.val + 4 * p.val | .panRegion g p => 0x7601 + 64 * g.val + 4 * p.val
  | .panDecim g p => 0x7602 + 64 * g.val + 4 * p.val | .panStat g p => 0x7603 + 64 * g.val + 4 * p.val
  | .panCmd => 0x7780 | .panWin => 0x7781 | .panSkip g => 0x7790 + g.val | .panWindow i => 0xA000 + i.val
  | .caskCfg => 0x8000 | .caskPost => 0x8001 | .caskGrp g => 0x8008 + g.val | .caskDisel k => 0x8010 + k.val
  | .caskRbase => 0x8014 | .caskRcount => 0x8015 | .caskStat => 0x8020 | .caskSeg k => 0x8021 + k.val
  | .caskSess => 0x8023 | .caskRnext => 0x8024 | .caskLoss k => 0x8028 + k.val | .caskRpstat => 0x8030
  | .caskRpofs k => 0x8031 + k.val | .caskCtl => 0x803F
  | .mmpCfg => 0x8400 | .mmpStat => 0x8401 | .mmpErr k => 0x8402 + k.val | .mmpCnt => 0x8405 | .mmpClr => 0x8407
  | .mmpSel s k => 0x8410 + 4 * s.val + k.val | .mmpWin w k => 0x8440 + 4 * w.val + k.val | .mmpHacc => 0x8490
  | .mmpHaddr => 0x8491 | .mmpHdata i => 0x8600 + i.val
  | .secStat => 0x8800 | .secRb => 0x8801 | .secSeq => 0x8802 | .secPseq => 0x8803 | .secSer k => 0x8804 + k.val
  | .secCseq => 0x8806 | .updStat => 0x8808 | .updOfs => 0x8809 | .updLen => 0x880A | .secCnt => 0x880C
  | .secCtl => 0x880F
  | .miCfg => 0x8C00 | .miStat => 0x8C01 | .miPass => 0x8C02 | .miRefbase b => 0x8C04 + b.val | .miTest => 0x8C08
  | .miClr => 0x8C0F | .meminj k => 0x8C10 + k.val | .miCnt m => 0x8C40 + 4 * m.val | .miLcor m => 0x8C41 + 4 * m.val
  | .miLbad m => 0x8C42 + 4 * m.val
  | .injStat => 0x9000 | .injPoint => 0x9001 | .injArg => 0x9002 | .injLseq => 0x9003 | .injPermit => 0x9004
  | .injCtl => 0x900F
  | .govCfg => 0x9400 | .govStat => 0x9401 | .govBudget => 0x9402 | .govEst => 0x9403 | .govResv => 0x9404
  | .govGcfg g => 0x9410 + g.val | .govGstat g => 0x9418 + g.val | .govGpwr g => 0x9420 + g.val
  | .govDefer k => 0x9428 + k.val | .govCnt k => 0x942C + k.val | .govClr => 0x942F

/-- `f` of the number `a - lo` when `a` lies in the `n` addresses from `lo`. -/
def inRange (n lo a : Nat) (f : Fin n → Reg) : Option Reg :=
  if h : lo ≤ a ∧ a - lo < n then some (f ⟨a - lo, h.2⟩) else none

/-- `f` of the index `(a - lo) / st` when `a` is one of `n` addresses `st` apart from `lo`. -/
def strided (n st lo a : Nat) (f : Fin n → Reg) : Option Reg :=
  if h : lo ≤ a ∧ (a - lo) / st < n then (if (a - lo) % st = 0 then some (f ⟨(a - lo) / st, h.2⟩) else none) else none

/-- The channel register at an offset. -/
def ChReg.ofOfs (o : Nat) : Option ChReg :=
  match o with
  | 0x00 => some .cfg | 0x01 => some .safe | 0x02 => some .safeT | 0x03 => some .safeV | 0x08 => some .dicfg
  | 0x09 => some .diag | 0x0A => some .cntcfg | 0x0B => some .docfg | 0x0C => some .retry | 0x0D => some .pwmcfg
  | 0x0E => some .pwmper | 0x0F => some .pwmduty | 0x10 => some .pwmph | 0x11 => some .dstat | 0x12 => some .evt
  | 0x13 => some .evtEn | 0x14 => some .dctl | 0x15 => some (.cnt 0) | 0x16 => some (.cnt 1) | 0x17 => some (.fper 0)
  | 0x18 => some (.fper 1) | 0x19 => some .fedg | 0x1A => some .lstate | 0x1B => some (.lcnt 0) | 0x1C => some (.lcnt 1)
  | 0x1D => some (.lstamp 0) | 0x1E => some (.lstamp 1) | 0x1F => some (.lstamp 2) | 0x20 => some .acfg
  | 0x21 => some .astat | 0x22 => some .aevt | 0x23 => some .aevtEn | 0x24 => some .actl | 0x25 => some .aocode
  | 0x26 => some .amon | 0x27 => some .calcfg | 0x28 => some (.tzero 0) | 0x29 => some (.tgain 0)
  | 0x2A => some (.tzero 1) | 0x2B => some (.tgain 1) | 0x2C => some (.tzero 2) | 0x2D => some (.tgain 2)
  | 0x2E => some (.tzero 3) | 0x2F => some (.tgain 3) | 0x30 => some (.tzero 4) | 0x31 => some (.tgain 4)
  | 0x32 => some (.tzero 5) | 0x33 => some (.tgain 5) | 0x34 => some .calstat
  | _ => none

/-- The group register at an offset. -/
def GrpReg.ofOfs (o : Nat) : Option GrpReg :=
  match o with
  | 0x00 => some .lstat | 0x01 => some .lcfg | 0x02 => some .sup | 0x03 => some .lerr0 | 0x04 => some .lerr1
  | 0x05 => some .evt | 0x06 => some .evtEn | 0x07 => some .ctl | 0x30 => some .hrcfg | 0x31 => some .hrstat
  | 0x32 => some .hrdrv
  | _ => none

/-- Host port registers (R140). -/
def Reg.ofPort (p : Port) (o : Nat) : Option Reg :=
  match o with
  | 0x00 => some (.portStat p) | 0x01 => some (.portPrio p) | 0x02 => some (.portErr p 0) | 0x03 => some (.portErr p 1)
  | 0x04 => some (.portErr p 2) | 0x08 => some (.portDcfg p) | 0x09 => some (.portDmap p) | 0x0A => some (.portDstat p)
  | 0x0B => some (.portDstat2 p) | 0x0F => some (.portClr p)
  | _ => none

/-- Blocks 0 to 5. -/
def Reg.ofLow (a : Nat) : Option Reg :=
  if a < 0x400 then
    match a with
    | 0x0000 => some .partId | 0x0001 => some .fwVer | 0x0002 => some .vintages | 0x0003 => some .stepping
    | 0x0010 => some .devState | 0x0011 => some .resetCause | 0x0012 => some .wakeCause | 0x0013 => some .stbyCfg
    | 0x0014 => some .stbyTimer | 0x0015 => some .bootStat | 0x0016 => some .grpUp
    | _ => none
  else if a < 0x0420 then Reg.ofPort .a (a - 0x400)
  else if a < 0x0440 then Reg.ofPort .b (a - 0x420)
  else if a < 0x0860 then inRange 96 0x0800 a .intCfg
  else if a < 0x0868 then inRange 5 0x0860 a .ipend
  else if a < 0x0870 then inRange 5 0x0868 a .ien
  else if a < 0x0878 then inRange 5 0x0870 a .iactA
  else if a < 0x0880 then inRange 5 0x0878 a .iactB
  else if a < 0x0890 then inRange 2 0x0880 a (fun k => .ivec (if k = 0 then .a else .b))
  else if a < 0x08B0 then
    if a % 2 = 0 then strided 16 2 0x0890 a .modCfg else strided 16 2 0x0891 a .modStat
  else if a < 0x0C00 then
    match a with
    | 0x08B0 => some .irqTimer | 0x08B1 => some .irqBell | 0x08B2 => some .bellAB | 0x08B3 => some .bellBA
    | _ => none
  else if a < 0x0C10 then (if a = 0x0C00 then some .fltStat else if a = 0x0C01 then some .fltSeq else none)
  else if a < 0x0C20 then inRange 12 0x0C10 a .fltCfg
  else if a < 0x0C30 then inRange 7 0x0C20 a .frec
  else if a < 0x0C40 then inRange 12 0x0C30 a .fltDom
  else if h : a < 0x0DC0 then some (.fltCnt ⟨(a - 0x0C40) / 32, by omega⟩ ⟨(a - 0x0C40) % 32, by omega⟩)
  else if a < 0x1400 then
    match a with
    | 0x1000 => some .wdCfg | 0x1001 => some .wdClose | 0x1002 => some .wdTimeout | 0x1003 => some .wdWarn
    | 0x1004 => some .wdStat | 0x1005 => some .wdCount | 0x1006 => some .wdToken | 0x1007 => some (.wdErr 0)
    | 0x1008 => some (.wdErr 1)
    | _ => none
  else if a < 0x1440 then
    if a % 2 = 0 then strided 32 2 0x1400 a .tapStat else strided 32 2 0x1401 a .tapCfg
  else inRange 4 0x1440 a .tapSum

/-- Blocks 6 to 9. -/
def Reg.ofMid (a : Nat) : Option Reg :=
  if a < 0x1804 then inRange 3 0x1800 a .tb
  else if a < 0x1808 then (if a = 0x1804 then some .tbLock else none)
  else if a < 0x1820 then inRange 6 0x1808 a .tbErr
  else if a < 0x1830 then
    match a with
    | 0x1820 => some .angIn | 0x1821 => some .wheel | 0x1822 => some .ztooth | 0x1823 => some .angOfs
    | 0x1824 => some .angRofs | 0x1825 => some .trkCfg | 0x1826 => some .spdMin | 0x1827 => some .spdMax
    | 0x1828 => some .trkCmd
    | _ => none
  else if a < 0x1840 then inRange 10 0x1830 a .ang
  else if a < 0x1C00 then inRange 3 0x1840 a .trkCnt
  else if a < 0x2000 then inRange 1024 0x1C00 a .tcor
  else if a < 0x2020 then
    match a with
    | 0x2000 => some .seqCfg | 0x2001 => some .seqStat | 0x2010 => some (.bankCfg 0) | 0x2018 => some (.bankCfg 1)
    | 0x2011 => some (.bankPeriod 0) | 0x2019 => some (.bankPeriod 1) | 0x2012 => some (.bankCheck 0)
    | 0x201A => some (.bankCheck 1) | 0x2013 => some (.bankChkExp 0) | 0x201B => some (.bankChkExp 1)
    | 0x2014 => some (.bankStat 0) | 0x201C => some (.bankStat 1)
    | _ => none
  else if a < 0x2023 then inRange 3 0x2020 a .seqCnt
  else if a < 0x2028 then (if a = 0x2023 then some .seqSkmax else if a = 0x2024 then some .seqClr else none)
  else if a < 0x2030 then inRange 3 0x2028 a .toff
  else if a < 0x4000 then inRange 8 0x2030 a .mark
  else if a < 0x5000 then inRange 3072 0x4000 a (.entry 0)
  else inRange 3072 0x5000 a (.entry 1)

/-- Blocks 10 to 12. -/
def Reg.ofChan (a : Nat) : Option Reg :=
  if h : a < 0x6C00 then (ChReg.ofOfs ((a - 0x6000) % 64)).map (.ch ⟨(a - 0x6000) / 64, by omega⟩)
  else if a < 0x7000 then none
  else if h : a < 0x7180 then (GrpReg.ofOfs ((a - 0x7000) % 64)).map (.grp ⟨(a - 0x7000) / 64, by omega⟩)
  else if a < 0x7400 then none
  else if a < 0x7440 then inRange 48 0x7400 a .smpCfg
  else if a < 0x7442 then (if a = 0x7440 then some .smpTimer else some .smpCmd)
  else if a < 0x7445 then inRange 3 0x7442 a .smpMask
  else if a < 0x7448 then inRange 3 0x7445 a .smpT
  else if a < 0x744F then inRange 6 0x7448 a .smpCnt
  else if a < 0x7480 then (if a = 0x744F then some .smpClr else none)
  else if h : a < 0x7600 then
    if h2 : (a - 0x7480) % 8 < 5 then some (.smpLast ⟨(a - 0x7480) / 8, by omega⟩ ⟨(a - 0x7480) % 8, h2⟩) else none
  else if h : a < 0x7780 then
    let g : Grp := ⟨(a - 0x7600) / 64, by omega⟩
    let p : Fin 16 := ⟨(a - 0x7600) % 64 / 4, by omega⟩
    match a % 4 with
    | 0 => some (.panCfg g p) | 1 => some (.panRegion g p) | 2 => some (.panDecim g p) | _ => some (.panStat g p)
  else if a < 0x7782 then (if a = 0x7780 then some .panCmd else some .panWin)
  else inRange 6 0x7790 a .panSkip

/-- Blocks 13 to 18. -/
def Reg.ofHigh (a : Nat) : Option Reg :=
  if a < 0x8008 then (if a = 0x8000 then some .caskCfg else if a = 0x8001 then some .caskPost else none)
  else if a < 0x8010 then inRange 6 0x8008 a .caskGrp
  else if a < 0x8014 then inRange 3 0x8010 a .caskDisel
  else if a < 0x8400 then
    match a with
    | 0x8014 => some .caskRbase | 0x8015 => some .caskRcount | 0x8020 => some .caskStat | 0x8021 => some (.caskSeg 0)
    | 0x8022 => some (.caskSeg 1) | 0x8023 => some .caskSess | 0x8024 => some .caskRnext | 0x8028 => some (.caskLoss 0)
    | 0x8029 => some (.caskLoss 1) | 0x8030 => some .caskRpstat | 0x8031 => some (.caskRpofs 0)
    | 0x8032 => some (.caskRpofs 1) | 0x8033 => some (.caskRpofs 2) | 0x803F => some .caskCtl
    | _ => none
  else if a < 0x8410 then
    match a with
    | 0x8400 => some .mmpCfg | 0x8401 => some .mmpStat | 0x8402 => some (.mmpErr 0) | 0x8403 => some (.mmpErr 1)
    | 0x8404 => some (.mmpErr 2) | 0x8405 => some .mmpCnt | 0x8407 => some .mmpClr
    | _ => none
  else if h : a < 0x8430 then some (.mmpSel ⟨(a - 0x8410) / 4, by omega⟩ ⟨(a - 0x8410) % 4, by omega⟩)
  else if a < 0x8440 then none
  else if h : a < 0x8450 then
    if h2 : (a - 0x8440) % 4 < 3 then some (.mmpWin ⟨(a - 0x8440) / 4, by omega⟩ ⟨(a - 0x8440) % 4, h2⟩) else none
  else if a < 0x8600 then (if a = 0x8490 then some .mmpHacc else if a = 0x8491 then some .mmpHaddr else none)
  else if a < 0x8800 then inRange 512 0x8600 a .mmpHdata
  else if a < 0x8C00 then
    match a with
    | 0x8800 => some .secStat | 0x8801 => some .secRb | 0x8802 => some .secSeq | 0x8803 => some .secPseq
    | 0x8804 => some (.secSer 0) | 0x8805 => some (.secSer 1) | 0x8806 => some .secCseq | 0x8808 => some .updStat
    | 0x8809 => some .updOfs | 0x880A => some .updLen | 0x880C => some .secCnt | 0x880F => some .secCtl
    | _ => none
  else if a < 0x8C40 then
    match a with
    | 0x8C00 => some .miCfg | 0x8C01 => some .miStat | 0x8C02 => some .miPass | 0x8C04 => some (.miRefbase 0)
    | 0x8C05 => some (.miRefbase 1) | 0x8C08 => some .miTest | 0x8C0F => some .miClr | 0x8C10 => some (.meminj 0)
    | 0x8C11 => some (.meminj 1) | 0x8C12 => some (.meminj 2)
    | _ => none
  else if h : a < 0x8C80 then
    let m : Fin 16 := ⟨(a - 0x8C40) / 4, by omega⟩
    match a % 4 with
    | 0 => some (.miCnt m) | 1 => some (.miLcor m) | 2 => some (.miLbad m) | _ => none
  else if a < 0x9410 then
    match a with
    | 0x9000 => some .injStat | 0x9001 => some .injPoint | 0x9002 => some .injArg | 0x9003 => some .injLseq
    | 0x9004 => some .injPermit | 0x900F => some .injCtl | 0x9400 => some .govCfg | 0x9401 => some .govStat
    | 0x9402 => some .govBudget | 0x9403 => some .govEst | 0x9404 => some .govResv
    | _ => none
  else if a < 0x9418 then inRange 6 0x9410 a .govGcfg
  else if a < 0x9420 then inRange 6 0x9418 a .govGstat
  else if a < 0x9428 then inRange 6 0x9420 a .govGpwr
  else
    match a with
    | 0x9428 => some (.govDefer 0) | 0x9429 => some (.govDefer 1) | 0x942A => some (.govDefer 2)
    | 0x942C => some (.govCnt 0) | 0x942D => some (.govCnt 1) | 0x942F => some .govClr
    | _ => none

/-- The register at an address; none where the address is reserved (R19, R175). -/
def Reg.ofAddr (a : Nat) : Option Reg :=
  if a < 0x1800 then Reg.ofLow a
  else if a < 0x6000 then Reg.ofMid a
  else if a < 0x8000 then Reg.ofChan a
  else if a < 0xA000 then Reg.ofHigh a
  else inRange 16384 0xA000 a .panWindow

/-- Index of the register block of an address (R175). -/
def blockOf (a : Nat) : Nat :=
  if a < 0x1800 then a / 0x400
  else if a < 0x2000 then 6
  else if a < 0x4000 then 7
  else if a < 0x5000 then 8
  else if a < 0x6000 then 9
  else if a < 0x7000 then 10
  else if a < 0x7400 then 11
  else if a < 0x8000 then 12
  else if a < 0x8400 then 13
  else if a < 0x8800 then 14
  else if a < 0x8C00 then 15
  else if a < 0x9000 then 16
  else if a < 0x9400 then 17
  else if a < 0xA000 then 18
  else 19

end Sys2Proof.Machine
end

