-- ==== Sys2Proof/Machine/RegInfo.lean ====
section
/-! DEFINITION. What the register tables say of each register's writable and NV bits, its factory value (R17, R579; log
entry 5 where the spec gives none) and whether it is sealed (R494). -/

namespace Sys2Proof.Machine

/-- RW bits of a channel register (R306, R345, R373, R399). -/
def ChReg.rw : ChReg → Nat
  | .cfg => 0xF | .safe => 0x3 | .safeT => 0xFFFFF | .safeV => 0xFFFFF | .dicfg => 0x3FFFF | .diag => 0x3FFFF
  | .cntcfg => 0x3F | .docfg => 0x7FFF | .retry => 0x3FF | .pwmcfg => 0x3FF | .pwmper => 0xFFFFF | .pwmduty => 0xFFFFF
  | .pwmph => 0xFFFFF | .evtEn => 0x7FF | .acfg => 0xFF | .aevtEn => 0x1F | .calcfg => 0x3
  | _ => 0

/-- Bits of a register that hold RW fields, W1T and WO fields apart. -/
def Reg.rw : Reg → Nat
  | .stbyCfg => 0x1 | .stbyTimer => 0xFFFFF
  | .portPrio _ => 0xF | .portDcfg _ => 0x7FFF | .portDmap _ => 0xFFF
  | .intCfg _ => 0x7FF | .ipend k => if k = 4 then 0xFFFF else 0xFFFFF | .ien k => if k = 4 then 0xFFFF else 0xFFFFF
  | .modCfg _ => 0xFFFFF | .irqTimer => 0xFFFFF | .bellAB => 0xFFFFF | .bellBA => 0xFFFFF
  | .fltCfg _ => 0x1FFFF
  | .tapCfg k => if k.val ≤ 6 then 0xF else 0x3FFF
  | .angIn => 0x7FFF | .wheel => 0x3FFFF | .ztooth => 0x3FF | .angOfs => 0xFFFFF | .angRofs => 0xFFFF | .trkCfg => 0x7FFF
  | .spdMin => 0x1FFF | .spdMax => 0x1FFF | .tcor _ => 0xFFF
  | .seqCfg => 0x7FFF | .bankCfg _ => 0x3FFF | .bankPeriod _ => 0xFFFFF | .bankChkExp _ => 0x1FFFF
  | .toff k => if k = 2 then 0xFF else 0xFFFFF
  | .entry _ _ => 0xFFFFF
  | .ch _ r => r.rw
  | .grp _ .lcfg => 0x1FFFF | .grp _ .evtEn => 0xFF | .grp _ .hrcfg => 0x7FF
  | .smpCfg _ => 0x1FFF | .smpTimer => 0xFFFFF | .smpMask k => if k = 2 then 0xFF else 0xFFFFF
  | .panCfg _ _ => 0xFFFF | .panRegion _ _ => 0xFFFFF | .panDecim _ _ => 0x1FFFF | .panWin => 0x1F
  | .caskCfg => 0x7FFFF | .caskPost => 0xFF | .caskGrp _ => 0xFFFFF | .caskDisel k => if k = 2 then 0xFF else 0xFFFFF
  | .caskRbase => 0xFFFFF | .caskRcount => 0xFFFFF
  | .mmpCfg => 0x1FF
  | .mmpSel _ k => (match k with | 0 => 0x1FFFF | 1 => 0xFFFF | 2 => 0x3FFFF | 3 => 0xFFFF)
  | .mmpWin _ k => if k = 0 then 0x3FF else 0xFFFFF
  | .mmpHacc => 0x3 | .mmpHaddr => 0xFFFFF | .mmpHdata _ => 0xFFFFF
  | .miCfg => 0x7F | .miRefbase _ => 0xFFFFF | .miTest => 0xFFFF
  | .meminj k => (match k with | 0 => 0x1FFFF | 1 => 0x1F | 2 => 0)
  | .govCfg => 0x3FF | .govGcfg _ => 0xFFF
  | _ => 0

/-- Bits of a register whose Reset entry is NV and whose value the configuration image sets (R17, R579). The firmware
version and the trims have stores of their own (R177, R369). -/
def Reg.nv : Reg → Nat
  | .ipend _ => 0 | .bellAB => 0 | .bellBA => 0 | .smpMask _ => 0 | .panWin => 0 | .mmpHacc => 0 | .mmpHaddr => 0
  | .mmpHdata _ => 0 | .miTest => 0 | .meminj _ => 0
  | .tapCfg k => if k.val ≤ 6 then 0xF else 0x3FFF
  | .bankCfg _ => 0x7FFF | .bankStat _ => 0x1
  | .wdCfg => 0xFF | .wdClose => 0xFFFFF | .wdTimeout => 0xFFFFF | .wdWarn => 0xFFFFF
  | r => r.rw

/-- Factory value of a register that `cfg` holds (R579, log entry 5). -/
def Reg.factory : Reg → Nat
  | .portDcfg _ => 0x3
  | .tapCfg k => if k.val ≤ 6 then 8 + 3 * 16 + k.val * 64 else 8
  | .wheel => 0x80C | .trkCfg => 0x1010 | .spdMin => 2 | .spdMax => 3
  | .seqCfg => 4
  | .ch _ .diag => 0x40 | .ch _ .docfg => 5 | .ch _ .retry => 0x40 | .ch _ .pwmper => 0x30D4 | .ch _ .safeV => 0x23280
  | .grp _ .lcfg => 1000
  | .panDecim _ _ => 1
  | .govGcfg _ => 0x914
  | .fltCfg _ => 0x2810
  | .modCfg _ => 1
  | .wdTimeout => 2
  | .mmpSel _ k => if k = 3 then 4 else 0
  | _ => 0

/-- Channel registers that are sealed: the RW fields at +0x00 to +0x27 but PWMDUTY and the event enables (R494). -/
def sealedCh : List ChReg :=
  [.cfg, .safe, .safeT, .safeV, .dicfg, .diag, .cntcfg, .docfg, .retry, .pwmcfg, .pwmper, .pwmph, .acfg, .calcfg]

/-- The sealed registers in ascending address (R494, R501). -/
def sealedRegs : List Reg :=
  [.portDcfg .a, .portDmap .a, .portDcfg .b, .portDmap .b]
  ++ (List.finRange 12).map .fltCfg
  ++ [.wdCfg, .wdClose, .wdTimeout, .wdWarn, .angIn, .wheel, .ztooth, .angOfs, .angRofs, .trkCfg, .spdMin, .spdMax,
      .seqCfg, .toff 0, .toff 1, .toff 2]
  ++ chans.flatMap (fun n => sealedCh.map (.ch n))
  ++ groups.flatMap (fun g => [.grp g .lcfg, .grp g .hrcfg])
  ++ [.miCfg, .miRefbase 0, .miRefbase 1, .govCfg]
  ++ groups.map .govGcfg

/-- Whether a register is sealed while the seal is enabled (R494). -/
def Reg.isSealed : Reg → Bool
  | .portDcfg _ | .portDmap _ | .fltCfg _ | .wdCfg | .wdClose | .wdTimeout | .wdWarn | .angIn | .wheel | .ztooth
  | .angOfs | .angRofs | .trkCfg | .spdMin | .spdMax | .seqCfg | .toff _ | .grp _ .lcfg | .grp _ .hrcfg | .miCfg
  | .miRefbase _ | .govCfg | .govGcfg _ => true
  | .ch _ r => sealedCh.contains r
  | _ => false

end Sys2Proof.Machine
end

