-- ==== Sys2Proof/Config.lean ====
section
/-! DEFINITION. What one part fixes and the spec leaves open: free values (`opaque`, no body: nothing can be proved of
them) and the stand-in contents of the cellar and of NV bank A, which every part has and the spec does not give
(DESIGN CHOICE, log entries 7 and 8). -/

namespace Sys2Proof

/-- Whether the k-th RESET_N pulse between 0.5 µs and 1 µs is taken (R82). Free value, log entry 12. -/
opaque Config.pulseTaken : Nat → Bool

/-- Whether SAFE frames leave before a supply collapse stops the logic die (R79). Free value, log entry 12. -/
opaque Config.safeOnCollapse : Nat → Bool

/-- Period of CK_WDA in ticks, before it is held to the ±5 % of R45. Free value, log entry 11. -/
opaque Config.wdaPeriod : Nat → Nat

/-- The nonce of the k-th ECDSA signature (R484). Free value, log entry 9. -/
opaque Config.nonce : Nat → Nat

/-- Silicon stepping of the logic die (R177). Free value, log entry 23. -/
opaque Config.stepping : BitVec 8

/-- Pace of a conversion where the spec states no code, drawn by the k-th such conversion. Free value, log entry 28. -/
opaque Config.freeWord : Nat → Word

/-- Knadin image key, fixed in the boot ROM (R483); stand-in, log entry 8. -/
def Config.knadinX : Nat := 0x3fca457e03eeacb1ff103ad9476e6166ab05a96abecea2e68a09a1a8a61e918a
def Config.knadinY : Nat := 0x5f1d39c12589d0ac8e42842fb7ab2d5c69dab9f621dca89cf2ad76efc3810cdf

/-- Device key pair of the cellar (R482); stand-in, log entry 8. -/
def Config.devPriv : Nat := 0xff9860cd886559a469bfc26075bc2db3de7bd539e873236c49bb353703a6e702
def Config.devX : Nat := 0x3c1dd94ef85ecf09c6892009f1010c2fbb0e948832d4668829f6d6c85a0d3d2
def Config.devY : Nat := 0x82d5ca3423bf5c1b5ad8accfacd715ff8ed430a8005b2635e54fe9b79b697b19

/-- Serial number of the cellar (R482); stand-in, log entry 8. -/
def Config.serial : BitVec 40 := 1

/-- Signature of the vendor certificate (R482, R499); stand-in, log entry 8. -/
def Config.certR : Nat := 0xc0e7d9113804af675d9141ab1d6c3b0fba10423c76a2e01e99916bca4d7e3431
def Config.certS : Nat := 0x25bc2888e42bdd43525a89f2a9172f42781a73fb75dceeec6bf3dde45226a322

/-- NV bank A as delivered: a one-word image, VERSION 1.0.0, ROLLBACK 0, signed under the image key; log entry 7. -/
def Config.fwVersion : Word := 0x01000#20
def Config.fwImage : List Word := [0#20]
def Config.fwHash : Nat := 0x709e80c88487a2411e1ee4dfb9f22a861492d20c4765150c0c794abd70f8147c
def Config.fwSigR : Nat := 0xbe9ee19f365fee9d27ac8858a18d4f7527419062e2324938af15e7d234fa23f6
def Config.fwSigS : Nat := 0x8ffcb2296fb5233a49ea0228b1f18fd0fbf94a2ab36224a3a7ceecd67d646de

end Sys2Proof
end

