-- ==== Sys2Proof/Machine/State.lean ====
section
/-! DEFINITION. The state of the IX4860 block: every register, buffer, counter, mode and timer the spec gives it, as plain
data. Times are physical ticks of 4 ns (`now`); stamps are timebase values (R194). Register words that hosts write live in
`cfg`, sparse over their factory values (R17, R579); everything the device itself changes has a field of its own. -/

namespace Sys2Proof.Machine

/-- A stored 20-bit word: low half-word in bits 16..0, high half-word in bits 33..17, each with its seven check bits above
its ten data bits (R468). -/
abbrev Cell := BitVec 34

/-- A protected memory (R467): (word address, stored word) pairs, addresses rising, no entry that is the stored zero word.
A word that is not listed is invalid and reads 0x00000 with good check bits (R470). -/
abbrev Mem := List (Nat × Cell)

/-- Values by address, addresses rising; what an unlisted address holds is said where the list is used. -/
abbrev Sparse := List (Nat × Word)

/-- Device states (R94, R105). -/
inductive DevState where
  | off | boot | config | run | maint | safe | lockdown | standby
deriving DecidableEq, Repr

/-- How far BOOT has come (R87). `waiting`: the cause of BOOT has ended or is ending and BOOT has not begun. -/
inductive BootPhase where
  | idle | waiting | pll | pattern | firmware | groups
deriving DecidableEq, Repr

/-- What BOOT has found so far (R87 to R91, R443, R579). -/
structure Boot where
  phase : BootPhase
  t0 : Nat
  noImage : Bool      -- BOOT ended in LOCKDOWN: no configuration goes to the groups (R90)
  secFail : BitVec 5  -- cause of a security failure found by BOOT, 0 none (R486)
  fromStandby : Bool  -- BOOT began from STANDBY: source 94 when it ends (R87)
  nvFault : Bool      -- an NV pair was not applied or a register reverted (R579)
deriving DecidableEq, Repr

/-- A reset that has been recognised and has not taken hold (R83). -/
structure ResetSeq where
  cause : BitVec 7        -- RESET_CAUSE bits it sets (R106)
  fatal : Bool
  sent : Vector Nat 6     -- SAFE frames that have left on each link
  since : Nat
  recordStored : Bool     -- the fatal record is in the always-on domain
deriving DecidableEq, Repr

/-- The fatal record (R447). -/
structure FatalRec where
  domain : BitVec 4
  cause : BitVec 5
  unit : BitVec 6
  escalated : Bool
  overrun : Bool
  acked : Bool
  priorCause : BitVec 5
  priorUnit : BitVec 6
  state : BitVec 4
  stamp : Stamp
  angle : Word
deriving DecidableEq, Repr

/-- The always-on domain (R103, R447, R503, R560, R100). -/
structure Aon where
  resetCause : BitVec 7
  wakeCause : BitVec 5
  frec : FatalRec
  fatalHeld : Bool
  fatalCnt : BitVec 10
  caskSess : Word
  updLast : BitVec 3
  updFlag : Bool          -- an update session is open (R503)
  updRebooted : Bool      -- the last reset was an update reboot: source 93 when BOOT ends (R505)
  stbyUnit : Bool
  stbyCount : Word
  stbyFrom : Nat          -- end of the standby entry (R108)
  inj75 : Option (BitVec 6)
  inj76 : Bool
deriving DecidableEq, Repr

/-- A pending standby entry (R99, R100): entry has begun, or it waits for the fetch of a STATE_REQ reply. -/
inductive StbyReq where
  | none
  | entering
  | awaitFetch (p : Port) (tag : BitVec 7) (since : Nat)
deriving DecidableEq, Repr

/-- A deferred command in flight (R156, R157). -/
structure Deferred where
  op : BitVec 8
  port : Port
  tag : BitVec 7
  wake : Bool
deriving DecidableEq, Repr

/-- Supplies, pins, states, reset and BOOT (03_power_states_boot). -/
structure Power where
  dev : DevState
  prev : DevState
  vsupGood : Bool
  vioGood : Bool
  resetLowUntil : Nat     -- RESET_N is low before this tick (R82)
  safePin : Bool          -- SAFE_N asserted, after its filter (R104)
  stbyLow : Bool          -- STBY_N low (R104)
  stbyRemembered : Bool   -- a falling edge waits for the end of BOOT (R98)
  resetSeq : Option ResetSeq
  boot : Boot
  stby : StbyReq
  latched : BitVec 3      -- wake sources during entry: CSA, CSB, STBY (R101)
  bank : Bool             -- BOOT_STAT (R109)
  fallback : Bool
  patternFail : Bool
  calFallback : Bool
  bootMs : BitVec 8
  nvDefault : Bool
  lastBringUp : Option Nat  -- R93
  tb0 : Option Nat        -- tick at which the PLL locked; the timebase counts from it (R194)
  leaveRun : List Deferred  -- STATE_REQs out of RUN whose replies wait for acknowledgements (R578)
deriving DecidableEq, Repr

/-- A reply in a port's queue or store (R158, R159). -/
structure Reply where
  status : BitVec 8
  tag : BitVec 7
  wake : Bool
  cells : List Cell
  queuedAt : Nat
deriving DecidableEq, Repr

/-- A packet in a command buffer (R126); its payload is held as stored words, whose codes guard it (R467). -/
structure CmdEntry where
  op : BitVec 8
  msg : Msg
  cells : List Cell
deriving DecidableEq, Repr

/-- What the front end does with the payload that follows a header (R125). -/
inductive Dispo where
  | accept
  | drop
deriving DecidableEq, Repr

/-- What a packet-mode front end is receiving (R116 to R125). -/
inductive Rx where
  | header                                            -- the next beat is a header
  | payload (h0 h1 : Word) (d : Dispo)
  | stream (h0 : Word) (words : List Word) (fill : Nat) (at_ : Nat) (overran : Bool)
  | reply (carried : Bool)                            -- a REPLY_FETCH came; whether a reply stands for it
  | ignore                                            -- the rest of the select is ignored
deriving DecidableEq, Repr

/-- One host port (04_host_ports, 05_packet_protocol). Snapshot latches and write stages are per port (R179, R182). -/
structure PortSt where
  daisy : Bool
  vintage : BitVec 2
  awake : Bool
  wakeLvl : Bool
  selected : Bool
  ignoring : Bool          -- the present select is ignored (R113)
  gotPacket : Bool         -- a complete packet came in this select (R125)
  rx : Rx
  cmdBuf : List CmdEntry
  replyQ : List Reply
  waiting : List Reply     -- replies that wait outside the queue (R159)
  tags : BitVec 128
  tx : List Word           -- words driven by the last fetch (R122)
  frag : BitVec 10
  tail : BitVec 10
  hdrBad : BitVec 10
  aborted : BitVec 10
  overrun : BitVec 10
  discard : BitVec 10
  accepted : BitVec 10
  lenRej : BitVec 10
  crcRej : BitVec 10
  lastFrame : BitVec 2
  timedOut : Bool
  refused : Bool
  outImage : BitVec 32
  fresh : Bool             -- the next accepted frame is the first since entry into RUN (R135)
  inImage : BitVec 32
  dcfg : Word              -- DCFG and DMAP at the frame's start (R138)
  dmap : Word
  lastAccept : Nat         -- last accepted daisy frame, or later entry into RUN (R136)
  timerOff : Bool          -- the daisy timeout does not run: nothing to count from, or it has expired (R136)
  lastCs : Nat             -- last falling edge that was not ignored (R114)
  panWin : Word
  mmpHacc : Word
  mmpHaddr : Word
  latch : Sparse
  stage : Sparse
deriving DecidableEq, Repr

/-- One tap (R188, R190). -/
structure Tap where
  holder : Option Port
  lastRel : BitVec 2
  since : Nat
deriving DecidableEq, Repr

/-- One moderator (R421). -/
structure Moderator where
  count : BitVec 10
  timer : Option Nat
deriving DecidableEq, Repr

/-- The interrupt controller (14_interrupts). -/
structure Irq where
  pend : BitVec 96
  actA : BitVec 96
  actB : BitVec 96
  released : BitVec 96
  rr : Port
  mods : Vector Moderator 16
  bellAB : Word
  bellBA : Word
deriving DecidableEq, Repr

/-- A CONTAINED fault that a domain holds (R440). -/
structure Held where
  cause : BitVec 5
  unit : BitVec 6
  promoted : Bool
deriving DecidableEq, Repr

/-- FLT_CNTd_c with the end of its open window (R438). -/
structure FltCnt where
  window : BitVec 10
  total : BitVec 10
  until_ : Option Nat
deriving DecidableEq, Repr

/-- One log entry (R450). -/
structure LogEntry where
  domain : BitVec 4
  cause : BitVec 5
  cls : BitVec 2
  promoted : Bool
  unit : BitVec 6
  seq : Word
  stamp : Stamp
deriving DecidableEq, Repr

/-- The fault collector (R437 to R453). Counters are listed by 32·d + c; an unlisted one is 0. -/
structure Faults where
  held : Vector (Option Held) 12
  cnt : List (Nat × FltCnt)
  log : List LogEntry          -- newest first
  seq : Word
  heartbeat : Option Nat       -- since when the heartbeat is missing (R44)
deriving DecidableEq, Repr

/-- The watchdog (R454 to R466). C is `base` counter units plus the units elapsed since `zero` (R458). -/
structure Wdog where
  running : Bool
  owner : Option Port
  pre : BitVec 4
  clk : Bool                   -- false CK_WDA, true CK_WDB
  close : Word
  timeout : Word
  warn : Word
  warned : Bool                -- C has reached WARN since it was last 0 (R458)
  autostart : Bool
  clkNow : Bool
  failedA : Bool
  failedB : Bool
  failover : Bool
  monLost : Bool
  last : BitVec 3
  zero : Nat
  base : Nat
  frozen : Word                -- C while STOPPED
  token : Word
  early : BitVec 10
  wrong : BitVec 10
  foreign : BitVec 10
  mon : BitVec 10
deriving DecidableEq, Repr

/-- Tracker states (R220). -/
inductive TrkState where
  | stopped | seeking | revSync | cycleSync | holdover | lost
deriving DecidableEq, Repr

/-- One stamped angle edge on its way to the tracker (R202, R204, R509). -/
structure Edge where
  inp : AngIn
  level : Bool
  stamp : Nat
  lostQ : Bool                 -- stands for an edge lost to a full queue (R204)
  usable : Nat                 -- tick at which its frame became usable (R33)
deriving DecidableEq, Repr

/-- The angle tracker (07_angle_tracking). Angles of the estimator are in units of 2^-12 ac; s is scaled by 2^46 and j by 2^52. -/
structure Tracker where
  st : TrkState
  rev : Bool                   -- DIR: true = reverse
  predOk : Bool
  camFail : Bool
  phaseHost : Bool
  learned : Bool
  posHeld : Bool
  spdOor : Bool
  spdHigh : Bool               -- the limit crossed was SPD_MAX (R227)
  cause : BitVec 4
  tooth : BitVec 10
  cycRev : Bool                -- revolution of the cycle of the last accepted edge
  holdCnt : Nat                -- expected edges passed in the present holdover
  cyc : BitVec 40
  uCyc : BitVec 40             -- cycle in which the last accepted edge lies
  tk : Nat
  uk : Nat                     -- angle of the last accepted edge, 0 to 2^32 - 1
  pace : Int
  slope : Int
  row : Fin 4
  rowCnt : BitVec 4
  edges : Nat                  -- accepted edges since the estimator's reset, up to 2
  shown : Angle                -- last value of ANG_NOW (R216)
  prevTk : Nat                 -- the accepted edge before the last, for skew (R260)
  prevUk : Nat
  prevOk : Bool
  gapI : Nat                   -- interval before the last edge, while the gap is sought (R222)
  gapPrev : Nat
  lastA : Option Nat           -- stamp of the last accepted ANGA edge (R226, R227)
  zPend : Bool                 -- an ANGZ edge came since the last ANGA edge (R212)
  bLevel : Bool                -- ANGB level left by the last ANGB edge
  bOld : Bool                  -- level before it
  bStamp : Nat
  camLast : Option Bool        -- last tooth-0 sample in REV_SYNC (R222)
  camRevs : Nat
  camHist : List Bool          -- mismatches of the last revolutions, newest first (R211); in SEEKING ANGB at the last edges
  rev0 : Bool                  -- revolution of the most recent tooth 0, for PHASE0 and PHASE1 (R234)
  extraRev : Nat               -- extra edges of this revolution (R224)
  gapPos : List Nat            -- missing positions that brought an edge in this revolution, and in the one before
  gapPosOld : List Nat
  lowHold : Bool               -- holdover entered below SPD_MIN (R225)
  unverified : Bool            -- held count not yet verified by a gap (R226)
  learnCnt : List (Nat × Nat)  -- updates of each tooth (R215)
  queue : List Edge            -- edges at the logic die, oldest first
  missed : BitVec 10
  extra : BitVec 10
  losses : BitVec 10
  indexErr : BitVec 10
  camErr : BitVec 10
  dirChg : BitVec 10
deriving DecidableEq, Repr

/-- Bank states (R255). -/
inductive BankState where
  | unarmed | waiting | active
deriving DecidableEq, Repr

/-- One trellis bank beside its entries and its RW registers (R252, R255, R410). -/
structure Bank where
  st : BankState
  loaded : Bool
  valid : Bool
  lineChk : Bool
  reason : BitVec 4
  failEntry : BitVec 10
  check : BitVec 16
  order : Nat                  -- which bank was armed later
  armedAt : Nat                -- timebase tick of the acceptance of its ARM (R256)
  stopPend : Bool
  worst : Nat                  -- W in mW (R409, R410)
  period0 : Nat                -- start of the present time-bank period (R247); while WAITING the later of ARM and entry into RUN
  targets : BitVec 48          -- channels that its entries name (R404)
deriving DecidableEq, Repr

/-- A placed action, MARK included, as the sequencer keeps it (R258 to R264). -/
structure Act where
  id : Nat
  bank : Bool
  entry : BitVec 10
  cyc : BitVec 40
  timeBank : Bool
  w0 : Word
  w1 : Word
  w2 : Word
  stamp : Nat                  -- stamp last computed or sent
  committed : Bool
  checked : Bool               -- its skew has been judged (R260)
  endStamp : Option Nat        -- end of a pulse
  endCommitted : Bool
  deferred : Bool              -- counted in SEQ_CNT1.DEFERRED (R262)
  late : BitVec 2              -- LATE and DROPPED, as a replay judges them (R517)
  grps : List (Grp × Option (Fin 64))  -- target groups; slot once the first message is sent
deriving DecidableEq, Repr

/-- A schedule message (R375, R376): the whole action, first or refinement. -/
structure SchedMsg where
  id : Nat
  first : Bool
  again : Bool                 -- resent after a discarded frame (R378)
  running : Bool               -- a pulse that has started: its end remains
  slot : Fin 64
  timeBank : Bool
  action : BitVec 5
  target : BitVec 6
  mask : BitVec 9
  arg : Word
  stamp : Nat
  endStamp : Option Nat
  entry : BitVec 10
  cyc : BitVec 40
  bank : Bool
  w0 : Word
deriving DecidableEq, Repr

/-- The sequencer (08_trellis_sequencer). -/
structure Seq where
  banks : Vector Bank 2
  arms : Nat
  next : BitVec 10             -- next entry in walk order (R258)
  left : Nat                   -- entries of the present cycle still to enter
  walking : Bool               -- a cycle is being walked
  walkCyc : BitVec 40          -- the cycle being walked
  decided : Option (Option Bool)  -- bank chosen at the decision instant for the coming cycle (R256)
  wait : BitVec 2
  acts : List Act
  nextId : Nat
  marks : Vector Word 8
  late : BitVec 10
  skew : BitVec 10
  dropped : BitVec 10
  deferred : BitVec 10
  withdraw : BitVec 10
  skMax : Word
  refetch : Option (Bool × Nat)  -- bank and line waited for (R475)
deriving DecidableEq, Repr

/-- A sample as it travels and as SMPn.LAST shows it (R276 to R278, R302). -/
structure Sample where
  l : Lidx
  word : Word
  flags : BitVec 4
  unlocked : Bool
  src : BitVec 3
  stamp : Nat
deriving DecidableEq, Repr

/-- A pan (R287 to R296). -/
inductive PanState where
  | idle | opened | closed
deriving DecidableEq, Repr

structure Pan where
  st : PanState
  latest : Bool
  tOpen : Nat
  tClose : Option (Nat × BitVec 3)   -- close stamp and REASON
  mask : BitVec 8
  src : BitVec 3
  decim : Word
  origin : BitVec 2
  replay : Bool
  timeBank : Bool
  byTrellis : Bool
  run : Nat                          -- sets since the last kept one, for decimation (R289)
  sums : List (Nat × Int × BitVec 4) -- per mask channel: samples, sum, flags of the run
  blocks : Nat
  part : List (Word × BitVec 4)      -- samples of the block being filled
  lastN : Nat
  wrapped : Bool
  unlocked : Bool
  sets : Nat
  gaps : Nat
deriving DecidableEq, Repr

/-- A pan open or close that waits for its stamp (R287, R304). -/
structure PanEv where
  g : Grp
  pan : Fin 16
  opens : Bool
  stamp : Nat
  origin : BitVec 2
  decim : Word
  cycle : Word
  angle : Word
  entry : BitVec 10
deriving DecidableEq, Repr

/-- Sampling and pans at the logic die (09_sampling_pans). -/
structure Smp where
  cmdT : Nat
  busy : Vector (BitVec 10) 6
  lost : Vector (BitVec 10) 6
  last : Vector Sample 48
  pans : Vector Pan 96               -- index 16·g + p
  evs : List PanEv
  skipped : Vector (BitVec 10) 6
  overwritten : Vector (BitVec 10) 6
  expect : List (Grp × Nat × BitVec 8 × BitVec 3)  -- stamps, triggered channels and sources still expected (R279)
deriving DecidableEq, Repr

/-- What a channel report carries (R345, R373, R377). -/
structure ChanRep where
  dstat : Word
  cnt : BitVec 32
  fper : BitVec 40
  fedg : Word
  lstate : BitVec 2
  lcnt : BitVec 32
  lstamp : Stamp
  astat : BitVec 7
  aocode : Word
  amon : Word
  curMa : Nat
  inrush : Bool
  safeActive : Bool
  safeHolding : Bool
  msq : Nat                    -- mean of I² over one period, mA² (R403)
  vpin : BitVec 8              -- pin voltage, 0.2 V units (R403)
  mode : BitVec 4              -- MODE and LOOP in force at the die (R403)
  loop : Bool
deriving DecidableEq, Repr

/-- The logic die's copy of one channel, with its event bits (R344, R371). -/
structure Mirror where
  rep : ChanRep
  evt : BitVec 11
  aevt : BitVec 5
deriving DecidableEq, Repr

/-- A host output value or act of a configuration message (R311, R387). -/
inductive HostOp where
  | off | on | pwmOff
  | pwmOn (shift : Nat)
  | aoSet (code : Word)
  | cntClr | clrLatch
deriving DecidableEq, Repr

/-- A configuration message (R36, R307, R363). -/
inductive ConfMsg where
  | regs (pairs : List (Nat × Word)) (at_ : Option Nat)
  | host (l : Lidx) (op : HostOp)
  | trim (l : Lidx) (set : Fin 6) (zero : BitVec 16) (gain : Word)
deriving DecidableEq, Repr

/-- Frame types (R375). -/
inductive FrameType where
  | normal | safe | sync | range
deriving DecidableEq, Repr

/-- Extent of a withdrawal (R265): angle banks only, or every action. -/
inductive Extent where
  | angle | all
deriving DecidableEq, Repr

/-- A downstream frame in flight (R375). -/
structure DownFrame where
  seq : Nat
  typ : FrameType
  start : Nat
  sched : List SchedMsg
  conf : List ConfMsg
  withdraw : Option Extent
  lastUp : Option Nat
  badUp : List Nat             -- discarded upstream frames not yet resent (R580)
deriving DecidableEq, Repr

/-- Reports of a field die (R377). -/
inductive Report where
  | dig (l : Lidx) (bit : Fin 11)
  | ana (l : Lidx) (bit : Fin 5)
  | grp (bit : Fin 8)
  | fault (cause : BitVec 5) (unit : BitVec 6)
  | late (id : Nat) (dropped : Bool)
  | slotFree (id : Nat)
  | busy (l : Lidx) (stamp : Nat)
  | supply
deriving DecidableEq, Repr

/-- Supply state of a group (R395). -/
inductive Supply where
  | good | low | missing
deriving DecidableEq, Repr

/-- What every upstream frame tells of the die itself (R200, R374, R400). -/
structure GrpRep where
  vfg : BitVec 8
  lock : Bool
  phase : BitVec 10
  hrStat : Word
  hrDrv : Word
deriving DecidableEq, Repr

/-- An upstream frame in flight (R375, R382, R580). -/
structure UpFrame where
  seq : Nat
  start : Nat
  beacon : Bool
  supply : Supply
  samples : List Sample
  edges : List Edge
  reports : List Report
  chan : Option (Lidx × ChanRep)
  grp : GrpRep
  lastDown : Option Nat
  badDown : List Nat           -- downstream frames reported as discarded (R378)
  mark : List Nat              -- discarded upstream frames whose items it carries again (R580)
deriving DecidableEq, Repr

/-- Link states (R381). -/
inductive LinkState where
  | down | ranging | up
deriving DecidableEq, Repr

/-- One link as the logic die sees it (12_field_links). -/
structure Link where
  st : LinkState
  cause : BitVec 3
  wdExp : Bool
  parked : Bool
  supply : Supply
  vintage : BitVec 4
  vfg : BitVec 8
  vmin : BitVec 8
  dnCrc : BitVec 10
  upCrc : BitVec 10
  resent : BitVec 10
  losses : BitVec 10
  evt : BitVec 8
  tbLock : Bool
  stepped : Bool
  tbErr : BitVec 10
  rangingAt : Nat
  beacon : Option Nat          -- first of the present run of good beacons (R382)
  beaconLast : Nat
  wantUp : Bool                -- a bring-up waits for a slot (R93), after RELINK for the SAFE frames (R398)
  bringUps : Nat               -- bring-ups since the reset
  safeLeft : Nat               -- SAFE frames that must still leave (R379)
  safeFrom : Option Nat        -- an acknowledgement of a SAFE frame from this number on is awaited (R379)
  withdraw : Option Extent
  nextDown : Nat               -- timebase value of the next frame start
  seqDown : Nat
  lastUp : Option Nat
  badUp : List Nat             -- discarded upstream frames whose items have not come again (R580)
  badRun : Nat
  lastGoodUp : Nat
  sched : List SchedMsg
  conf : List ConfMsg
  slots : BitVec 64            -- slots in use
  sent : List DownFrame        -- frames sent and not known to be good (R378)
  down : List DownFrame        -- in flight
  up : List UpFrame
  hrStat : Word                -- mirrors of HRSTAT and HRDRV
  hrDrv : Word
deriving DecidableEq, Repr

/-- Retry states (R327). -/
inductive Retry where
  | normal | pause | latched
deriving DecidableEq, Repr

/-- By whom a channel's output was last set (R265, R269). -/
inductive Owner where
  | none | host | angle | time
deriving DecidableEq, Repr

/-- One slice of a field die (10_channels_digital, 11_channels_analog, R390). Its configuration is the die's `cfg`. -/
structure Slice where
  cmd : Bool                   -- commanded on, or pattern commanded running
  out : Bool                   -- switch conducting
  inp : Bool                   -- filtered input
  comp : Bool                  -- comparator level
  retry : Retry
  r : BitVec 4
  pauseEnd : Option Nat
  therm : Bool
  limiting : Bool
  inrushEnd : Option Nat
  offSince : Nat
  onSince : Nat
  opened : Bool                -- wire break, or open load found in the off state
  openedOn : Bool              -- open load found in the on state
  shorted : Bool
  swFail : Bool
  noFreq : Bool
  pwm : Bool                   -- pattern running
  pwmOn : Bool                 -- in an on-phase
  hitEnd : Option Nat
  shift : Nat
  anchor : Nat
  duty : Nat                   -- D of the present period (R335)
  pulses : List Nat            -- ends of pulses in progress
  cnt : BitVec 32
  fStart : Option Nat
  fK : Nat
  fper : BitVec 40
  fedg : Word
  lstate : BitVec 2
  lcnt : BitVec 32
  lstamp : Nat
  curMa : Nat
  sqSum : Nat                  -- sum and number of I² measured in this PWM period, mA², and the last period's mean
  sqN : Nat
  msq : Nat
  wbTurn : Bool                -- the diagnostic comparator holds the wire-break threshold (R318)
  safe : Bool
  safeAt : Nat                 -- timebase when the safe state was applied (R392)
  holdEnd : Option Nat
  owner : Owner
  code : Word                  -- output code in force
  band : BitVec 3
  aOpen : Bool
  aShort : Bool
  compl : Bool
  hrLim : Bool
  imon : BitVec 12
  vpin : BitVec 8
  lastConv : Option Nat
  trims : Vector (BitVec 16 × Word) 6
deriving DecidableEq, Repr

/-- A conversion due at a field die (R279 to R281). -/
structure Trig where
  l : Lidx
  stamp : Nat
  src : BitVec 3
deriving DecidableEq, Repr

/-- One field die (R30). -/
structure Field where
  powered : Bool
  supply : Supply
  vfg : BitVec 8
  linked : Bool                -- the downstream link is locked
  silentSince : Nat
  parked : Bool
  wdTime : Nat                 -- µs
  wdArmed : Bool               -- the watchdog runs: it has not expired since the last good frame
  lastGood : Nat
  wdExp : Bool                 -- expired before the last bring-up
  wasParked : Bool
  ranged : Bool                -- ranging and sync load done since the last loss (R199)
  lock : Bool
  inRun : Nat                  -- frames within 1 ns
  outRun : Nat                 -- frames beyond 6 ns
  phase : Int
  badRun : Nat
  lastDown : Option Nat
  badDown : List Nat           -- discarded downstream frames of the last eight
  nextUp : Nat                 -- timebase value of the next frame start
  seqUp : Nat
  slices : Vector Slice 8
  slots : List SchedMsg        -- held actions and running pulses, in slot order of arrival
  cfg : Sparse                 -- configuration received, by register address; unlisted: 0
  staged : List (List (Nat × Word) × Nat)  -- configuration stamped for a common instant (R173)
  trigs : List Trig
  samples : List Sample
  edges : List Edge
  reports : List Report
  rot : Lidx
  sentUp : List UpFrame        -- frames not known to be good (R580)
  again : List UpFrame         -- discarded frames whose items the next frame carries
  guard : Nat                  -- steps above 8 A (R326)
  target : BitVec 8
  drive : BitVec 12
  driven : Bool
  hrErr : Bool
  atMax : Bool
  tempArmed : Bool             -- the die has cooled below 140 °C since the last event (R412)
deriving DecidableEq, Repr

/-- A host start waiting in the governor (R405, R406). -/
structure Start where
  n : Chan
  op : HostOp
  since : Nat
  counted : BitVec 2           -- counted as deferred, as staggered
deriving DecidableEq, Repr

/-- The governor (13_power_thermal_governor). Powers in mW, temperatures in 0.25 °C. -/
structure Gov where
  samples : List Int
  tc : Int
  budget : Nat
  overAt : Option Nat         -- since when the estimate exceeds the budget (R411)
  overNext : Nat
  tcHigh : Bool
  sensorFail : Bool
  lastRaw : Int
  changedAt : Nat
  plausibleAt : Option Nat
  waiting : List Start
  lastRel : Vector (Option Nat) 6
  win : List (Nat × Nat)       -- ends of the inrush windows of released starts (R405)
  cntDef : BitVec 10
  cntStag : BitVec 10
  cntDrop : BitVec 10
  cntOver : BitVec 10
  reported : BitVec 6          -- groups with a report since BOOT (R403)
deriving DecidableEq, Repr

/-- A pending arming (R366) and a running capture (R368). -/
structure CalArm where
  who : Deferred
  n : Chan
  set : Fin 6
  ref : Word
  store : Bool
  since : Nat
deriving DecidableEq, Repr

structure Capture where
  span : Bool
  next : Nat                   -- stamp of the next conversion
  tried : Nat
  made : Nat
  sum : Int
  beyond : Bool
deriving DecidableEq, Repr

/-- User trims: (6·n + set, ZERO, GAIN), keys rising, no neutral set listed (R362). -/
abbrev Trims := List (Nat × BitVec 16 × Word)

/-- One copy of the calibration store (R369). -/
structure CalCopy where
  trims : Trims
  auth : Sparse
  seq : Word
  good : Bool
deriving DecidableEq, Repr

/-- Calibration (R362 to R370). -/
structure Cal where
  trims : Trims
  arm : Option CalArm
  cap : Option Capture
  storing : Option Nat         -- start of the store operation in progress
  again : Bool                 -- a further operation is asked for
  want : BitVec 48             -- channels whose requests the operation in progress covers (CALSTAT.STORING)
  wantNext : BitVec 48         -- and those that the further operation will cover
  copies : Vector CalCopy 2
  cur : Bool
  nominal : Bool
deriving DecidableEq, Repr

/-- Counts of one protected memory (R481). -/
structure MiCnt where
  corr : BitVec 9
  uncorr : BitVec 9
  lcorV : Bool
  lbadV : Bool
  lcor : Word
  lbad : Word
deriving DecidableEq, Repr

/-- Memory integrity (16_memory_integrity). -/
structure Mi where
  cnt : Vector MiCnt 16
  pass : Word
  scrub : Nat
  testSel : BitVec 16
  test : Option (Nat × BitVec 16)    -- a MAINTENANCE test: its start and its memories
  testRes : BitVec 2
  testMem : BitVec 4
  flip : BitVec 17
  fMem : BitVec 4
  fHalf : Bool
  fArmed : Bool
  fDone : Bool
  fAddr : Word
  lineCrc : List (Nat × BitVec 16)   -- by 384·bank + line (R474); unlisted 0
deriving DecidableEq, Repr

/-- An owner slot of the cellar (R482). -/
structure OwnerSlot where
  hash : Option Nat
  revoked : Bool
deriving DecidableEq, Repr

/-- The cellar (R482). -/
structure Cellar where
  priv : Nat
  pubX : Nat
  pubY : Nat
  serial : BitVec 40
  cert : List Word
  slots : Vector OwnerSlot 4
  cells : BitVec 64
  factoryOk : Bool
deriving DecidableEq, Repr

/-- One firmware region (R487). -/
structure FwBank where
  version : Word
  rollback : Nat
  hash : Nat
  sigR : Nat
  sigS : Nat
  commitSeq : Option Word
  crcOk : Bool
  image : List Word
deriving DecidableEq, Repr

/-- One configuration region (R506). -/
structure ConfCopy where
  image : List Word
  key : Option (Nat × Nat)
  bundle : List Word
  seq : Option Word
  good : Bool
deriving DecidableEq, Repr

/-- A seal bundle in effect or pending (R495). -/
structure Bundle where
  seq : Word
  pairs : List (Nat × Word)
  digests : List Nat
  permit : Word
  raw : List Word
deriving DecidableEq, Repr

/-- Phases of an update session (R508, R503 to R505). -/
inductive SessPhase where
  | erasing | opened | committing
deriving DecidableEq, Repr

structure Session where
  phase : SessPhase
  conf : Bool                  -- TARGET 1
  port : Port
  version : Word
  length : Nat
  rollback : Nat
  hash : Nat
  data : List Word
  sig : Nat × Nat
  cmd : Deferred
deriving DecidableEq, Repr

/-- Deferred jobs of the security engine and of the store (R485, R497, R499, R491, R493). -/
inductive SecJob where
  | attest (d : Deferred) (payload : List Word) (snap : List Word)
  | sealing (d : Deferred) (b : Bundle) (store : Bool)
  | enroll (d : Deferred) (x y : Nat) (slot : BitVec 2) (fresh : Bool)
  | release (d : Deferred) (slot : BitVec 2)
deriving DecidableEq, Repr

/-- Security and the NV store (17_security). -/
structure Sec where
  cellar : Cellar
  banks : Vector FwBank 2
  confs : Vector ConfCopy 2
  cellarOk : Bool
  bundle : Option Bundle
  pending : Option Bundle
  sess : Option Session
  jobs : List SecJob
  rebootDue : Option (Port × BitVec 7 × Nat)  -- COMMIT reply whose fetch starts the reboot (R505)
  refused : BitVec 10
  attests : BitVec 10
  cfgSeq : Word                -- COMMIT_SEQ of the running bank
deriving DecidableEq, Repr

/-- Cask states (R521). -/
inductive CaskState where
  | idle | recording | freezing | replaying
deriving DecidableEq, Repr

/-- A RACK command in progress (R526, R527). -/
structure RackJob where
  cmd : Deferred
  staged : Bool
  pages : List Word            -- every rack page of the command, in payload order
  slots : List Nat             -- slots whose pages are being written or are written, in order
  nDone : Nat                  -- units done
  wait : Nat                   -- requests of this command not yet ended
  ended : Bool                 -- every unit is done, or one has failed: RACK_COMPLETE follows
  fail : Option (BitVec 8 × Word)
deriving DecidableEq, Repr

/-- A replay (R530 to R533). -/
structure Replay where
  cmd : Deferred
  pages : Bool                 -- SRC = 1
  strict : Bool
  first : Nat
  count : Nat
  earliest : Nat               -- timebase value 10 ms after START was taken up
  began : Bool
  seg : Nat                    -- segments whose records have all acted
  words : List Word            -- the present segment
  pos : Nat                    -- its next record
  hi : Nat                     -- H (R516)
  result : Option (BitVec 3)   -- why the replay is to end
  matched : BitVec 4
  cfgHash : List Word          -- of the checkpoint
  prevHash : List Word         -- hash of the present segment
  recState : BitVec 4          -- recorded device state
  shadowSegs : Nat
  lastEnd : Nat                -- timebase value at which the last record acted
  asked : Nat                  -- segments asked for
  source : List (List Word)    -- segments read ahead from rack pages
  failed : Bool                -- a source read failed
deriving DecidableEq, Repr

/-- The cask recorder (18_recording_replay). -/
structure Cask where
  st : CaskState
  slot : Nat
  opened : Bool                -- a segment is open
  closed : List Nat            -- closed slots not yet racked, oldest first
  seg : Nat
  sess : Word                  -- session of the open segment
  used : Nat
  base : Nat
  hi : Nat
  shadow : Bool
  paused : Bool
  freeze : Option Nat          -- further segments of a FREEZE
  ending : Option (BitVec 3)   -- CLOSE code of the session's last data segment
  reply : List Deferred        -- STOP and FREEZE whose replies wait (R521)
  toHash : List (Nat × Nat)    -- closed slots and their segment numbers to be hashed
  prevHash : List Word
  toSign : List (Nat × List Word)
  held : List (List Word)      -- payloads of ANCHOR records signed while no segment is open
  lossAdc : BitVec 10
  lossDi : BitVec 10
  lossOther : BitVec 10
  overwrite : BitVec 10
  since : Nat × Nat × Nat      -- dropped since the last LOSS record
  buf : Nat                    -- words in the input buffer at bufAt (R513)
  bufAt : Nat
  dec : Vector Nat 6           -- stamps since the last kept one; 0 = keep the next (R511)
  rnext : Word
  autoStop : Bool
  tries : Nat                  -- attempts at the present automatic page
  autoSlot : Option Nat        -- slot that automatic racking is writing
  rack : List RackJob
  cfgHash : List Word          -- configuration hash recorded last
  replay : Option Replay
  rpRes : BitVec 3
  rpMatch : BitVec 4
  rpTrunc : Bool
  rpOfs : Stamp
deriving DecidableEq, Repr

/-- Users of the memory master port, in order of service (R547). -/
inductive MmpUser where
  | refetch | replay | rack | host | overlay
deriving DecidableEq, Repr

/-- What a memory master port request is to do (R546, R550). -/
structure MmpReq where
  user : MmpUser
  win : Fin 4
  write : Bool
  word : Nat                   -- first word address in the window
  data : List (BitVec 8)       -- bytes to write, or read so far
  len : Nat                    -- bytes in all
  done : Nat                   -- bytes complete
  step : BitVec 2              -- of a chunk: 0 not begun, 1 program, 2 polling, 3 read-back; a read stays in 0
  polls : Nat                  -- tick from which polling counts; in step 3 the bytes read back
  failed : Option (BitVec 3)   -- kind of the error that stopped it
  reply : Option Deferred      -- the RACK that waits for it
deriving DecidableEq, Repr

/-- The memory master port (19_memory_master_port). -/
structure Mmp where
  reqs : List MmpReq
  bus : Option (MmpUser × Nat) -- a transaction is on the bus: for whom, and since when
  lastEnd : Nat
  lastKind : BitVec 3
  err0 : Word
  err1 : Word
  err2 : Word
  errors : BitVec 10
  pollTo : BitVec 10
deriving DecidableEq, Repr

/-- The armed or running injection (R560). -/
structure InjArm where
  dom : BitVec 4
  cause : BitVec 5
  unit : BitVec 6
  arg : Word
  left : Nat                   -- stimuli still to be given
  since : Nat                  -- timebase value at which it was armed
  until_ : Option Nat
deriving DecidableEq, Repr

/-- Fault injection (20_fault_injection). -/
structure Inj where
  armed : Option InjArm
  done : Bool
  last : BitVec 2
  num : BitVec 10
  runCnt : BitVec 4
  point : Word
  arg : Word
  lseq : Word
deriving DecidableEq, Repr

/-- One run of host data addresses (R552, R553): in a read, where its first word stands in the reply; in a write, the
register address of its first pair. -/
structure RegRun where
  ref : Nat
  win : Fin 4
  word : Nat                   -- word address in the window
  data : List Word             -- words to write, or as many zeros as are read
deriving DecidableEq, Repr

/-- A REG_READ or REG_WRITE that waits for the memory master port (R552, R553). -/
structure RegJob where
  cmd : Option Deferred        -- the packet to answer; none for a single access by a register row
  port : Port
  write : Bool
  staged : Bool
  words : List Word            -- reply words of a read
  runs : List RegRun           -- the first is in flight
  pairs : List (Word × Word)   -- units not yet attempted
  done : Nat
  bad : Bool                   -- a protected memory lost a word of the reply (R473)
deriving DecidableEq, Repr

/-- The units of a GROUP_CMD in progress (R398). -/
structure GroupJob where
  cmd : Deferred
  items : List (Grp × BitVec 2)   -- still to be executed, in payload order
  staged : Bool
  waiting : BitVec 6              -- groups whose acknowledgement is awaited
  done : List Grp
  fail : Option (BitVec 8 × Grp)  -- of the lowest group that failed
deriving DecidableEq, Repr

/-- A staged CHAN_CONFIG whose common instant has not come (R173, R174). -/
structure CfgJob where
  cmd : Deferred
  at_ : Nat                       -- the common instant, a timebase value
  units : List (Chan × List (Nat × Word) × Word × Word)  -- new register values, words of DCTL and ACTL
  lost : BitVec 6                 -- groups whose link was not UP, or was lost meanwhile
deriving DecidableEq, Repr

/-- The state of the block. `pending` is the queue of commands; `free` counts the free values drawn. -/
structure State where
  pending : List Instr
  now : Nat
  free : Nat
  pw : Power
  aon : Aon
  ports : Vector PortSt 2
  deferred : List Deferred
  turn : Option Port           -- port whose command the interpreter took up last (R153)
  grpJob : Option GroupJob
  regJob : Option RegJob
  cfgJob : Option CfgJob
  cfg : Sparse
  nv : Sparse                  -- NV values in force, over the factory values (R17, R579)
  taps : Vector Tap 32
  irq : Irq
  flt : Faults
  wd : Wdog
  trk : Tracker
  seq : Seq
  mems : Vector Mem 16
  smp : Smp
  mirrors : Vector Mirror 48
  links : Vector Link 6
  fields : Vector Field 6
  gov : Gov
  cal : Cal
  mi : Mi
  sec : Sec
  cask : Cask
  mmp : Mmp
  inj : Inj
deriving DecidableEq, Repr

/-- Who raises it: nobody. Every command of this block reaches a next state (R168: a refused command is answered with a
status, a detector reports to the collector), so no meaning stops. Safe. -/
inductive Fault where
  | unreachable
deriving DecidableEq, Repr

/-- `notModelled`: raised by the dispatch of a command that has no meaning yet, with its mnemonic. Safe. -/
inductive Refusal where
  | notModelled (mnemonic : String)
deriving DecidableEq, Repr

/-! ### Reset values -/

def FatalRec.reset : FatalRec :=
  { domain := 0, cause := 0, unit := 0, escalated := false, overrun := false, acked := false, priorCause := 0,
    priorUnit := 0, state := 0, stamp := 0, angle := 0 }

/-- The always-on domain after a power-on: everything cleared, POR set (R81, R106). -/
def Aon.reset : Aon :=
  { resetCause := 1, wakeCause := 0, frec := .reset, fatalHeld := false, fatalCnt := 0, caskSess := 0, updLast := 0,
    updFlag := false, updRebooted := false, stbyUnit := false, stbyCount := 0, stbyFrom := 0, inj75 := none,
    inj76 := false }

def Boot.reset : Boot :=
  { phase := .waiting, t0 := 0, noImage := false, secFail := 0, fromStandby := false, nvFault := false }

def Power.reset : Power :=
  { dev := .boot, prev := .boot, vsupGood := true, vioGood := true, resetLowUntil := 0, safePin := false,
    stbyLow := false, stbyRemembered := false, resetSeq := none, boot := .reset, stby := .none, latched := 0,
    bank := false, fallback := false, patternFail := false, calFallback := false, bootMs := 0, nvDefault := false,
    lastBringUp := none, tb0 := none, leaveRun := [] }

def PortSt.reset : PortSt :=
  { daisy := false, vintage := 0, awake := true, wakeLvl := false, selected := false, ignoring := false,
    gotPacket := false, rx := .header, cmdBuf := [], replyQ := [], waiting := [], tags := 0, tx := [], frag := 0,
    tail := 0, hdrBad := 0, aborted := 0, overrun := 0, discard := 0, accepted := 0, lenRej := 0, crcRej := 0,
    lastFrame := 0, timedOut := false, refused := false, outImage := 0, fresh := true, inImage := 0, dcfg := 0,
    dmap := 0, lastAccept := 0, timerOff := true, lastCs := 0, panWin := 0, mmpHacc := 0, mmpHaddr := 0,
    latch := [], stage := [] }

def Tap.reset : Tap := { holder := none, lastRel := 0, since := 0 }

def Irq.reset : Irq :=
  { pend := 0, actA := 0, actB := 0, released := 0, rr := .a, mods := Vector.replicate 16 { count := 0, timer := none },
    bellAB := 0, bellBA := 0 }

def Faults.reset : Faults :=
  { held := Vector.replicate 12 none, cnt := [], log := [], seq := 0, heartbeat := none }

def Wdog.reset : Wdog :=
  { running := false, owner := none, pre := 0, clk := false, close := 0, timeout := 2, warn := 0, warned := false, autostart := false,
    clkNow := false, failedA := false, failedB := false, failover := false, monLost := false, last := 0, zero := 0,
    base := 0, frozen := 0, token := 0, early := 0, wrong := 0, foreign := 0, mon := 0 }

def Tracker.reset : Tracker :=
  { st := .stopped, rev := false, predOk := false, camFail := false, phaseHost := false, learned := false,
    posHeld := false, spdOor := false, spdHigh := false, cause := 0, tooth := 0, cycRev := false, holdCnt := 0, cyc := 0, uCyc := 0, tk := 0,
    uk := 0, pace := 0, slope := 0, row := 3, rowCnt := 0, edges := 0, shown := 0, prevTk := 0, prevUk := 0,
    prevOk := false, gapI := 0, gapPrev := 0, lastA := none, zPend := false, bLevel := false,
    bOld := false, bStamp := 0, camLast := none, camRevs := 0, camHist := [], rev0 := false, extraRev := 0, gapPos := [],
    gapPosOld := [], lowHold := false, unverified := false, learnCnt := [], queue := [], missed := 0, extra := 0,
    losses := 0, indexErr := 0, camErr := 0, dirChg := 0 }

def Bank.reset : Bank :=
  { st := .unarmed, loaded := false, valid := false, lineChk := false, reason := 0, failEntry := 0, check := 0,
    order := 0, armedAt := 0, stopPend := false, worst := 0, period0 := 0,
    targets := 0 }

def Seq.reset : Seq :=
  { banks := Vector.replicate 2 .reset, arms := 0, next := 0, left := 0, walking := false, walkCyc := 0, decided := none, wait := 0,
    acts := [], nextId := 0, marks := Vector.replicate 8 0, late := 0, skew := 0, dropped := 0,
    deferred := 0, withdraw := 0, skMax := 0, refetch := none }

def Sample.reset : Sample := { l := 0, word := 0, flags := 0, unlocked := false, src := 0, stamp := 0 }

def Pan.reset : Pan :=
  { st := .idle, latest := false, tOpen := 0, tClose := none, mask := 0, src := 0, decim := 0, origin := 0,
    replay := false, timeBank := false, byTrellis := false, run := 0, sums := [], blocks := 0, part := [], lastN := 0,
    wrapped := false, unlocked := false, sets := 0, gaps := 0 }

def Smp.reset : Smp :=
  { cmdT := 0, busy := Vector.replicate 6 0, lost := Vector.replicate 6 0, last := Vector.replicate 48 .reset,
    pans := Vector.replicate 96 .reset, evs := [], skipped := Vector.replicate 6 0,
    overwritten := Vector.replicate 6 0, expect := [] }

def ChanRep.reset : ChanRep :=
  { dstat := 0, cnt := 0, fper := 0, fedg := 0, lstate := 0, lcnt := 0, lstamp := 0, astat := 0, aocode := 0,
    amon := 0, curMa := 0, inrush := false, safeActive := false, safeHolding := false, msq := 0, vpin := 0, mode := 0,
    loop := false }

def Mirror.reset : Mirror := { rep := .reset, evt := 0, aevt := 0 }

/-- A link after a logic-die reset: DOWN with no cause (R381), VMIN 0xFF (R400). -/
def Link.reset : Link :=
  { st := .down, cause := 0, wdExp := false, parked := false, supply := .good, vintage := 0, vfg := 0, vmin := 0xFF,
    dnCrc := 0, upCrc := 0, resent := 0, losses := 0, evt := 0, tbLock := false, stepped := false, tbErr := 0,
    rangingAt := 0, beacon := none, beaconLast := 0, wantUp := false, bringUps := 0, safeLeft := 0,
    safeFrom := none, withdraw := none, nextDown := 0, seqDown := 0, lastUp := none, badUp := [], badRun := 0,
    lastGoodUp := 0, sched := [], conf := [], slots := 0, sent := [], down := [], up := [], hrStat := 0,
    hrDrv := 0 }

def Slice.reset : Slice :=
  { cmd := false, out := false, inp := false, comp := false, retry := .normal, r := 0, pauseEnd := none, therm := false,
    limiting := false, inrushEnd := none, offSince := 0, onSince := 0, opened := false, openedOn := false, shorted := false,
    swFail := false, noFreq := false, pwm := false, pwmOn := false, hitEnd := none, shift := 0, anchor := 0, duty := 0,
    pulses := [], cnt := 0, fStart := none, fK := 0, fper := 0, fedg := 0, lstate := 0, lcnt := 0, lstamp := 0,
    curMa := 0, sqSum := 0, sqN := 0, msq := 0, wbTurn := true, safe := false, safeAt := 0, holdEnd := none, owner := .none, code := 0, band := 0, aOpen := false,
    aShort := false, compl := false, hrLim := false, imon := 0, vpin := 0, lastConv := none,
    trims := Vector.replicate 6 (0, 0) }

/-- A field die that has just powered up: channels OFF (R397), watchdog 1 ms (R388), link not locked (R382). -/
def Field.reset : Field :=
  { powered := true, supply := .good, vfg := 120, linked := false, silentSince := 0, parked := false, wdTime := 1000,
    wdArmed := true, lastGood := 0, wdExp := false, wasParked := false, ranged := false, lock := false, inRun := 0,
    outRun := 0, phase := 0, badRun := 0, lastDown := none, badDown := [], nextUp := 0, seqUp := 0,
    slices := Vector.replicate 8 .reset, slots := [], cfg := [], staged := [], trigs := [], samples := [], edges := [],
    reports := [], rot := 0, sentUp := [], again := [], guard := 0, target := 0, drive := 0,
    driven := false, hrErr := false, atMax := false, tempArmed := true }

/-- The governor before its first sample; the budget register reads 0 (R413). -/
def Gov.reset : Gov :=
  { samples := [], tc := 0, budget := 0, overAt := none, overNext := 0, tcHigh := false,
    sensorFail := false, lastRaw := 0, changedAt := 0, plausibleAt := none, waiting := [],
    lastRel := Vector.replicate 6 none, win := [], cntDef := 0, cntStag := 0, cntDrop := 0, cntOver := 0,
    reported := 0 }

def CalCopy.reset : CalCopy := { trims := [], auth := [], seq := 1, good := true }

def Cal.reset : Cal :=
  { trims := [], arm := none, cap := none, storing := none, again := false, want := 0, wantNext := 0,
    copies := Vector.replicate 2 .reset, cur := false, nominal := false }

def MiCnt.reset : MiCnt := { corr := 0, uncorr := 0, lcorV := false, lbadV := false, lcor := 0, lbad := 0 }

def Mi.reset : Mi :=
  { cnt := Vector.replicate 16 .reset, pass := 0, scrub := 0, testSel := 0, test := none, testRes := 0, testMem := 0,
    flip := 0, fMem := 0, fHalf := false, fArmed := false, fDone := false, fAddr := 0, lineCrc := [] }

/-- 256-bit values as 13 words, most significant first (R484). -/
def word256 (x : Nat) : List Word := (List.range 13).map fun i => BitVec.ofNat 20 (x >>> (20 * (12 - i)))

def Cellar.reset : Cellar :=
  { priv := Config.devPriv, pubX := Config.devX, pubY := Config.devY, serial := Config.serial,
    cert := [1#20, Config.serial.extractLsb' 20 20, Config.serial.extractLsb' 0 20, 0x04860#20]
      ++ word256 Config.devX ++ word256 Config.devY ++ word256 Config.certR ++ word256 Config.certS,
    slots := Vector.replicate 4 { hash := none, revoked := false }, cells := 0, factoryOk := true }

def FwBank.factory : FwBank :=
  { version := Config.fwVersion, rollback := 0, hash := Config.fwHash, sigR := Config.fwSigR, sigS := Config.fwSigS,
    commitSeq := some 1, crcOk := true, image := Config.fwImage }

def FwBank.blank : FwBank :=
  { version := 0, rollback := 0, hash := 0, sigR := 0, sigS := 0, commitSeq := none, crcOk := false, image := [] }

def Sec.reset : Sec :=
  { cellar := .reset, banks := #v[.factory, .blank],
    confs := #v[{ image := [], key := none, bundle := [], seq := some 1, good := true },
      { image := [], key := none, bundle := [], seq := none, good := false }],
    cellarOk := false, bundle := none, pending := none, sess := none, jobs := [], rebootDue := none,
    refused := 0, attests := 0, cfgSeq := 0 }

def Cask.reset : Cask :=
  { st := .idle, slot := 0, opened := false, closed := [], seg := 0, sess := 0, used := 0, base := 0, hi := 0,
    shadow := false, paused := false, freeze := none, ending := none, reply := [], toHash := [], prevHash := [],
    toSign := [], held := [], lossAdc := 0, lossDi := 0, lossOther := 0, overwrite := 0, since := (0, 0, 0), buf := 0, bufAt := 0,
    dec := Vector.replicate 6 0, rnext := 0, autoStop := false, tries := 0, autoSlot := none, rack := [],
    cfgHash := [], replay := none, rpRes := 0, rpMatch := 0, rpTrunc := false, rpOfs := 0 }

def Mmp.reset : Mmp :=
  { reqs := [], bus := none, lastEnd := 0, lastKind := 0, err0 := 0, err1 := 0, err2 := 0, errors := 0, pollTo := 0 }

def Inj.reset : Inj :=
  { armed := none, done := false, last := 0, num := 0, runCnt := 0, point := 0, arg := 0, lseq := 0 }

/-- The block right after a power-on reset of the logic die: the device state is BOOT (R104), RESET_CAUSE holds POR alone
(R106), and BOOT has not begun (BOOT_BEGIN comes next, R87). The groups are powered and their channels OFF (R397). Values
the spec does not state: log entries 5 to 8. -/
def State.reset : State :=
  { pending := [], now := 0, free := 0, pw := .reset, aon := .reset, ports := Vector.replicate 2 .reset, deferred := [],
    turn := none, grpJob := none, regJob := none, cfgJob := none, cfg := [], nv := [], taps := Vector.replicate 32 .reset, irq := .reset, flt := .reset, wd := .reset,
    trk := .reset, seq := .reset, mems := Vector.replicate 16 [], smp := .reset, mirrors := Vector.replicate 48 .reset,
    links := Vector.replicate 6 .reset, fields := Vector.replicate 6 .reset, gov := .reset, cal := .reset, mi := .reset,
    sec := .reset, cask := .reset, mmp := .reset, inj := .reset }

end Sys2Proof.Machine
end

