-- ==== Sys2Proof/Machine/Ops.lean ====
section
/-! DEFINITION. Named operations over the state: time, ports, links, field dies, configuration registers, identifiers of
states. -/

namespace Sys2Proof.Machine

/-- A step that reaches a next state. -/
abbrev Res := Host.Outcome State Fault Refusal

/-! ### Time -/

/-- Time moves on to tick `t`; it never goes back (log entry 3). -/
def reach (t : Nat) (s : State) : State := { s with now := max s.now t }

/-- The timebase: ticks since the PLL locked, modulo 2^60; 0 before (R194). -/
def tbNow (s : State) : Nat :=
  match s.pw.tb0 with
  | none => 0
  | some t0 => (s.now - t0) % 2 ^ 60

/-- The tick at which the timebase holds `v`. -/
def tickOf (s : State) (v : Nat) : Nat := s.pw.tb0.getD 0 + v

/-- Ticks in one microsecond and in one millisecond (R14). -/
def us : Nat := 250
def ms : Nat := 250000

/-! ### Parts of the state -/

def modPw (f : Power → Power) (s : State) : State := { s with pw := f s.pw }
def modSec (f : Sec → Sec) (s : State) : State := { s with sec := f s.sec }
def modAon (f : Aon → Aon) (s : State) : State := { s with aon := f s.aon }
def modCal (f : Cal → Cal) (s : State) : State := { s with cal := f s.cal }
def modMmp (f : Mmp → Mmp) (s : State) : State := { s with mmp := f s.mmp }
def modGov (f : Gov → Gov) (s : State) : State := { s with gov := f s.gov }
def modInj (f : Inj → Inj) (s : State) : State := { s with inj := f s.inj }
def modMi (f : Mi → Mi) (s : State) : State := { s with mi := f s.mi }
def modFlt (f : Faults → Faults) (s : State) : State := { s with flt := f s.flt }
def modCask (f : Cask → Cask) (s : State) : State := { s with cask := f s.cask }
def modSeq (f : Seq → Seq) (s : State) : State := { s with seq := f s.seq }
def modTrk (f : Tracker → Tracker) (s : State) : State := { s with trk := f s.trk }
def modSmp (f : Smp → Smp) (s : State) : State := { s with smp := f s.smp }
def modWd (f : Wdog → Wdog) (s : State) : State := { s with wd := f s.wd }
def modIrq (f : Irq → Irq) (s : State) : State := { s with irq := f s.irq }
def modMems (f : Vector Mem 16 → Vector Mem 16) (s : State) : State := { s with mems := f s.mems }
def modPorts (f : PortSt → PortSt) (s : State) : State := { s with ports := s.ports.map f }
def modLinks (f : Link → Link) (s : State) : State := { s with links := s.links.map f }
def modTaps (f : Tap → Tap) (s : State) : State := { s with taps := s.taps.map f }
def modTap (k : Fin 32) (f : Tap → Tap) (s : State) : State := { s with taps := vmod s.taps k f }
def modDeferred (f : List Deferred → List Deferred) (s : State) : State := { s with deferred := f s.deferred }
def setTurn (p : Option Port) (s : State) : State := { s with turn := p }
def setGrpJob (j : Option GroupJob) (s : State) : State := { s with grpJob := j }
def modGrpJob (f : GroupJob → GroupJob) (s : State) : State := { s with grpJob := s.grpJob.map f }
def setRegJob (j : Option RegJob) (s : State) : State := { s with regJob := j }
def setCfgJob (j : Option CfgJob) (s : State) : State := { s with cfgJob := j }
def setCfgList (l : Sparse) (s : State) : State := { s with cfg := l }
def setNvList (l : Sparse) (s : State) : State := { s with nv := l }
/-- The next free value is drawn. -/
def nextFree (s : State) : State := { s with free := s.free + 1 }
def prt (s : State) (p : Port) : PortSt := s.ports[pidx p]
def modPort (p : Port) (f : PortSt → PortSt) (s : State) : State := { s with ports := vmod s.ports (pidx p) f }
def lnk (s : State) (g : Grp) : Link := s.links[g]
def modLink (g : Grp) (f : Link → Link) (s : State) : State := { s with links := vmod s.links g f }
def fdie (s : State) (g : Grp) : Field := s.fields[g]
def modField (g : Grp) (f : Field → Field) (s : State) : State := { s with fields := vmod s.fields g f }
def slc (s : State) (n : Chan) : Slice := (fdie s (chanGrp n)).slices[chanLidx n]
def modSlice (n : Chan) (f : Slice → Slice) (s : State) : State :=
  modField (chanGrp n) (fun d => { d with slices := vmod d.slices (chanLidx n) f }) s
def mir (s : State) (n : Chan) : Mirror := s.mirrors[n]
def modMir (n : Chan) (f : Mirror → Mirror) (s : State) : State := { s with mirrors := vmod s.mirrors n f }
def bnk (s : State) (b : Fin 2) : Bank := s.seq.banks[b]
def modBank (b : Fin 2) (f : Bank → Bank) (s : State) : State :=
  { s with seq := { s.seq with banks := vmod s.seq.banks b f } }
def pan (s : State) (g : Grp) (p : Fin 16) : Pan := s.smp.pans[(⟨16 * g.val + p.val, by omega⟩ : Fin 96)]
def modPan (g : Grp) (p : Fin 16) (f : Pan → Pan) (s : State) : State :=
  { s with smp := { s.smp with pans := vmod s.smp.pans ⟨16 * g.val + p.val, by omega⟩ f } }

/-- A free value, and the state with the next one ready (log entry 28). -/
def drawWord (s : State) : Word × State := (Config.freeWord s.free, nextFree s)

/-! ### Configuration registers -/

/-- The word in force in a configuration register. -/
def cfgGet (s : State) (r : Reg) : Word := lookupD (BitVec.ofNat 20 r.factory) r.addr s.cfg

/-- Put a word into a configuration register; the list stays canonical. -/
def cfgSet (r : Reg) (w : Word) (s : State) : State :=
  { s with cfg := insertKey r.addr w (w != BitVec.ofNat 20 r.factory) s.cfg }

/-- A field of a configuration register. -/
def cfgFld (s : State) (r : Reg) (lo len : Nat) : Nat := fld (cfgGet s r) lo len
def cfgBit (s : State) (r : Reg) (i : Nat) : Bool := bit (cfgGet s r) i

/-! ### Device states -/

/-- Device state codes (R105); OFF has none. -/
def devCode : DevState → Nat
  | .off => 0 | .boot => 1 | .config => 2 | .run => 3 | .maint => 4 | .safe => 5 | .lockdown => 6 | .standby => 7

/-- The logic die works: it has ended BOOT and is neither in STANDBY nor without supply. -/
def isLive (s : State) : Bool :=
  match s.pw.dev with
  | .config | .run | .maint | .safe | .lockdown => true
  | _ => false

def isState (s : State) (l : List DevState) : Bool := l.contains s.pw.dev

/-- CONFIG or MAINTENANCE: where most configuration is written. -/
def inConfMaint (s : State) : Bool := isState s [.config, .maint]

/-- The seal is enabled while an unrevoked owner slot holds a hash (R490). -/
def curSlot (s : State) : Option (Fin 4) :=
  ([0, 1, 2, 3] : List (Fin 4)).find? fun k => s.sec.cellar.slots[k].hash.isSome && !s.sec.cellar.slots[k].revoked
def isOwned (s : State) : Bool := (curSlot s).isSome

/-- The permit word in force (R559). -/
def permitWord (s : State) : Word :=
  match s.sec.bundle with
  | some b => if isOwned s then b.permit else 0
  | none => 0

/-! ### Replies and packet bits shared by every family -/

/-- Fold a state change over a list. -/
def foldSt {α : Type} (l : List α) (f : α → State → State) (s : State) : State := l.foldl (fun s a => f a s) s

/-- Do `f` when `b` holds. -/
def whenSt (b : Bool) (f : State → State) (s : State) : State := if b then f s else s

end Sys2Proof.Machine
end

