-- ==== Sys2Proof/Machine/Irq.lean ====
section
/-! DEFINITION. The interrupt controller (14_interrupts): raising, moderators, delivery, withdrawal, sleep and wake. -/

namespace Sys2Proof.Machine

def intPrio (s : State) (n : Fin 96) : Nat := cfgFld s (.intCfg n) 0 4
def intRoute (s : State) (n : Fin 96) : Nat := cfgFld s (.intCfg n) 4 2
def intMod (s : State) (n : Fin 96) : Nat := cfgFld s (.intCfg n) 6 5
def intEn (s : State) (n : Fin 96) : Bool := cfgBit s (.ien ⟨n.val / 20, by omega⟩) (n.val % 20)
def portPrio (s : State) (p : Port) : Nat := cfgFld s (.portPrio p) 0 4

/-- A port is awake while it runs in packet mode and AWAKE is 1 (R417). -/
def portAwake (s : State) (p : Port) : Bool := !(prt s p).daisy && (prt s p).awake

def isPend (s : State) (n : Fin 96) : Bool := bit s.irq.pend n.val
def isActive (s : State) (p : Port) (n : Fin 96) : Bool :=
  match p with
  | .a => bit s.irq.actA n.val
  | .b => bit s.irq.actB n.val

def setPend (n : Fin 96) (b : Bool) (s : State) : State := modIrq (fun x => { x with pend := setBit x.pend n.val b }) s
def setReleased (n : Fin 96) (b : Bool) (s : State) : State :=
  modIrq (fun x => { x with released := setBit x.released n.val b }) s
def setActive (p : Port) (n : Fin 96) (b : Bool) (s : State) : State :=
  match p with
  | .a => modIrq (fun x => { x with actA := setBit x.actA n.val b }) s
  | .b => modIrq (fun x => { x with actB := setBit x.actB n.val b }) s

/-- Released: direct, or released by its moderator (R417, R422). -/
def isReleased (s : State) (n : Fin 96) : Bool := intMod s n == 0 || bit s.irq.released n.val

/-- Ports a route names, whatever their sleep and priority (R418, R423). -/
def routePorts (route : Nat) : List Port :=
  match route with
  | 0 => [.a]
  | 1 => [.b]
  | _ => [.a, .b]

/-- Eligible under R419: awake, and for LOWEST below the source's priority. -/
def eligible (s : State) (n : Fin 96) (p : Port) : Bool :=
  portAwake s p && (routePorts (intRoute s n)).contains p && (intRoute s n != 3 || portPrio s p < intPrio s n)

/-- Target ports of a delivery (R418), and whether the round-robin pointer decided it. -/
def targets (s : State) (n : Fin 96) : List Port × Bool :=
  let l := ports.filter (eligible s n)
  if intRoute s n = 3 then
    match l with
    | [p, q] =>
      if portPrio s p < portPrio s q then ([p], false)
      else if portPrio s q < portPrio s p then ([q], false)
      else ([s.irq.rr], true)
    | l => (l, false)
  else (l, false)

/-- PENDING, enabled, released, and with an eligible port (R417). -/
def deliverable (s : State) (n : Fin 96) : Bool :=
  isPend s n && intEn s n && isReleased s n && !isActive s .a n && !isActive s .b n && ports.any (eligible s n)

/-- One delivery decision. -/
def deliverOne (n : Fin 96) (s : State) : State :=
  if deliverable s n then
    let (ps, rr) := targets s n
    let s := foldSt ps (fun p => setActive p n true) (setReleased n false (setPend n false s))
    if rr then modIrq (fun x => { x with rr := pother x.rr }) s else s
  else s

/-- Insert a source into a list in the order of R420. -/
def insPrio (s : State) (n : Fin 96) : List (Fin 96) → List (Fin 96)
  | [] => [n]
  | m :: l => if intPrio s m < intPrio s n then n :: m :: l else m :: insPrio s n l

/-- Sources of a set in the order of R420: descending priority, then ascending number. -/
def prioOrder (s : State) (l : List (Fin 96)) : List (Fin 96) := l.foldl (fun acc n => insPrio s n acc) []

def sources : List (Fin 96) := List.finRange 96

/-- Every delivery that is possible now (R417 to R420). The controller stands still in BOOT and STANDBY. -/
def deliver (s : State) : State :=
  if isLive s then foldSt (prioOrder s (sources.filter (deliverable s))) deliverOne s else s

/-- Sources assigned to a moderator (R421). -/
def assigned (s : State) (m : Fin 16) : List (Fin 96) := sources.filter fun n => intMod s n == m.val + 1

/-- Held: no port to which an assigned source routes is awake (R423). -/
def modHeld (s : State) (m : Fin 16) : Bool :=
  let l := assigned s m
  !l.isEmpty && !(ports.any fun p => portAwake s p && l.any fun n => (routePorts (intRoute s n)).contains p)

def setModr (m : Fin 16) (x : Moderator) (s : State) : State := modIrq (fun q => { q with mods := q.mods.set m x }) s

/-- A firing releases every assigned PENDING source (R421, R422). -/
def fireMod (m : Fin 16) (s : State) : State :=
  let s := setModr m { count := 0, timer := none } s
  foldSt ((assigned s m).filter (isPend s)) (fun n => setReleased n true) s

/-- Bring a moderator in line with its hold, its timer and its count threshold (R421, R423). -/
def syncMod (m : Fin 16) (s : State) : State :=
  let x := s.irq.mods[m]
  let th := cfgFld s (.modCfg m) 0 10
  if modHeld s m then setModr m { x with timer := none } s
  else if th ≠ 0 ∧ th ≤ x.count.toNat then fireMod m s
  else if x.count ≠ 0 ∧ x.timer = none then setModr m { x with timer := some s.now } s
  else s

def syncMods (s : State) : State := foldSt (List.finRange 16) syncMod s

/-- Ticks of a moderator's time threshold; none when it is not used (R435). -/
def modTime (s : State) (m : Fin 16) : Option Nat :=
  let t := cfgFld s (.modCfg m) 10 8
  if t = 0 then none
  else some (t * (match cfgFld s (.modCfg m) 18 2 with | 0 => us | 1 => 10 * us | 2 => 100 * us | _ => ms))

/-- One raise before delivery: the pending bit, then the moderator's count (R415, R421). -/
def raiseOnly (n : Fin 96) (s : State) : State :=
  let s := setPend n true s
  let md := intMod s n
  if h : 1 ≤ md ∧ md ≤ 16 then
    let m : Fin 16 := ⟨md - 1, by omega⟩
    let x := s.irq.mods[m]
    syncMod m (setModr m { x with count := satInc x.count } s)
  else s

/-- Raise a source (R414, R415). Nothing is raised in BOOT, STANDBY or without supply (R436). -/
def raise (n : Fin 96) (s : State) : State := if isLive s then deliver (raiseOnly n s) else s

/-- The source with a number that a chapter computes. -/
def raiseNat (n : Nat) (s : State) : State := if h : n < 96 then raise ⟨n, h⟩ s else s

/-- End of a port's service of a source; when no port holds it any more and it is pending, it is released at once
(R415, R422). -/
def serviceDone (p : Port) (n : Fin 96) (s : State) : State :=
  if isActive s p n then
    let s := setActive p n false s
    if isPend s n && !isActive s (pother p) n then setReleased n true s else s
  else s

/-- A source withdrawn from every port is presented to the awake ports of `l` that do not hold it; held by none, it
returns to PENDING (R425, R427). -/
def present (l : List Port) (n : Fin 96) (s : State) : State :=
  let s := foldSt (l.filter fun p => !isActive s p n) (fun p => setActive p n true) s
  if isActive s .a n || isActive s .b n then s else setReleased n true (setPend n true s)

/-- PORT_SLEEP in the controller (R427). -/
def sleepPort (p : Port) (s : State) : State :=
  let mine := sources.filter (isActive s p)
  let s := modPort p (fun x => { x with awake := false }) s
  let s := foldSt mine (fun n => setActive p n false) s
  let s := foldSt mine
    (fun n s => if isActive s (pother p) n then s
      else present (if eligible s n (pother p) then [pother p] else []) n s) s
  deliver (syncMods s)

/-- A port wakes (R428, R423). -/
def wakePort (p : Port) (s : State) : State :=
  let s := modPort p (fun x => { x with awake := true, wakeLvl := false }) s
  deliver (syncMods s)

/-- Effects of a write to INTs.CFG that changes the route of an active source (R425). -/
def reroute (n : Fin 96) (old : Nat) (s : State) : State :=
  let new := intRoute s n
  if new = old || !(isActive s .a n || isActive s .b n) then s
  else
    let s := foldSt (ports.filter fun p => !(routePorts new).contains p) (fun p => setActive p n false) s
    let held := isActive s .a n || isActive s .b n
    if new = 3 then (if held then s else present (targets s n).1 n s)
    else present (ports.filter (eligible s n)) n s

/-- State of a source (R415, R435). -/
def intState (s : State) (n : Fin 96) : Nat :=
  b2n (isPend s n) + 2 * b2n (isActive s .a n || isActive s .b n)

/-- IVECx (R435): the most urgent active source. -/
def ivecWord (s : State) (p : Port) : Word :=
  match prioOrder s (sources.filter (isActive s p)) with
  | [] => pack [(0, 0x7F), (12, b2n (prt s p).wakeLvl), (13, (pidx s.irq.rr).val)]
  | n :: l =>
    pack [(0, n.val), (7, intPrio s n), (11, b2n (!l.isEmpty)), (12, b2n (prt s p).wakeLvl), (13, (pidx s.irq.rr).val)]

/-- Level of IRQx_N, asserted low (R430, R86). -/
def irqPin (s : State) (p : Port) : Bool :=
  isLive s && ((portAwake s p && sources.any (isActive s p)) || (prt s p).wakeLvl)

end Sys2Proof.Machine
end

