-- ==== Sys2Proof/Machine/Ecc.lean ====
section
/-! DEFINITION. The half-word code (16_memory_integrity R468 to R470), stored words, and functional writes to a protected
memory with the flip mask (R480) and the line checks of vintage-1 tables (R474). -/

namespace Sys2Proof.Machine

/-- Check bits of ten data bits: columns 0 to 4 in bits 0 to 4, rows 0 and 1 in bits 5 and 6 (R468). -/
def checkBits (d : BitVec 10) : BitVec 7 :=
  let col := fun c => bit d c != bit d (c + 5)
  let row := fun r => (List.range 5).foldl (fun a c => a != bit d (5 * r + c)) false
  BitVec.ofNat 7 (b2n (col 0) + 2 * b2n (col 1) + 4 * b2n (col 2) + 8 * b2n (col 3) + 16 * b2n (col 4)
    + 32 * b2n (row 0) + 64 * b2n (row 1))

/-- A half-word as stored: check bits above data bits. -/
def encHalf (d : BitVec 10) : BitVec 17 := checkBits d ++ d

def cellLo (c : Cell) : BitVec 17 := c.extractLsb' 0 17
def cellHi (c : Cell) : BitVec 17 := c.extractLsb' 17 17
def mkCell (hi lo : BitVec 17) : Cell := hi ++ lo
def halfData (h : BitVec 17) : BitVec 10 := h.extractLsb' 0 10

/-- A 20-bit word as stored (R468). -/
def encWord (w : Word) : Cell := mkCell (encHalf (w.extractLsb' 10 10)) (encHalf (w.extractLsb' 0 10))

/-- A word as stored, without its code (R474). -/
def plainCell (w : Word) : Cell := mkCell ((0 : BitVec 7) ++ w.extractLsb' 10 10) ((0 : BitVec 7) ++ w.extractLsb' 0 10)

/-- The twenty data bits as they stand (R472, R473). -/
def cellData (c : Cell) : Word := halfData (cellHi c) ++ halfData (cellLo c)

/-- What a decode finds (R469). -/
inductive Dec where
  | ok | corrected | bad
deriving DecidableEq, Repr

/-- Decode of a half-word: the half-word mended, and what was found (R469). -/
def decHalf (h : BitVec 17) : BitVec 17 × Dec :=
  let d := halfData h
  let syn := checkBits d ^^^ h.extractLsb' 10 7
  let cols := ((List.range 5).filter fun c => bit syn c)
  let rows := ((List.range 2).filter fun r => bit syn (5 + r))
  match rows, cols with
  | [], [] => (h, .ok)
  | [r], [c] => (encHalf (d ^^^ BitVec.twoPow 10 (5 * r + c)), .corrected)
  | [_], [] => (encHalf d, .corrected)
  | [], [_] => (encHalf d, .corrected)
  | _, _ => (h, .bad)

/-- Decode of a stored word: the cell mended where it can be, and the graver of the two findings (R469, R471). -/
def decCell (c : Cell) : Cell × Dec :=
  let (l, dl) := decHalf (cellLo c)
  let (h, dh) := decHalf (cellHi c)
  if dl = .bad ∨ dh = .bad then (c, .bad)
  else if dl = .corrected ∨ dh = .corrected then (mkCell h l, .corrected)
  else (c, .ok)

/-- The stored word at an address; an unlisted one is the invalid word, zero (R470). -/
def memCell (s : State) (m : Fin 16) (a : Nat) : Cell := lookupD 0 a s.mems[m]

/-- Store a cell; the memory stays canonical. -/
def memSet (m : Fin 16) (a : Nat) (c : Cell) (s : State) : State :=
  modMems (fun v => vmod v m (insertKey a c (c != 0))) s

/-- Clear every valid bit of a memory (R470). -/
def memClear (m : Fin 16) (s : State) : State := modMems (fun v => v.set m []) s

/-- Clear the valid bits of `n` words from `a`. -/
def memClearRange (m : Fin 16) (a n : Nat) (s : State) : State :=
  modMems (fun v => vmod v m fun l => l.filter fun e => e.1 < a || a + n ≤ e.1) s

/-- The bank a memory index holds, when its words carry line checks instead of the code (R474). -/
def lineBank (s : State) (m : Fin 16) : Option (Fin 2) :=
  if m = 0 ∧ (bnk s 0).lineChk then some 0 else if m = 1 ∧ (bnk s 1).lineChk then some 1 else none

/-- The CRC-16 of R145 over words. -/
def crc16 (ws : List Word) : BitVec 16 := crcBits 0x1021#16 0xFFFF#16 (ws.flatMap msbBits)

/-- The eight words of a line as they stand (R474). -/
def lineWords (s : State) (m : Fin 16) (line : Nat) : List Word :=
  (List.range 8).map fun i => cellData (memCell s m (8 * line + i))

/-- Stored CRC of a line. A line never written holds the CRC of eight zero words. -/
def lineCrcOf (s : State) (b : Fin 2) (line : Nat) : BitVec 16 :=
  lookupD (crc16 (List.replicate 8 0)) (384 * b.val + line) s.mi.lineCrc

def setLineCrc (b : Fin 2) (line : Nat) (c : BitVec 16) (s : State) : State :=
  modMi (fun x => { x with lineCrc := insertKey (384 * b.val + line) c (c != crc16 (List.replicate 8 0)) x.lineCrc }) s

/-- The flip mask of R480 on a cell: the half-word it names, its check bits spared in a bank with line checks. -/
def flipCell (plain : Bool) (hi : Bool) (f : BitVec 17) (c : Cell) : Cell :=
  let f := if plain then f &&& 0x3FF#17 else f
  if hi then mkCell (cellHi c ^^^ f) (cellLo c) else mkCell (cellHi c) (cellLo c ^^^ f)

/-- A functional write of a word (R468, R470, R474, R480): the code or the line check, LBAD released (R481), and the armed
flip, whose completion raises source 95 (R480, R560). -/
def memPut (m : Fin 16) (a : Nat) (w : Word) (s : State) : State :=
  let lb := lineBank s m
  let cell := if lb.isSome then plainCell w else encWord w
  let s := memSet m a cell s
  let s : State := match lb with
    | some b => setLineCrc b (a / 8) (crc16 (lineWords s m (a / 8))) s
    | none => s
  let c := s.mi.cnt[m]
  let s := if c.lbadV ∧ c.lbad.toNat = a then
      modMi (fun x => { x with cnt := x.cnt.set m { c with lbadV := false } }) s else s
  if s.mi.fArmed ∧ s.mi.fMem.toNat = m.val then
    raise 95 (memSet m a (flipCell lb.isSome s.mi.fHalf s.mi.flip cell)
      (modMi (fun x => { x with fArmed := false, fDone := true, fAddr := BitVec.ofNat 20 a }) s))
  else s

/-- Write words to consecutive addresses. -/
def memPuts (m : Fin 16) (a : Nat) (ws : List Word) (s : State) : State :=
  ((List.range ws.length).zip ws).foldl (fun s p => memPut m (a + p.1) p.2 s) s

/-- The data of consecutive words as they stand, without a decode. -/
def memPeek (s : State) (m : Fin 16) (a n : Nat) : List Word := (List.range n).map fun i => cellData (memCell s m (a + i))

end Sys2Proof.Machine
end

