-- ==== Sys2Proof/Machine/Angle.lean ====
section
/-! DEFINITION. What the tracker computes from its estimator (07_angle_tracking R207 to R219, R235): tooth angles,
predicted instants, the present angle, speed and acceleration. Angles are in units of 2^-12 ac, 2^32 to a cycle; the pace
is scaled by 2^46 and its slope by 2^52 (log entry 10). -/

namespace Sys2Proof.Machine

/-- One cycle in units of 2^-12 ac. -/
def cycleFine : Int := 2 ^ 32

def wheelN (s : State) : Nat := cfgFld s .wheel 0 11
def wheelM (s : State) : Nat := cfgFld s .wheel 11 2
def wheelB (s : State) : Nat := cfgFld s .wheel 13 2
def wheelZ (s : State) : Bool := cfgBit s .wheel 15
def wheelPol (s : State) : Bool := cfgBit s .wheel 16
/-- Revolutions in a cycle: 1 for 360°, 2 for 720°. -/
def wheelRevs (s : State) : Nat := if cfgBit s .wheel 17 then 2 else 1

/-- Nominal pitch in units of 2^-12 ac. -/
def pitch (s : State) : Int := (2 ^ 32 : Int) / (wheelN s * wheelRevs s : Nat)

/-- The tooth correction in force, in 1/4 ac (R237). -/
def tcorOf (s : State) (k : Nat) : Int := sval ((cellData (decCell (memCell s 15 k)).1).extractLsb' 0 12)

/-- Angle of tooth k in revolution r (R208), within the cycle. -/
def toothAngle (s : State) (k : Nat) (r : Bool) : Nat :=
  let n := wheelN s
  let base : Int := (cfgFld s .angOfs 0 20 * 4096 + (b2n r * n + k) * 2 ^ 32 / (n * wheelRevs s) : Nat)
  let rofs : Int := if s.trk.rev then sval ((cfgGet s .angRofs).extractLsb' 0 16) * 4096 else 0
  ((base + rofs + tcorOf s k * 1024) % cycleFine).toNat

/-- Distance from the last accepted edge to an angle, in the direction of rotation, 0 to one cycle. -/
def distTo (s : State) (a : Nat) : Int :=
  if s.trk.rev then ((s.trk.uk : Int) - a) % cycleFine else ((a : Int) - s.trk.uk) % cycleFine

/-- Distance to an angle (in ac) of a numbered cycle; negative when it lies behind the last accepted edge. -/
def distCyc (s : State) (cyc : BitVec 40) (a : Word) : Int :=
  let c : Int := ((cyc.toNat : Int) - s.trk.uCyc.toNat) * cycleFine
  let x : Int := (a.toNat * 4096 : Nat)
  if s.trk.rev then c + s.trk.uk - x else c + x - s.trk.uk

/-- Slope in force: none in HOLDOVER (R217). -/
def slopeNow (s : State) : Int := if s.trk.st = .holdover then 0 else s.trk.slope

/-- Time from the last edge to distance d, scaled by 2^58, before rounding (R213, R216). -/
def leadRaw (s : State) (d : Int) : Int :=
  let p := s.trk.pace
  let j := slopeNow s
  let quad := fun (x : Int) => p * x + j * x * x / 2 ^ 19
  if j < 0 then
    let dc := p * 2 ^ 18 / (-2 * j)
    if dc < d then quad dc + p * (d - dc) / 2 else quad d
  else quad d

/-- Predicted instant of distance d, a timebase value rounded to the nearest tick (R213, R216). -/
def predict (s : State) (d : Int) : Int := s.trk.tk + (leadRaw s d + 2 ^ 57) / 2 ^ 58

/-- Position of a tooth in the direction of rotation after tooth k of revolution r. -/
def stepTooth (s : State) (k : Nat) (r : Bool) : Nat × Bool :=
  let n := wheelN s
  let flip := wheelRevs s = 2
  if s.trk.rev then
    (if k = 0 then (n - 1, if flip then !r else r) else (k - 1, r))
  else (if k + 1 ≥ n then (0, if flip then !r else r) else (k + 1, r))

/-- Next present tooth after tooth k (R207): missing positions are passed over; `fuel` bounds them. -/
def nextTooth (s : State) (fuel k : Nat) (r : Bool) : Nat × Bool :=
  match fuel with
  | 0 => (k, r)
  | f + 1 =>
    let (k', r') := stepTooth s k r
    if wheelN s - wheelM s ≤ k' then nextTooth s f k' r' else (k', r')

/-- The next expected tooth after the last accepted one. -/
def expected (s : State) : Nat × Bool := nextTooth s 4 s.trk.tooth.toNat s.trk.cycRev

/-- Largest distance whose predicted instant is not after `t` (scaled by 2^58), found bit by bit. -/
def distAt (s : State) (t : Int) : Int :=
  (List.range 37).foldl (fun d i => let x := d + 2 ^ (36 - i); if leadRaw s x ≤ t then x else d) 0

/-- Window half-width as an angle: WIN / 32 of a pitch (R223). -/
def winFine (s : State) : Int := cfgFld s .trkCfg 3 4 * pitch s / 32

/-- The angle that the estimator gives now, in units of 2^-12 ac (R216). -/
def estAngle (s : State) : Int :=
  let d := distAt s (((tbNow s : Int) - s.trk.tk) * 2 ^ 58)
  let (k, r) := expected s
  let lim := distTo s (toothAngle s k r) + winFine s
  let d := if s.trk.st = .holdover then d else min d lim
  if s.trk.rev then s.trk.uk - d else s.trk.uk + d

/-- VALID: the angle is known over the whole cycle (R220). -/
def angValid (s : State) : Bool :=
  match s.trk.st with
  | .cycleSync | .holdover => true
  | .stopped => s.trk.posHeld
  | _ => false

/-- The angle held or passed, whichever is further in the direction of rotation (R216). -/
def holdShown (s : State) (m : Nat) (x : Nat) : Nat :=
  let sh := s.trk.shown.toNat % m
  let ahead := if s.trk.rev then (sh + m - x) % m else (x + m - sh) % m
  if ahead < m / 2 then x else sh

/-- ANG_NOW (R216, R220, R235). -/
def angNow (s : State) : Angle :=
  match s.trk.st with
  | .stopped => if s.trk.posHeld then BitVec.ofNat 20 (s.trk.uk / 4096) else 0
  | .revSync =>
    if s.trk.predOk then
      BitVec.ofNat 20 (holdShown s (2 ^ 19) ((estAngle s % (2 ^ 31 : Int)).toNat / 4096))
    else BitVec.ofNat 20 (s.trk.uk % 2 ^ 31 / 4096)
  | .cycleSync | .holdover =>
    if s.trk.predOk then BitVec.ofNat 20 (holdShown s (2 ^ 20) ((estAngle s % cycleFine).toNat / 4096))
    else BitVec.ofNat 20 (s.trk.uk / 4096)
  | .seeking | .lost => 0

/-- Speed in units of 1/2^k rpm for a pace (R218). -/
def speedOf (s : State) (pace : Int) (k : Nat) : Nat :=
  if 0 < pace then
    (roundDiv ((250000000 * 60 * wheelRevs s * 2 ^ k * 2 ^ 26 : Nat) : Int) pace.toNat).toNat
  else 0

/-- Speed is shown while a pace is known and not in STOPPED or LOST (R220). -/
def paceShown (s : State) : Bool :=
  s.trk.predOk && (match s.trk.st with | .stopped | .lost => false | _ => true)

def angSpd (s : State) : Word :=
  if paceShown s then BitVec.ofNat 20 (min (speedOf s s.trk.pace 7) 0xFFFFF) else 0

/-- The acceleration estimate -j / s³ in units of 1/16 rpm/s (R214, R218). -/
def accel16 (s : State) : Int :=
  let p := s.trk.pace
  if 0 < p then
    roundDiv (-(slopeNow s) * ((2 ^ 66 * 16 * 250000000 ^ 2 * 60 * wheelRevs s : Nat) : Int)) (p * p * p).toNat
  else 0

def angAcc (s : State) : Word :=
  if paceShown s then sword 20 (max (-524288) (min 524287 (accel16 s))) else 0

/-- Gain row that an estimate calls for (R214); the estimate is compared before it is rounded. -/
def rowFor (s : State) : Fin 4 :=
  let p := s.trk.pace
  let a := ((-(s.trk.slope)) * ((2 ^ 66 * 250000000 ^ 2 * 60 * wheelRevs s : Nat) : Int)).natAbs
  let c := (p * p * p).natAbs
  if a < 20 * c then 0 else if a < 100 * c then 1 else if a < 500 * c then 2 else 3

def trkCode : TrkState → Nat
  | .stopped => 0 | .seeking => 1 | .revSync => 2 | .cycleSync => 3 | .holdover => 4 | .lost => 5

/-- ANG_ST (R235). -/
def angSt (s : State) : Word :=
  let t := s.trk
  pack [(0, trkCode t.st), (4, b2n t.rev), (5, b2n (angValid s)), (6, b2n t.predOk), (7, b2n t.camFail),
    (8, b2n t.phaseHost), (9, b2n t.learned), (10, b2n t.posHeld), (11, b2n t.spdOor), (12, t.cause.toNat),
    (16, b2n ((lnk s 0).st != .up))]

/-- ANG_TOOTH (R235). -/
def angTooth (s : State) : Word := pack [(0, s.trk.tooth.toNat), (10, min s.trk.holdCnt 15)]

/-- The ten tracker status words in address order (R235). -/
def angWords (s : State) : List Word :=
  [angNow s, angSpd s, angAcc s, angSt s, angTooth s, s.trk.cyc.extractLsb' 0 20, s.trk.cyc.extractLsb' 20 20]
    ++ stampWords s.trk.tk

/-- Distance to the next cycle boundary (R219): the end of the cycle that is counted now. -/
def distBoundary (s : State) : Int :=
  let c : Int := ((s.trk.cyc.toNat : Int) - s.trk.uCyc.toNat) * cycleFine
  if s.trk.rev then c + s.trk.uk + 1 else c + cycleFine - s.trk.uk

end Sys2Proof.Machine
end

