-- ==== Sys2Proof/Machine/Sha.lean ====
section
/-! DEFINITION. SHA-256 over 20-bit words (17_security R484: three bytes a word, most significant first) and words of
256-bit values. -/

namespace Sys2Proof.Machine

abbrev W32 := BitVec 32

def shaK : List W32 :=
  [0x428a2f98, 0x71374491, 0xb5c0fbcf, 0xe9b5dba5, 0x3956c25b, 0x59f111f1, 0x923f82a4, 0xab1c5ed5,
   0xd807aa98, 0x12835b01, 0x243185be, 0x550c7dc3, 0x72be5d74, 0x80deb1fe, 0x9bdc06a7, 0xc19bf174]
  ++ [0xe49b69c1, 0xefbe4786, 0x0fc19dc6, 0x240ca1cc, 0x2de92c6f, 0x4a7484aa, 0x5cb0a9dc, 0x76f988da,
   0x983e5152, 0xa831c66d, 0xb00327c8, 0xbf597fc7, 0xc6e00bf3, 0xd5a79147, 0x06ca6351, 0x14292967]
  ++ [0x27b70a85, 0x2e1b2138, 0x4d2c6dfc, 0x53380d13, 0x650a7354, 0x766a0abb, 0x81c2c92e, 0x92722c85,
   0xa2bfe8a1, 0xa81a664b, 0xc24b8b70, 0xc76c51a3, 0xd192e819, 0xd6990624, 0xf40e3585, 0x106aa070]
  ++ [0x19a4c116, 0x1e376c08, 0x2748774c, 0x34b0bcb5, 0x391c0cb3, 0x4ed8aa4a, 0x5b9cca4f, 0x682e6ff3,
   0x748f82ee, 0x78a5636f, 0x84c87814, 0x8cc70208, 0x90befffa, 0xa4506ceb, 0xbef9a3f7, 0xc67178f2]

/-- The eight working words. -/
structure Sha where
  a : W32
  b : W32
  c : W32
  d : W32
  e : W32
  f : W32
  g : W32
  h : W32

def Sha.init : Sha :=
  ⟨0x6a09e667, 0xbb67ae85, 0x3c6ef372, 0xa54ff53a, 0x510e527f, 0x9b05688c, 0x1f83d9ab, 0x5be0cd19⟩

/-- One round with schedule word `w` and constant `k`. -/
def shaRound (x : Sha) (kw : W32 × W32) : Sha :=
  let s1 := x.e.rotateRight 6 ^^^ x.e.rotateRight 11 ^^^ x.e.rotateRight 25
  let t1 := x.h + s1 + ((x.e &&& x.f) ^^^ (~~~x.e &&& x.g)) + kw.1 + kw.2
  let s0 := x.a.rotateRight 2 ^^^ x.a.rotateRight 13 ^^^ x.a.rotateRight 22
  let t2 := s0 + ((x.a &&& x.b) ^^^ (x.a &&& x.c) ^^^ (x.b &&& x.c))
  ⟨t1 + t2, x.a, x.b, x.c, x.d + t1, x.e, x.f, x.g⟩

/-- Extend the message schedule, newest word first, by `n` words. -/
def shaExtend : Nat → List W32 → List W32
  | 0, l => l
  | n + 1, l =>
    let w2 := l.getD 1 0
    let w15 := l.getD 14 0
    let s1 := w2.rotateRight 17 ^^^ w2.rotateRight 19 ^^^ (w2 >>> 10)
    let s0 := w15.rotateRight 7 ^^^ w15.rotateRight 18 ^^^ (w15 >>> 3)
    shaExtend n ((s1 + l.getD 6 0 + s0 + l.getD 15 0) :: l)

/-- One block of sixteen words. -/
def shaBlock (x : Sha) (blk : List W32) : Sha :=
  let ws := (shaExtend 48 blk.reverse).reverse
  let y := (shaK.zip ws).foldl shaRound x
  ⟨x.a + y.a, x.b + y.b, x.c + y.c, x.d + y.d, x.e + y.e, x.f + y.f, x.g + y.g, x.h + y.h⟩

/-- Bytes of a message in groups of four, as 32-bit words; `n` bounds the groups. -/
def shaWords : Nat → List (BitVec 8) → List W32
  | n + 1, a :: b :: c :: d :: l => (a ++ b ++ c ++ d) :: shaWords n l
  | _, _ => []

/-- The blocks of a padded message; `n` bounds them. -/
def shaBlocks : Nat → List W32 → Sha → Sha
  | 0, _, x => x
  | n + 1, l, x => if l.isEmpty then x else shaBlocks n (l.drop 16) (shaBlock x (l.take 16))

/-- SHA-256 of bytes, as a number. -/
def sha256Bytes (m : List (BitVec 8)) : Nat :=
  let zeros := (119 - m.length % 64) % 64
  let bits := 8 * m.length
  let len := (List.range 8).map fun i => BitVec.ofNat 8 (bits >>> (8 * (7 - i)))
  let p := m ++ [0x80#8] ++ List.replicate zeros 0#8 ++ len
  let x := shaBlocks (p.length / 64) (shaWords (p.length / 4) p) Sha.init
  [x.a, x.b, x.c, x.d, x.e, x.f, x.g, x.h].foldl (fun n w => n * 2 ^ 32 + w.toNat) 0

/-- A word as three bytes, most significant first (R484). -/
def wordBytes (w : Word) : List (BitVec 8) :=
  [BitVec.ofNat 8 (w.toNat >>> 16), BitVec.ofNat 8 (w.toNat >>> 8), BitVec.ofNat 8 w.toNat]

/-- SHA-256 of a message of words (R484). -/
def shaOf (ws : List Word) : Nat := sha256Bytes (ws.flatMap wordBytes)

/-- The number that 13 words hold, most significant first (R484). -/
def num256 (ws : List Word) : Nat := ws.foldl (fun n w => n * 2 ^ 20 + w.toNat) 0

end Sys2Proof.Machine
end

