-- ==== Sys2Proof/Machine/Ecdsa.lean ====
section
/-! DEFINITION. ECDSA on P-256 over SHA-256 (17_security R484), in plain number arithmetic. -/

namespace Sys2Proof.Machine

def p256P : Nat := 0xffffffff00000001000000000000000000000000ffffffffffffffffffffffff
def p256N : Nat := 0xffffffff00000000ffffffffffffffffbce6faada7179e84f3b9cac2fc632551
def p256B : Nat := 0x5ac635d8aa3a93e7b3ebbd55769886bc651d06b0cc53b0f63bce3c3e27d2604b
def p256Gx : Nat := 0x6b17d1f2e12c4247f8bce6e563a440f277037d812deb33a0f4a13945d898c296
def p256Gy : Nat := 0x4fe342e2fe1a7f9b8ee7eb4a7c0f9e162bce33576b315ececbb6406837bf51f5

/-- `b ^ e` modulo `m` for an exponent of up to 256 bits, most significant bit first. -/
def powMod (b e m : Nat) : Nat :=
  (List.range 256).foldl (fun r i => let r := r * r % m; if e.testBit (255 - i) then r * b % m else r) (1 % m)

/-- Inverse modulo a prime. -/
def invMod (x m : Nat) : Nat := powMod (x % m) (m - 2) m

/-- A point of the curve; `none` is the point at infinity. -/
abbrev Point := Option (Nat × Nat)

def pointAdd (a b : Point) : Point :=
  match a, b with
  | none, q => q
  | q, none => q
  | some (x1, y1), some (x2, y2) =>
    if x1 = x2 ∧ (y1 + y2) % p256P = 0 then none
    else
      let l :=
        if x1 = x2 then (3 * x1 * x1 + p256P - 3) * invMod (2 * y1) p256P % p256P
        else (y2 + p256P - y1) * invMod (x2 + p256P - x1) p256P % p256P
      let x3 := (l * l + 2 * p256P - x1 - x2) % p256P
      some (x3, (l * (x1 + p256P - x3) + p256P - y1) % p256P)

/-- A point in projective form: x / z², y / z³; z = 0 is the point at infinity. -/
structure ProjPoint where
  x : Nat
  y : Nat
  z : Nat
deriving DecidableEq, Repr

def subP (a b : Nat) : Nat := (a + p256P - b) % p256P

/-- Twice a point; the curve's second coefficient is -3. -/
def projDouble (a : ProjPoint) : ProjPoint :=
  let d := a.z * a.z % p256P
  let g := a.y * a.y % p256P
  let b := a.x * g % p256P
  let m := 3 * subP a.x d * (a.x + d) % p256P
  let x3 := subP (m * m % p256P) (8 * b % p256P)
  ⟨x3, subP (m * subP (4 * b % p256P) x3 % p256P) (8 * g * g % p256P), 2 * a.y * a.z % p256P⟩

/-- A point plus a point of the plane. -/
def projAdd (a : ProjPoint) (x y : Nat) : ProjPoint :=
  if a.z = 0 then ⟨x, y, 1⟩
  else
    let d := a.z * a.z % p256P
    let h := subP (x * d % p256P) a.x
    let r := subP (y * a.z % p256P * d % p256P) a.y
    if h = 0 then if r = 0 then projDouble a else ⟨1, 1, 0⟩
    else
      let h2 := h * h % p256P
      let h3 := h2 * h % p256P
      let v := a.x * h2 % p256P
      let x3 := subP (r * r % p256P) ((h3 + 2 * v) % p256P)
      ⟨x3, subP (r * subP v x3 % p256P) (a.y * h3 % p256P), a.z * h % p256P⟩

/-- The point in the plane. -/
def projPoint (a : ProjPoint) : Point :=
  if a.z = 0 then none
  else
    let i := invMod a.z p256P
    some (a.x * (i * i % p256P) % p256P, a.y * (i * i % p256P * i % p256P) % p256P)

/-- `k` times a point, `k` below 2^256. -/
def pointMul (k : Nat) (q : Point) : Point :=
  match q with
  | none => none
  | some (x, y) =>
    projPoint ((List.range 256).foldl
      (fun r i => let r := projDouble r; if k.testBit (255 - i) then projAdd r x y else r) ⟨1, 1, 0⟩)

/-- A public key lies on the curve. -/
def onCurve (x y : Nat) : Bool :=
  x < p256P && y < p256P && y * y % p256P == (x * x * x + (p256P - 3) * x + p256B) % p256P

/-- Verification of a signature over words (R484). -/
def ecdsaVerify (x y : Nat) (msg : List Word) (r s : Nat) : Bool :=
  if onCurve x y && 0 < r && r < p256N && 0 < s && s < p256N then
    let w := invMod s p256N
    let u1 := shaOf msg * w % p256N
    let u2 := r * w % p256N
    match pointAdd (pointMul u1 (some (p256Gx, p256Gy))) (pointMul u2 (some (x, y))) with
    | none => false
    | some (x1, _) => x1 % p256N == r
  else false

/-- Signature over words with nonce `k` (R484). -/
def ecdsaSign (d k : Nat) (msg : List Word) : Nat × Nat :=
  let k := k % (p256N - 1) + 1
  match pointMul k (some (p256Gx, p256Gy)) with
  | none => (0, 0)
  | some (x, _) =>
    let r := x % p256N
    (r, invMod k p256N * (shaOf msg + r * d) % p256N)

/-- A signature as 26 words, and back (R484). -/
def sigWords (x : Nat × Nat) : List Word := word256 x.1 ++ word256 x.2
def sigOf (ws : List Word) : Nat × Nat := (num256 (ws.take 13), num256 ((ws.drop 13).take 13))

/-- The two serial words (R484). -/
def serialWords (n : BitVec 40) : List Word := [n.extractLsb' 20 20, n.extractLsb' 0 20]

/-- A signature with the device key over a message, with the next nonce (R483, log entry 9). -/
def devSign (msg : List Word) (s : State) : List Word × State :=
  (sigWords (ecdsaSign s.sec.cellar.priv (Config.nonce s.free) msg), nextFree s)

end Sys2Proof.Machine
end

