-- ==== Sys2Proof/Machine/CfgHash.lean ====
section
/-! DEFINITION. Trellis bank and sequencer status (08_trellis_sequencer R255 to R257, R271), watchdog counter and
registers (15_faults_watchdog R458, R466), and the configuration hash (17_security R494, R501). -/

namespace Sys2Proof.Machine

/-! ### Banks -/

def bankIx : Fin 2 → Fin 16
  | 0 => 0
  | 1 => 1

def bankCount (s : State) (b : Fin 2) : Nat := cfgFld s (.bankCfg b) 0 11
def bankRev (s : State) (b : Fin 2) : Bool := cfgBit s (.bankCfg b) 11
def bankTime (s : State) (b : Fin 2) : Bool := cfgBit s (.bankCfg b) 13

/-- BANKb.CFG as read, LINECHK included (R271). -/
def bankCfgWord (s : State) (b : Fin 2) : Word :=
  cfgGet s (.bankCfg b) ||| pack [(14, b2n (bnk s b).lineChk)]

def activeBank (s : State) : Option (Fin 2) := ([0, 1] : List (Fin 2)).find? fun b => (bnk s b).st = .active
def isWaiting (s : State) (b : Fin 2) : Bool := (bnk s b).st = .waiting

/-- A WAITING bank that would serve the present direction: any where either bank is a time bank (R255, R256). -/
def servesNow (s : State) (b : Fin 2) : Bool := isWaiting s b && (bankTime s b || bankRev s b == s.trk.rev)

/-- The pending bank: of two, the one armed later (R256). -/
def pendBank (s : State) : Option (Fin 2) :=
  match servesNow s 0, servesNow s 1 with
  | true, true => if (bnk s 0).order < (bnk s 1).order then some 1 else some 0
  | true, false => some 0
  | false, true => some 1
  | false, false => none

/-- WAITING for the opposite direction (R267). -/
def isPartner (s : State) (b : Fin 2) : Bool := isWaiting s b && !bankTime s b && bankRev s b != s.trk.rev
def partnerBank (s : State) : Option (Fin 2) := ([0, 1] : List (Fin 2)).find? (isPartner s)

def optBit (o : Option (Fin 2)) : Nat := match o with | some b => b.val | none => 0

/-- SEQ_STAT (R271). -/
def seqStat (s : State) : Word :=
  let a := activeBank s
  let p := pendBank s
  let q := partnerBank s
  pack [(0, optBit a), (1, b2n a.isSome), (2, b2n p.isSome), (3, optBit p), (4, b2n q.isSome), (5, optBit q),
    (6, s.seq.wait.toNat), (8, s.seq.next.toNat)]

/-- BANKb.STAT (R271). -/
def bankStat (s : State) (b : Fin 2) : Word :=
  let k := bnk s b
  pack [(0, b2n k.loaded), (1, b2n k.valid), (2, b2n (k.st != .unarmed)), (3, b2n (k.st = .active)),
    (4, b2n (isPartner s b)), (5, k.reason.toNat), (9, k.failEntry.toNat)]

/-- W0, W1 and W2 of entries 0 to n - 1, mended where the code can (R249, R253). -/
def bankWords (s : State) (b : Fin 2) (n : Nat) : List Word :=
  (List.range (3 * n)).map fun i =>
    let c := memCell s (bankIx b) i
    cellData (if (bnk s b).lineChk then c else (decCell c).1)

/-- Digest of a bank (R494). -/
def bankDigest (s : State) (b : Fin 2) : Nat :=
  shaOf (bankCfgWord s b :: cfgGet s (.bankPeriod b) :: bankWords s b (bankCount s b))

/-! ### Watchdog -/

/-- Ticks of a watchdog clock period: REFCLK / 25 for CK_WDB, the free RC period within ±5 % for CK_WDA (R45, R458). -/
def wdPeriod (clk : Bool) : Nat := if clk then 250 else max 238 (min 262 (Config.wdaPeriod 0))

/-- Ticks of one counter unit (R458). -/
def wdUnit (s : State) : Nat := wdPeriod s.wd.clkNow * 2 ^ s.wd.pre.toNat

/-- The counter C (R458). -/
def wdCount (s : State) : Nat :=
  if s.wd.running then s.wd.base + (s.now - s.wd.zero) / wdUnit s else s.wd.frozen.toNat

/-- The watchdog stops with C as it stands (R454). -/
def wdStop (s : State) : State :=
  modWd (fun w => { w with frozen := BitVec.ofNat 20 (wdCount s), running := false }) s

def ownerCode : Option Port → Nat
  | none => 0
  | some .a => 1
  | some .b => 2

def wdCfgWord (s : State) : Word :=
  pack [(0, s.wd.pre.toNat), (4, b2n s.wd.clk), (5, b2n s.wd.autostart), (6, ownerCode s.wd.owner)]

/-! ### Configuration hash -/

/-- Value in force of a sealed register; state bits that share the word are left out (R501). -/
def sealedValue (s : State) : Reg → Word
  | .wdCfg => wdCfgWord s
  | .wdClose => s.wd.close
  | .wdTimeout => s.wd.timeout
  | .wdWarn => s.wd.warn
  | r => cfgGet s r

/-- Message of the configuration hash (R501). -/
def cfgHashMsg (s : State) : List Word :=
  sealedRegs.flatMap (fun r => [BitVec.ofNat 20 r.addr, sealedValue s r])
  ++ ([0, 1] : List (Fin 2)).flatMap (fun b => if (bnk s b).loaded then word256 (bankDigest s b) else List.replicate 13 0)
  ++ [permitWord s]

def cfgHash (s : State) : List Word := word256 (shaOf (cfgHashMsg s))

/-- The firmware bank that runs. -/
def runBank (s : State) : FwBank := s.sec.banks[if s.pw.bank then (1 : Fin 2) else 0]

/-- Link vintage in use: the highest common to the field dies that are up; 0 when none is (R162, R177). -/
def linkVintage (s : State) : Nat :=
  (groups.filter fun g => (lnk s g).st = .up).foldl
    (fun v g => let x := (lnk s g).vintage.toNat; if v = 0 then x else min v x) 0

/-- VINTAGES (R177). -/
def vintagesWord (s : State) : Word :=
  pack [(0, (prt s .a).vintage.toNat), (2, (prt s .b).vintage.toNat), (4, linkVintage s), (8, 3)]

/-- FW_VER (R177). -/
def fwVer (s : State) : Word := (runBank s).version

end Sys2Proof.Machine
end

