-- ==== Sys2Proof/Machine/Recorder.lean ====
section
/-! DEFINITION. The cask recorder (18_recording_replay R509 to R524): segments, records, losses, sessions. -/

namespace Sys2Proof.Machine

def caskM : Fin 16 := 8


/-- RECORDING or FREEZING and not yet ending. -/
def recOn (s : State) : Bool :=
  (s.cask.st = .recording || s.cask.st = .freezing) && s.cask.ending.isNone

/-- Words in the input buffer now: it drains at 16 Mwords/s, 8 words in 125 ticks (R512, R513). -/
def caskBuf (s : State) : Nat := s.cask.buf - (s.now - s.cask.bufAt) * 8 / 125

/-- Word 0 of a record (R516). -/
def recWord0 (type len arg : Nat) : Word := pack [(0, type), (5, len), (13, arg)]

/-- Word 0 of a segment header (R515). -/
def segWord0 (shadow first last : Bool) (close : Nat) : Word :=
  pack [(0, 1), (4, b2n shadow), (5, b2n first), (6, b2n last), (7, close)]

/-- The recorded time of a stamp during replay: the stamp minus the offset (R533). -/
def shTime (s : State) (t : Nat) : Nat := (t + 2 ^ 60 - s.cask.rpOfs.toNat) % 2 ^ 60

/-- The time that the cask writes for the present tick. -/
def caskTime (s : State) : Nat := if s.cask.shadow then shTime s (tbNow s) else tbNow s

/-- Open a segment in the slot at the ring's head (R514, R515). A hash of the previous segment that is not complete is
written when it is (SEGMENT_HASH_DONE). -/
def segOpen (first last : Bool) (s : State) : State :=
  let k := s.cask
  let full := k.closed.contains k.slot
  let s := modCask (fun k => { k with
    closed := k.closed.filter (· != k.slot),
    overwrite := if full then satInc k.overwrite else k.overwrite,
    opened := true, used := 0, base := tbNow s, hi := caskTime s / 2 ^ 20 }) s
  let at_ := 4096 * k.slot
  let s := memClearRange caskM at_ 4096 s
  memPuts caskM at_
    ([segWord0 k.shadow first last 0, k.sess, BitVec.ofNat 20 (k.seg >>> 20), BitVec.ofNat 20 k.seg]
      ++ stampWords (caskTime s) ++ [0] ++ serialWords s.sec.cellar.serial ++ [0]
      ++ (if first || !k.toHash.isEmpty then List.replicate 13 0 else k.prevHash.take 13)) s

/-- Source 77 when the number of closed slots rises to HIGH (R522). -/
def highWater (s : State) : State :=
  let h := cfgFld s .caskCfg 7 8
  if h ≠ 0 ∧ s.cask.closed.length = h then raise 77 s else s

/-- The words of a slot as racking writes them: mended where the code can, else as stored (R524). -/
def slotWords (s : State) (slot : Nat) : List Word :=
  (List.range 4096).map fun i => cellData (decCell (memCell s caskM (4096 * slot + i))).1

/-- The words of a slot as stored (R519, R524). -/
def slotStored (s : State) (slot : Nat) : List Word :=
  (List.range 4096).map fun i => cellData (memCell s caskM (4096 * slot + i))

/-- The hash of the oldest segment that waits for it is complete (R519): it stands in the next segment, and it is signed
after every 64th segment and after the session's last data segment (R520). -/
def hashHead (s : State) : State :=
  match s.cask.toHash with
  | [] => s
  | (slot, seg) :: l =>
    let h := word256 (shaOf (slotStored s slot))
    let next := decide (seg + 1 < s.cask.seg) || (decide (seg + 1 = s.cask.seg) && s.cask.opened)
    let s := whenSt next (memPuts caskM (4096 * ((slot + 1) % 256) + 11) h) s
    let final := s.cask.ending.isSome && l.isEmpty && !s.cask.opened
    modCask (fun k => { k with
      toHash := l, prevHash := h
      toSign := if decide (seg % 64 = 0) || final then k.toSign ++ [(seg, h)] else k.toSign }) s

/-- Hashes of the segments before a slot's are completed, so that its header is whole. -/
def hashBefore (slot : Nat) : Nat → State → State
  | 0, s => s
  | f + 1, s =>
    match s.cask.toHash with
    | (x, _) :: l => if x ≠ slot ∧ l.any (·.1 == slot) then hashBefore slot f (hashHead s) else s
    | [] => s

/-- A request to the memory master port that writes a slot to a rack page (R525). -/
def rackReq (s : State) (page : Word) (slot : Nat) (reply : Option Deferred) : MmpReq :=
  { user := .rack, win := 1, write := true, word := 4096 * page.toNat, data := (slotWords s slot).flatMap wordBytes
    len := 12288, done := 0, step := 0, polls := 0, failed := none, reply := reply }

/-- Automatic racking takes the oldest closed slot to page CASK_RNEXT of window 1 (R525, R528). -/
def autoKick (s : State) : State :=
  match s.cask.closed with
  | [] => s
  | slot :: _ =>
    if cfgBit s .caskCfg 1 ∧ !s.cask.autoStop ∧ s.cask.autoSlot.isNone then
      let s := hashBefore slot 256 s
      let q := rackReq s s.cask.rnext slot none
      modMmp (fun m => { m with reqs := m.reqs ++ [q] }) (modCask (fun k => { k with autoSlot := some slot }) s)
    else s

/-- Close the open segment with a CLOSE code; its hash is then due (R515, R519). The closing segment of a session carries
LAST and is not hashed: no segment follows it. -/
def segClose (code : Nat) (last : Bool) (s : State) : State :=
  let k := s.cask
  if k.opened then
    let at_ := 4096 * k.slot
    let w0 := cellData (memCell s caskM at_)
    let s := memPut caskM at_ (w0 ||| pack [(6, b2n last), (7, code)]) s
    let s := memPut caskM (at_ + 7) (BitVec.ofNat 20 k.used) s
    autoKick (highWater (modCask (fun k => { k with
      opened := false, closed := k.closed ++ [k.slot], toHash := if last then k.toHash else k.toHash ++ [(k.slot, k.seg)],
      slot := (k.slot + 1) % 256, seg := k.seg + 1 }) s))
  else s

/-- Append words to the open segment. -/
def recWords (ws : List Word) (s : State) : State :=
  let k := s.cask
  let s := memPuts caskM (4096 * k.slot + 24 + k.used) ws s
  modCask (fun k => { k with used := k.used + ws.length }) s

/-- A record with the TIME record that must precede it (R516). -/
def recRaw (type arg stamp : Nat) (ws : List Word) (s : State) : State :=
  let s := if stamp / 2 ^ 20 ≠ s.cask.hi then
      modCask (fun k => { k with hi := stamp / 2 ^ 20 }) (recWords (recWord0 0x02 3 0 :: stampWords stamp) s)
    else s
  recWords (recWord0 type (ws.length + 1) arg :: BitVec.ofNat 20 stamp :: ws) s

/-- A 60-bit two's complement number as three words. -/
def words60 (x : Int) : List Word := stampWords (x % 2 ^ 60).toNat

/-- The words of a CHECKPOINT (R518). -/
def checkpointWords (s : State) : List Word :=
  let t := s.trk
  [fwVer s] ++ cfgHash s ++ [pack [(0, devCode s.pw.dev)], angSt s, angTooth s, t.cyc.extractLsb' 0 20,
    t.cyc.extractLsb' 20 20] ++ stampWords t.tk ++ [BitVec.ofNat 20 (t.uk / 4096), BitVec.ofNat 20 (t.uk % 4096)]
  ++ words60 t.pace ++ words60 t.slope ++ [pack [(0, t.row.val), (2, t.rowCnt.toNat)], seqStat s,
    pack [(0, fld (bankStat s 0) 0 5), (5, fld (bankStat s 1) 0 5)]]

/-- TCOR records that cover the present entries of every present tooth (R517, R518): at most 250 to a record. -/
def tcorRecords (s : State) : List (Nat × List Word) :=
  let n := wheelN s - wheelM s
  (List.range ((n + 249) / 250)).map fun i =>
    (250 * i, BitVec.ofNat 20 (250 * i) ::
      (List.range (min 250 (n - 250 * i))).map fun k => cellData (decCell (memCell s 15 (250 * i + k))).1)

/-- CHECKPOINT and TCOR records (R518). -/
def recCheckpoint (s : State) : State :=
  let t := tbNow s
  let s := recRaw 0x0C 0 t (checkpointWords s) s
  (tcorRecords s).foldl (fun s r => recRaw 0x0D 0 t r.2 s) s

/-- SESSION record (R517, R521). -/
def recSession (s : State) : State :=
  recRaw 0x01 0 (tbNow s)
    ([fwVer s, vintagesWord s, pack [(0, s.aon.resetCause.toNat)], cfgGet s .caskCfg] ++ groups.map (fun g => cfgGet s (.caskGrp g))
      ++ ([0, 1, 2] : List (Fin 3)).map (fun k => cfgGet s (.caskDisel k))) s

/-- ANCHOR records whose signatures were complete while no segment was open (R520). -/
def recHeld (s : State) : State :=
  let l := s.cask.held
  l.foldl (fun s ws => recRaw 0x0E 0 (caskTime s) ws s) (modCask (fun k => { k with held := [] }) s)

/-- Open the next segment of the session (R514, R518): the first one with SESSION and a CHECKPOINT, every 64th with a
CHECKPOINT. In hold mode recording pauses while the slot is not free. -/
def segNext (s : State) : State :=
  if s.cask.closed.contains s.cask.slot ∧ cfgBit s .caskCfg 0 then modCask (fun k => { k with paused := true }) s
  else
    let first := decide (s.cask.seg = 0)
    let s := segOpen first false (modCask (fun k => { k with paused := false }) s)
    let s := if first then recSession s else s
    recHeld (if s.cask.seg % 64 = 0 then recCheckpoint s else s)

/-- A slot becomes free; recording that paused for it goes on (R514). -/
def slotFreed (slot : Nat) (s : State) : State :=
  let s := modCask (fun k => { k with closed := k.closed.filter (· != slot) }) s
  if recOn s ∧ s.cask.paused then segNext s else s

/-- The session's last data segment has closed: no more records; its anchor follows (R520, R521). Where the segment was
closed before, its hash is signed now. -/
def sessionEnding (code : Nat) (s : State) : State :=
  let was := s.cask.opened
  let s := modCask (fun k => { k with ending := some (BitVec.ofNat 3 code), freeze := none }) (segClose code false s)
  let k := s.cask
  if was || !k.toHash.isEmpty || k.toSign.any (fun x => x.1 + 1 == k.seg) then s
  else if k.seg = 0 then s
  else modCask (fun k => { k with toSign := k.toSign ++ [(k.seg - 1, k.prevHash)] }) s

/-- The open segment closes with a code and recording goes on, unless a FREEZE has run its course (R521). -/
def segRoll (code : Nat) (s : State) : State :=
  match s.cask.freeze with
  | some 0 => sessionEnding 3 s
  | some (n + 1) => segNext (modCask (fun k => { k with freeze := some n }) (segClose code false s))
  | none => segNext (segClose code false s)

/-- Count a dropped record: kind 0 ADC, 1 DI, 2 other (R513). -/
def recDrop (kind : Nat) (s : State) : State :=
  modCask (fun k =>
    let (a, d, o) := k.since
    match kind with
    | 0 => { k with lossAdc := satInc k.lossAdc, since := (a + 1, d, o) }
    | 1 => { k with lossDi := satInc k.lossDi, since := (a, d + 1, o) }
    | _ => { k with lossOther := satInc k.lossOther, since := (a, d, o + 1) }) s

/-- The LOSS record due before the next kept record (R513). -/
def recLoss (s : State) : State :=
  let (a, d, o) := s.cask.since
  if a = 0 ∧ d = 0 ∧ o = 0 then s
  else recRaw 0x0F 0 (tbNow s) [BitVec.ofNat 20 a, BitVec.ofNat 20 d, BitVec.ofNat 20 o]
    (modCask (fun k => { k with since := (0, 0, 0) }) s)

/-- Offer a record to the cask (R510 to R514): dropped while paused or when the input buffer is full, else written into
a segment with room for it. -/
def recOffer (type arg stamp : Nat) (ws : List Word) (s : State) : State :=
  if recOn s then
    let kind := if type = 0x05 then 0 else if type = 0x04 then 1 else 2
    let s := if s.cask.paused then segNext s else s
    let n := ws.length + 2
    let lvl := caskBuf s
    if s.cask.paused then recDrop kind s
    else if kind ≤ 1 ∧ 4096 < lvl + n then recDrop kind s
    else
      let s := modCask (fun k => { k with buf := lvl + n, bufAt := s.now }) s
      let need := n + (if stamp / 2 ^ 20 ≠ s.cask.hi then 4 else 0) + (if s.cask.since ≠ (0, 0, 0) then 13 else 0)
      let s := if 4072 < s.cask.used + need then segRoll 0 s else s
      if s.cask.opened ∧ recOn s then recRaw type arg stamp ws (recLoss s) else recDrop kind s
  else s

/-- A record that carries the present timebase (R509). -/
def recNow (type arg : Nat) (ws : List Word) (s : State) : State := recOffer type arg (tbNow s) ws s

/-- State changes are always recorded (R509). -/
def recState (s : State) : State := recNow 0x09 (devCode s.pw.dev) [] s

/-- FREEZE: POST further segments after the open one (R521). -/
def caskFreezeGo (post : Nat) (s : State) : State := modCask (fun k => { k with st := .freezing, freeze := some post }) s

/-- A new session (R521): the next session number, a FIRST segment, SESSION, CHECKPOINT and TCOR records. -/
def caskBegin (s : State) : State :=
  let n : Word := if s.aon.caskSess = 0xFFFFF#20 then 1 else s.aon.caskSess + 1
  let s := modAon (fun a => { a with caskSess := n }) s
  let s := modCask (fun k => { k with
    st := .recording, sess := n, seg := 0, shadow := false, paused := false, freeze := none, ending := none, prevHash := [],
    toHash := [], toSign := [], held := [], since := (0, 0, 0), dec := Vector.replicate 6 0 }) s
  let s := segNext s
  modCask (fun k => { k with cfgHash := cfgHash s }) s

/-- The shadow session goes on in the next slot, unless that is not free (R530). -/
def shadowRoll (code : Nat) (s : State) : State :=
  let s := segClose code false s
  let pages := match s.cask.replay with | some r => r.pages | none => false
  if s.cask.closed.contains s.cask.slot ∧ (!pages ∨ cfgBit s .caskCfg 0) then
    modCask (fun k => { k with shadow := false, rpTrunc := true }) s
  else
    recHeld (modCask (fun k => { k with replay := k.replay.map fun r => { r with shadowSegs := r.shadowSegs + 1 } })
      (segOpen false false s))

/-- A record of the shadow session (R533). -/
def recShadow (type arg stamp : Nat) (ws : List Word) (s : State) : State :=
  if s.cask.shadow ∧ s.cask.opened then
    let t := shTime s stamp
    let need := ws.length + 2 + (if t / 2 ^ 20 ≠ s.cask.hi then 4 else 0)
    let s := if 4072 < s.cask.used + need then shadowRoll 0 s else s
    if s.cask.opened then recRaw type arg t ws s else s
  else s

/-- Word 0 and 1 of the CASK_CTRL reply (R522). -/
def caskReply (s : State) : List Word :=
  let st := match s.cask.st with | .idle => 0 | .recording => 1 | .freezing => 2 | .replaying => 3
  [pack [(0, st), (2, s.cask.slot), (10, s.cask.closed.length)], s.aon.caskSess]

end Sys2Proof.Machine
end

