-- ==== Sys2Proof/Machine/Replies.lean ====
section
/-! DEFINITION. Opcodes and status codes (05_packet_protocol R164, R168), permission by device state (03 R94), and the
queuing of replies (R156 to R160). -/

namespace Sys2Proof.Machine

/-! ### Opcodes (R164) and status codes (R168) -/

abbrev Op := BitVec 8

def Op.fetch : Op := 0x00
def Op.hello : Op := 0x01
def Op.status : Op := 0x02
def Op.regRead : Op := 0x03
def Op.regWrite : Op := 0x04
def Op.tapTake : Op := 0x06
def Op.tapRelease : Op := 0x07
def Op.chanConfig : Op := 0x08
def Op.chanSet : Op := 0x09
def Op.chanGet : Op := 0x0A
def Op.groupCmd : Op := 0x0B
def Op.trellisLoad : Op := 0x10
def Op.trellisArm : Op := 0x11
def Op.trellisRead : Op := 0x12
def Op.panRead : Op := 0x14
def Op.wdServe : Op := 0x18
def Op.wdConfig : Op := 0x19
def Op.irqAck : Op := 0x1C
def Op.caskCtrl : Op := 0x20
def Op.caskRead : Op := 0x21
def Op.rack : Op := 0x22
def Op.replay : Op := 0x23
def Op.calArm : Op := 0x28
def Op.calSet : Op := 0x29
def Op.attest : Op := 0x30
def Op.sealLoad : Op := 0x31
def Op.ownerEnroll : Op := 0x32
def Op.ownerRelease : Op := 0x33
def Op.nvBegin : Op := 0x38
def Op.nvData : Op := 0x39
def Op.nvCommit : Op := 0x3A
def Op.stateReq : Op := 0x3C
def Op.inject : Op := 0x3D
def Op.faultRead : Op := 0x3E
def Op.faultAck : Op := 0x3F
def Op.portSleep : Op := 0x40

abbrev Status := BitVec 8

def stOk : Status := 0x00
def stPartial : Status := 0x01
def stTap : Status := 0x02
def stLength : Status := 0x03
def stCheck : Status := 0x04
def stAborted : Status := 0x05
def stDenied : Status := 0x06
def stState : Status := 0x07
def stUnknown : Status := 0x08
def stRange : Status := 0x09
def stVintage : Status := 0x0A
def stFull : Status := 0x0B
def stFault : Status := 0x0C

/-- What the table Opcodes gives a known opcode: vintage, least and greatest length, streaming, deferred, split (R164). -/
structure OpInfo where
  vintage : Nat
  lo : Nat
  hi : Nat
  stream : Bool := false
  deferred : Bool := false
  split : Bool := false
deriving DecidableEq, Repr

/-- The table Opcodes (R164); none for an unknown code. -/
def opInfo (op : Op) : Option OpInfo :=
  match op.toNat with
  | 0x00 => some { vintage := 1, lo := 0, hi := 0 }
  | 0x01 => some { vintage := 1, lo := 1, hi := 1 }
  | 0x02 => some { vintage := 1, lo := 0, hi := 0 }
  | 0x03 => some { vintage := 1, lo := 1, hi := 2046 }
  | 0x04 => some { vintage := 1, lo := 3, hi := 2045, split := true }
  | 0x06 => some { vintage := 2, lo := 1, hi := 1 }
  | 0x07 => some { vintage := 2, lo := 1, hi := 1 }
  | 0x08 => some { vintage := 1, lo := 4, hi := 2046, split := true }
  | 0x09 => some { vintage := 1, lo := 1, hi := 96 }
  | 0x0A => some { vintage := 1, lo := 1, hi := 3 }
  | 0x0B => some { vintage := 1, lo := 2, hi := 64, split := true }
  | 0x10 => some { vintage := 1, lo := 1, hi := 2046, stream := true }
  | 0x11 => some { vintage := 1, lo := 1, hi := 1 }
  | 0x12 => some { vintage := 1, lo := 2, hi := 2 }
  | 0x14 => some { vintage := 2, lo := 2, hi := 2 }
  | 0x18 => some { vintage := 1, lo := 1, hi := 1 }
  | 0x19 => some { vintage := 1, lo := 1, hi := 4 }
  | 0x1C => some { vintage := 1, lo := 1, hi := 6 }
  | 0x20 => some { vintage := 3, lo := 1, hi := 8 }
  | 0x21 => some { vintage := 3, lo := 2, hi := 2 }
  | 0x22 => some { vintage := 3, lo := 2, hi := 64, deferred := true, split := true }
  | 0x23 => some { vintage := 3, lo := 1, hi := 8, deferred := true }
  | 0x28 => some { vintage := 3, lo := 1, hi := 2, deferred := true }
  | 0x29 => some { vintage := 3, lo := 2, hi := 8 }
  | 0x30 => some { vintage := 3, lo := 1, hi := 16, deferred := true }
  | 0x31 => some { vintage := 3, lo := 1, hi := 2046, stream := true, deferred := true }
  | 0x32 => some { vintage := 3, lo := 1, hi := 64, deferred := true }
  | 0x33 => some { vintage := 3, lo := 1, hi := 64, deferred := true }
  | 0x38 => some { vintage := 3, lo := 1, hi := 64, deferred := true }
  | 0x39 => some { vintage := 3, lo := 1, hi := 2046, stream := true }
  | 0x3A => some { vintage := 3, lo := 1, hi := 64, deferred := true }
  | 0x3C => some { vintage := 1, lo := 1, hi := 1, deferred := true }
  | 0x3D => some { vintage := 3, lo := 1, hi := 8 }
  | 0x3E => some { vintage := 1, lo := 1, hi := 2 }
  | 0x3F => some { vintage := 1, lo := 1, hi := 2 }
  | 0x40 => some { vintage := 3, lo := 0, hi := 0 }
  | _ => none

/-- Whether a device state permits an opcode (R94). -/
def opPermitted (op : Op) (d : DevState) : Bool :=
  match d with
  | .config => !([Op.replay, Op.calSet, Op.calArm, Op.inject].contains op)
  | .run => !([Op.replay, Op.nvBegin, Op.nvData, Op.nvCommit].contains op)
  | .maint => true
  | .safe =>
    !([Op.chanSet, Op.trellisArm, Op.replay, Op.calSet, Op.calArm, Op.inject, Op.nvBegin, Op.nvData, Op.nvCommit].contains op)
  | .lockdown => [Op.hello, Op.status, Op.fetch, Op.attest, Op.faultRead].contains op
  | _ => false

/-- The vintage a port works in: 1 until a HELLO succeeds (R161). -/
def portVintage (s : State) (p : Port) : Nat := max 1 (prt s p).vintage.toNat

/-! ### Replies -/

def replyM (p : Port) : Fin 16 := match p with | .a => 11 | .b => 12
def cmdM (p : Port) : Fin 16 := match p with | .a => 9 | .b => 10

/-- Words as stored in a buffer memory; an armed flip meets the first of them (R468, R480). -/
def encCells (m : Fin 16) (ws : List Word) (s : State) : List Cell × State :=
  if s.mi.fArmed ∧ s.mi.fMem.toNat = m.val ∧ ws ≠ [] then
    (match ws.map encWord with
      | [] => []
      | c :: l => flipCell false s.mi.fHalf s.mi.flip c :: l,
     raise 95 (modMi (fun x => { x with fArmed := false, fDone := true, fAddr := 0 }) s))
  else (ws.map encWord, s)

/-- Words the reply data store of a port holds (R159). -/
def storeUsed (x : PortSt) : Nat := (x.replyQ.map fun r => r.cells.length).foldl (· + ·) 0

/-- Interrupt sources of a port's replies (R158, R159). -/
def srcReply (p : Port) : Fin 96 := match p with | .a => 72 | .b => 73
def srcWaiting (p : Port) : Fin 96 := match p with | .a => 74 | .b => 75

/-- A reply fits in the queue and in the store (R158, R159). -/
def replyFits (x : PortSt) (n : Nat) : Bool := x.replyQ.length < 128 && storeUsed x + n ≤ 4096

/-- Queue a reply (R158, R159), and set the WAKE level when the command carried WAKE (R429). A reply that does not fit
waits outside the queue. -/
def queueReply (p : Port) (status : Status) (tag : BitVec 7) (wake : Bool) (ws : List Word) (s : State) : State :=
  let (cells, s) := encCells (replyM p) ws s
  let r : Reply := { status := status, tag := tag, wake := wake, cells := cells, queuedAt := s.now }
  let x := prt s p
  let s :=
    if x.waiting.isEmpty ∧ replyFits x cells.length then
      raise (srcReply p) (modPort p (fun x => { x with replyQ := x.replyQ ++ [r] }) s)
    else raise (srcWaiting p) (modPort p (fun x => { x with waiting := x.waiting ++ [r] }) s)
  if wake then modPort p (fun x => { x with wakeLvl := true }) s else s

/-- A waiting reply enters the queue as soon as there is room (R159). -/
def admitWaiting (p : Port) (s : State) : State :=
  match (prt s p).waiting with
  | [] => s
  | r :: l =>
    if replyFits (prt s p) r.cells.length then
      raise (srcReply p)
        (modPort p (fun x => { x with replyQ := x.replyQ ++ [{ r with queuedAt := s.now }], waiting := l }) s)
    else s

/-- The five words of a split reply (R171). -/
def splitReply (done : Nat) (failSt : Status) (firstFail : Word) (map : Nat) (whole : Bool) : List Word :=
  [pack [(0, done), (12, failSt.toNat)], firstFail, BitVec.ofNat 20 map, BitVec.ofNat 20 (map >>> 20),
    pack [(0, (map >>> 40) % 256), (8, b2n whole)]]

/-- Payload of the reply to a command refused as a whole: split commands always carry five words, and STATE_REQ always
carries DEV_STATE (R171, R578). -/
def refusalWords (op : Op) (status : Status) (dev : Word) : List Word :=
  if op = Op.stateReq then [dev]
  else match opInfo op with
    | some i => if i.split then splitReply 0 status 0 0 true else []
    | none => []

/-- DEV_STATE (R104). -/
def devStateWord (s : State) : Word :=
  pack [(0, devCode s.pw.dev), (4, devCode s.pw.prev), (8, b2n s.pw.safePin), (9, b2n s.pw.stbyLow),
    (10, b2n s.aon.fatalHeld)]

/-- A deferred command completes (R156). -/
def completeDeferred (d : Deferred) (status : Status) (ws : List Word) (s : State) : State :=
  queueReply d.port status d.tag d.wake ws (modDeferred (fun l => l.filter (· != d)) s)

/-- A deferred command is taken up (R156). -/
def addDeferred (d : Deferred) (s : State) : State := modDeferred (fun l => l ++ [d]) s

def isDeferred (s : State) (op : Op) : Bool := s.deferred.any fun d => d.op = op

/-! ### Taps (06_registers_taps R185 to R187) -/

/-- The other port holds a tap. -/
def tapHeld (s : State) (p : Port) (k : Fin 32) : Bool := s.taps[k].holder = some (pother p)

/-- A tap of kind KIND bound to a value is held by the other port (R186, R187). -/
def boundHeld (s : State) (p : Port) (kind val : Nat) : Bool :=
  (List.finRange 32).any fun k =>
    7 ≤ k.val && cfgFld s (.tapCfg k) 4 2 == kind && cfgFld s (.tapCfg k) 6 8 == val && tapHeld s p k

/-- A tap bound to an opcode withholds it from the port. -/
def opHeld (s : State) (p : Port) (op : Op) : Bool := boundHeld s p 1 op.toNat

/-- The tap of a group (R185). -/
def grpTap (g : Grp) : Fin 32 := ⟨g.val + 1, by omega⟩

end Sys2Proof.Machine
end

