-- ==== Sys2Proof/Machine/SeqCore.lean ====
section
/-! DEFINITION. Withdrawals and bank state changes (08_trellis_sequencer R255, R265, R266), tracker state changes and their
events (07_angle_tracking R220, R221, R226, R229). -/

namespace Sys2Proof.Machine


/-- An action is within the extent of a withdrawal (R265). -/
def inExtent (e : Extent) (timeBank : Bool) : Bool :=
  match e with
  | .all => true
  | .angle => !timeBank

/-- The greater of two extents that travel in one frame. -/
def joinExtent (e : Extent) : Option Extent → Extent
  | some .all => .all
  | _ => e

/-- Slots of a set of actions at a group become free. -/
def freeSlots (acts : List Act) (g : Grp) (slots : BitVec 64) : BitVec 64 :=
  acts.foldl (fun w a => a.grps.foldl (fun w x =>
    if x.1 = g then (match x.2 with | some k => setBit w k.val false | none => w) else w) w) slots

/-- Pan opens and closes of trellis actions within an extent no longer happen. -/
def dropPanEvs (e : Extent) (l : List PanEv) : List PanEv :=
  l.filter fun v => v.origin = 2 || !inExtent e (v.origin = 1)

/-- Discard the placed actions within an extent at the logic die: their messages, their slots, their pan events. -/
def dropActs (e : Extent) (s : State) : State :=
  let gone := s.seq.acts.filter fun a => inExtent e a.timeBank
  let ids := gone.map (·.id)
  let s := modSeq (fun q => { q with
    acts := q.acts.filter fun a => !inExtent e a.timeBank }) s
  let s := modSmp (fun m => { m with evs := dropPanEvs e m.evs }) s
  foldSt groups (fun g s => modLink g (fun l => { l with
    sched := l.sched.filter fun m => !ids.contains m.id
    slots := freeSlots gone g l.slots }) s) s

/-- A close of an open pan at a stamp (R295, R296): the earlier close stands, at equal stamps the lower REASON. -/
def panCloseAt (g : Grp) (p : Fin 16) (t : Nat) (reason : BitVec 3) (s : State) : State :=
  modPan g p (fun k =>
    if k.st = .opened then
      { k with tClose := match k.tClose with
          | some (u, r) => if t < u then some (t, reason) else if t = u ∧ reason < r then some (t, reason) else some (u, r)
          | none => some (t, reason) }
    else k) s

/-- Pans of a group close together (R295). -/
def closePans (g : Grp) (t : Nat) (reason : BitVec 3) (which : Pan → Bool) (s : State) : State :=
  foldSt (List.finRange 16) (fun p s => if which (pan s g p) then panCloseAt g p t reason s else s) s

/-- When the next downstream frame is usable at its field die (R33, R375). -/
def frameUsable (s : State) : Nat := (tbNow s + 249) / 250 * 250 + 275

/-- During replay nothing crosses a link (R533): the pans close as the frame would have closed them (R295). -/
def replayClose (reason : BitVec 3) (which : Pan → Bool) (s : State) : State :=
  foldSt groups (fun g s => closePans g (frameUsable s) reason which s) s

/-- A withdrawal (R265): it travels in the next downstream frame of every group that is up, and counts. -/
def withdraw (e : Extent) (s : State) : State :=
  let s := dropActs e s
  let s := if s.cask.st = .replaying then replayClose 4 (fun k => k.byTrellis && inExtent e k.timeBank) s
    else foldSt (groups.filter fun g => (lnk s g).st = .up)
      (fun g s => modLink g (fun l => { l with withdraw := some (joinExtent e l.withdraw) }) s) s
  modSeq (fun q => { q with withdraw := satInc q.withdraw }) s

/-- The bank goes to a state; walking stops when no bank is ACTIVE. -/
def setBank (b : Fin 2) (st : BankState) (s : State) : State :=
  modBank b (fun k => { k with st := st, stopPend := false }) s

def stopWalk (s : State) : State := modSeq (fun q => { q with walking := false, left := 0, next := 0, decided := none }) s

/-- The ACTIVE angle bank becomes WAITING, or UNARMED when a STOP of it is pending (R255, R266). -/
def parkActive (s : State) : State :=
  match activeBank s with
  | some b =>
    if bankTime s b then s
    else stopWalk (setBank b (if (bnk s b).stopPend then .unarmed else .waiting) s)
  | none => s

/-- HALT: every placed action is withdrawn and both banks are UNARMED (R255). -/
def haltBanks (s : State) : State :=
  stopWalk (setBank 1 .unarmed (setBank 0 .unarmed (withdraw .all s)))

/-- The trellis is walked in RUN, and in a replay of a recorded RUN state (R94, R533). -/
def walks (s : State) : Bool :=
  s.pw.dev = .run ||
    (s.cask.st = .replaying && match s.cask.replay with | some r => r.began && r.recState == 3 | none => false)

/-- WAIT for the present bank and tracker states (R266, R267, R271): with no bank ACTIVE, 2 where no WAITING bank serves the
present direction, 1 where only angle banks do and VALID or PRED_OK is 0. -/
def seqWait (s : State) : BitVec 2 :=
  if (isWaiting s 0 ∨ isWaiting s 1) ∧ activeBank s = none then
    if !servesNow s 0 && !servesNow s 1 then 2
    else if (servesNow s 0 && bankTime s 0) || (servesNow s 1 && bankTime s 1) then 0
    else if !angValid s || !s.trk.predOk then 1 else 0
  else if (activeBank s).isSome ∧ s.trk.st = .holdover ∧ !cfgBit s .seqCfg 14 then 3 else 0

def syncWait (s : State) : State := modSeq (fun q => { q with wait := seqWait s }) s

/-- Sources 54 to 65 are not raised during replay (R533). -/
def raiseTrk (n : Fin 96) (s : State) : State := if s.cask.st = .replaying then s else raise n s

/-- The tracker's own registers at a change of its state (R220, R225, R229). -/
def trkTake (st : TrkState) (posHeld : Bool) (t : Tracker) : Tracker :=
  { t with
    st := st, posHeld := posHeld, holdCnt := 0
    camFail := t.camFail && (match st with | .revSync | .cycleSync | .holdover => true | _ => false)
    predOk := match st with | .stopped | .lost => false | _ => t.predOk }

/-- VALID rises or falls from what it was: sources 62 and 63, and what hangs on the phase (R229). -/
def trkValid (was : Bool) (s : State) : State :=
  if angValid s && !was then raiseTrk 62 (modTrk (fun t => { t with cyc := 0, uCyc := 0 }) s)
  else if was && !angValid s then raiseTrk 63 (modTrk (fun t => { t with phaseHost := false }) s)
  else s

/-- The sequencer loses the angle (R266): at a fall of VALID, and at an entry to STOPPED while an angle bank is ACTIVE. -/
def trkLeave (fell stopped : Bool) (s : State) : State :=
  if fell || (stopped && (activeBank s).any fun b => !bankTime s b) then parkActive (withdraw .angle s) else s

/-- The record of the state in the shadow session of a replay (R533). -/
def trkShadow (s : State) : State :=
  if s.cask.st = .replaying then recShadow 0x13 (trkCode s.trk.st) (tbNow s) [angSt s] s else s

/-- The tracker takes up a new state: VALID's edges raise 62 and 63; when VALID falls the phase is no longer the host's,
the placed angle actions are withdrawn and the ACTIVE bank waits; entry to STOPPED acts likewise (R220, R229, R266). -/
def trkEnter (st : TrkState) (posHeld : Bool) (s : State) : State :=
  let u := modTrk (trkTake st posHeld) s
  syncWait (trkShadow (trkLeave (angValid s && !angValid u) (st = .stopped && s.trk.st != .stopped) (trkValid (angValid s) u)))

/-- Estimator reset (R213): no pace, row 3. -/
def estReset (s : State) : State :=
  modTrk (fun t => { t with predOk := false, slope := 0, row := 3, rowCnt := 0, edges := 0, prevOk := false }) s

/-- The tracker restarts in STOPPED with POS_HELD cleared, as on a write to a wheel register (R221, R232). -/
def trkRestart (s : State) : State :=
  let s := trkEnter .stopped false s
  let dir := if wheelB s = 1 then s.trk.rev else cfgBit s .trkCfg 2
  estReset (modTrk (fun t => { t with rev := dir, lastA := none, zPend := false, unverified := false }) s)

end Sys2Proof.Machine
end

