-- ==== Sys2Proof/Machine/Device.lean ====
section
/-! DEFINITION. Configuration messages to the field dies (R36, R307), seal bundles coming into force (17 R497), and device
state changes (03_power_states_boot R95, R96, R578) with what they end: deferred commands (R157), banks (R255), update
sessions (R507), armed injections (R561). -/

namespace Sys2Proof.Machine


/-! ### Configuration registers that field dies hold -/

/-- Channel registers whose values a field die needs. -/
def dieChRegs : List ChReg :=
  [.cfg, .safe, .safeT, .safeV, .dicfg, .diag, .cntcfg, .docfg, .retry, .pwmcfg, .pwmper, .pwmduty, .pwmph, .acfg]

/-- Groups whose field dies hold a register (R307, R363, R388). -/
def regGroups : Reg → List Grp
  | .ch n r => if dieChRegs.contains r then [chanGrp n] else []
  | .grp g .lcfg => [g]
  | .grp g .hrcfg => [g]
  | .smpCfg n => [chanGrp n]
  | .toff _ => groups
  | .angIn => [0]
  | _ => []

/-- Queue a configuration message to a group that is up. -/
def sendConf (g : Grp) (m : ConfMsg) (s : State) : State :=
  if (lnk s g).st = .up then modLink g (fun l => { l with conf := l.conf ++ [m] }) s else s

/-- Put a word into a configuration register and send it where it is used. -/
def putReg (r : Reg) (w : Word) (s : State) : State :=
  foldSt (regGroups r) (fun g => sendConf g (.regs [(r.addr, w)] none)) (cfgSet r w s)

/-- Every register of a group's field die, as BOOT and bring-up write them (R87, R93). -/
def dieRegs (g : Grp) : List Reg :=
  lidxs.flatMap (fun l => dieChRegs.map (.ch (chanOf g l)) ++ [.smpCfg (chanOf g l)])
    ++ [.grp g .lcfg, .grp g .hrcfg, .toff 0, .toff 1, .toff 2] ++ (if g = 0 then [.angIn] else [])

/-- The trims of a channel's set: user trims over the neutral ones (R362, R363). -/
def trimOf (s : State) (n : Chan) (set : Fin 6) : BitVec 16 × Word :=
  lookupD (0, 0) (6 * n.val + set.val) s.cal.trims

/-- The whole configuration of a group (R93). -/
def sendAllConf (g : Grp) (s : State) : State :=
  let s := sendConf g (.regs ((dieRegs g).map fun r => (r.addr, cfgGet s r)) none) s
  foldSt lidxs (fun l s => foldSt (List.finRange 6) (fun k s =>
    let t := trimOf s (chanOf g l) k
    if t = (0, 0) then s else sendConf g (.trim l k t.1 t.2) s) s) s

/-! ### Sealed values -/

/-- NV value of a register (R17, R579). -/
def nvValue (s : State) (r : Reg) : Word := lookupD (BitVec.ofNat 20 r.factory) r.addr s.nv

/-- Watchdog parameters from their four register words (R455, R466). -/
def wdLoad (cfg close timeout warn : Word) (w : Wdog) : Wdog :=
  let failed := fun (c : Bool) => if c then w.failedB else w.failedA
  { w with
    pre := cfg.extractLsb' 0 4, clk := bit cfg 4, autostart := bit cfg 5
    owner := match fld cfg 6 2 with | 1 => some .a | 2 => some .b | _ => none
    close := close, timeout := timeout, warn := warn
    clkNow := if w.running then w.clkNow else if failed (bit cfg 4) then !bit cfg 4 else bit cfg 4 }

/-- The word a sealed register takes from a bundle: its pair, else its NV value (R497). -/
def bundleValue (s : State) (b : Bundle) (r : Reg) : Word :=
  match b.pairs.reverse.find? fun p => p.1 = r.addr with
  | some p => p.2
  | none => nvValue s r

/-- Registers whose change restarts the tracker (R221, R232). -/
def trkRestartRegs : List Reg := [.angIn, .wheel, .ztooth, .trkCfg]

/-- A bundle takes effect (R497). A change of a wheel register restarts the tracker as a write of it does (R232). -/
def bundleApply (b : Bundle) (s : State) : State :=
  let old := trkRestartRegs.map (cfgGet s)
  let v := bundleValue s b
  let s := modWd (wdLoad (v .wdCfg) (v .wdClose) (v .wdTimeout) (v .wdWarn)) s
  let s := foldSt sealedRegs (fun r s =>
    match r with
    | .wdCfg | .wdClose | .wdTimeout | .wdWarn => s
    | r => if v r = cfgGet s r then s else putReg r (v r) s) s
  let s := modSec (fun x => { x with bundle := some b, pending := none }) s
  if trkRestartRegs.map (cfgGet s) = old then s else trkRestart s

/-! ### State changes -/

/-- SAFE frames to a group: at least three, until one is acknowledged (R96, R379); to every group. -/
def sendSafe (g : Grp) (s : State) : State :=
  if (lnk s g).st = .down then s else modLink g (fun l => { l with safeLeft := 3, safeFrom := some l.seqDown }) s

def sendSafe3 (s : State) : State := foldSt groups sendSafe s

/-- A host output value (R387). -/
def isHostValue : ConfMsg → Bool
  | .host _ .cntClr | .host _ .clrLatch => false
  | .host _ _ => true
  | _ => false

/-- Leaving RUN (R96): the sequencer stops, its banks are no longer armed, what it placed is withdrawn by the SAFE frames
(R84), waiting host starts and held host values are dropped (R54). -/
def leaveRun (s : State) : State :=
  let s := dropActs .all s
  let s := stopWalk (setBank 1 .unarmed (setBank 0 .unarmed s))
  let s := modGov (fun g => { g with waiting := [] }) s
  let s := foldSt groups (fun g s => modLink g (fun l => { l with conf := l.conf.filter fun m => !isHostValue m }) s) s
  sendSafe3 s

/-- The update session is closed with an outcome in UPD_STAT.LAST; its region stays as it is (R507). -/
def closeSession (last : Nat) (s : State) : State :=
  match s.sec.sess with
  | none => s
  | some _ =>
    modAon (fun a => { a with updLast := BitVec.ofNat 3 last, updFlag := false }) (modSec (fun x => { x with sess := none }) s)

/-- Cancel the armed or running injection (R561). -/
def injCancel (s : State) : State :=
  match s.inj.armed with
  | none => s
  | some a =>
    let beat := fun (f : Faults) => if a.dom = 11 ∧ a.cause = 1 then { f with heartbeat := none } else f
    modFlt beat (modInj (fun i => { i with armed := none, last := 2 }) s)

/-- A replay that ends leaves the tracker in STOPPED with live edges and both banks UNARMED (R533). Pans that it opened
close with it, and its reads of rack pages are dropped. -/
def replayRelease (s : State) : State :=
  let t := tbNow s
  let s := foldSt groups (fun g s => closePans g t 6 (fun k => k.replay) s) s
  let s := stopWalk (setBank 1 .unarmed (setBank 0 .unarmed (dropActs .all s)))
  let s := modMmp (fun m => { m with
    reqs := m.reqs.filter fun r => r.user != .replay
    bus := match m.bus with | some (.replay, _) => none | b => b }) s
  trkRestart (modCask (fun k => { k with
    st := .idle, replay := none, shadow := false, ending := none, toHash := [], toSign := [], held := [] }) s)

/-- What a deferred command that is not carried to its end leaves behind in its unit (R157). -/
def dropJob (op : Op) (s : State) : State :=
  if op = Op.rack then
    modMmp (fun m => { m with
      reqs := m.reqs.filter fun r => r.reply.isNone || r.user != .rack
      bus := match m.bus with | some (.rack, _) => none | b => b })
      (modCask (fun k => { k with rack := [] }) s)
  else if op = Op.replay then replayRelease (if s.cask.opened then segClose 5 false s else s)
  else if op = Op.calArm then raise 86 (modCal (fun c => { c with arm := none, cap := none }) s)
  else if op = Op.stateReq then modPw (fun p => { p with leaveRun := [] }) s
  else s

/-- The job of the security engine that serves a deferred command is given up (R157). -/
def dropSecJob (d : Deferred) (s : State) : State :=
  modSec (fun x => { x with jobs := x.jobs.filter fun j =>
    match j with
    | .attest e _ _ => e != d
    | .sealing e _ _ => e != d
    | .enroll e _ _ _ _ => e != d
    | .release e _ => e != d }) s

/-- Deferred commands that the state no longer permits, or all of them, complete with a status (R157, R502). -/
def completeAll (status : Status) (which : Deferred → Bool) (s : State) : State :=
  foldSt (s.deferred.filter which)
    (fun d s => completeDeferred d status (refusalWords d.op status (devStateWord s)) (dropSecJob d (dropJob d.op s))) s

/-- The device state changes (R95): the change is recorded, and everything that the new state ends is ended. -/
def changeState (new : DevState) (s : State) : State :=
  let old := s.pw.dev
  if old = new then s
  else
    let s := recState (modPw (fun p => { p with dev := new, prev := old }) s)
    let s := if old = .run then leaveRun s else s
    let s := if old = .config ∧ new ≠ .run then setBank 1 .unarmed (setBank 0 .unarmed s) else s
    let s := injCancel s
    let s := if new = .safe ∨ new = .lockdown then closeSession 3 s else s
    let s := completeAll stState (fun d => !opPermitted d.op new) s
    let s := if new = .run then
        let wait := fun (k : Bank) => if k.st = .waiting then { k with period0 := tbNow s } else k
        modSeq (fun q => { q with banks := q.banks.map wait })
          (modPorts (fun x => { x with fresh := true, lastAccept := s.now, timerOff := false }) s)
      else s
    let s := match s.sec.pending with
      | some b => if new = .config ∧ isOwned s then bundleApply b s else s
      | none => s
    syncWait s

/-- LOCKDOWN (R502): RUN is left, the watchdog stops, every deferred command completes with STATE, sessions and store
operations end, the tracker is held in STOPPED (R231). -/
def enterLockdown (s : State) : State :=
  if s.pw.dev = .lockdown ∨ s.pw.dev = .boot then s
  else
    let s := wdStop (changeState .lockdown s)
    let s := completeAll stState (fun _ => true) s
    let s := modCal (fun c => { c with storing := none, again := false, want := 0, wantNext := 0, arm := none, cap := none }) s
    let s := modSec (fun x => { x with jobs := [], rebootDue := none }) s
    let s := modPw (fun p => { p with stby := .none }) s
    trkRestart (sendSafe3 s)

end Sys2Proof.Machine
end

