-- ==== Sys2Proof/Machine/Collector.lean ====
section
/-! DEFINITION. The fault collector (15_faults_watchdog R437 to R450): classes, counting, promotion, escalation, the fatal
record, the log, FAULT_N, and the recognition of a reset (03 R83). -/

namespace Sys2Proof.Machine

/-- Class of a fault event (R437). -/
inductive FltClass where
  | corrected | contained | fatal
deriving DecidableEq, Repr

/-- The table Fault causes (R437, R486); none for a code that is never reported. -/
def faultClass (d c : Nat) : Option FltClass :=
  if d ≤ 5 then
    match c with
    | 1 | 4 => some .corrected
    | 2 | 3 | 5 | 6 => some .contained
    | _ => none
  else match d, c with
    | 6, 1 | 6, 2 | 6, 3 | 6, 4 | 6, 5 => some .corrected
    | 6, 6 => some .contained
    | 6, 7 => some .fatal
    | 7, 1 | 7, 3 | 7, 7 => some .corrected
    | 7, 2 | 7, 4 | 7, 6 | 7, 8 => some .contained
    | 7, 5 => some .fatal
    | 8, 1 | 8, 2 | 8, 3 => some .corrected
    | 8, 4 => some .contained
    | 9, 1 | 9, 6 => some .corrected
    | 9, 2 | 9, 3 | 9, 4 | 9, 5 => some .contained
    | 10, 1 | 10, 2 | 10, 3 => some .contained
    | 11, 1 | 11, 2 | 11, 8 => some .fatal
    | 11, 3 | 11, 4 | 11, 5 | 11, 6 | 11, 7 => some .contained
    | _, _ => none

/-! ### Counters and log -/

def fltCntZero : FltCnt := { window := 0, total := 0, until_ := none }
def fltCnt (s : State) (d c : Nat) : FltCnt := lookupD fltCntZero (32 * d + c) s.flt.cnt
def setFltCnt (d c : Nat) (x : FltCnt) (s : State) : State :=
  modFlt (fun f => { f with cnt := insertKey (32 * d + c) x (x != fltCntZero) f.cnt }) s

/-- Word 0 of a log entry; class 3 stands for FATAL in a FAULT record (R450, R517). -/
def logWord0 (d c cls : Nat) (promoted : Bool) (unit : Nat) : Word :=
  pack [(0, d), (4, c), (9, cls), (11, b2n promoted), (12, unit)]

/-- The five words of a log entry (R450). -/
def logWords (e : LogEntry) : List Word :=
  logWord0 e.domain.toNat e.cause.toNat e.cls.toNat e.promoted e.unit.toNat :: e.seq :: stampWords e.stamp.toNat

/-- Log an entry; the oldest of 64 gives way (R450). -/
def logAdd (d c cls : Nat) (promoted : Bool) (unit : Nat) (s : State) : State :=
  let n : Word := if s.flt.seq = 0xFFFFF#20 then 1 else s.flt.seq + 1
  let e : LogEntry :=
    { domain := BitVec.ofNat 4 d, cause := BitVec.ofNat 5 c, cls := BitVec.ofNat 2 cls, promoted := promoted
      unit := BitVec.ofNat 6 unit, seq := n, stamp := BitVec.ofNat 60 (tbNow s) }
  modFlt (fun f => { f with seq := n, log := (e :: f.log).take 64 }) s

/-- The FAULT record of the cask (R509, R517). -/
def recFault (d c cls : Nat) (promoted : Bool) (unit : Nat) (s : State) : State :=
  if cfgBit s .caskCfg 4 then recNow 0x08 0 [logWord0 d c cls promoted unit] s else s

/-! ### FAULT_N -/

def heldAt (s : State) (d : Fin 12) : Option Held := s.flt.held[d]
def contMask (s : State) : Nat :=
  (List.finRange 12).foldl (fun m d => m + (if (heldAt s d).isSome then 2 ^ d.val else 0)) 0

/-- A reset has been recognised and has not taken hold (R83). -/
def resetting (s : State) : Bool := s.pw.resetSeq.isSome

/-- FAULT_N asserted (R448, R86). -/
def faultN (s : State) : Bool :=
  match s.pw.dev with
  | .standby => resetting s
  | .off => false
  | .boot | .lockdown => true
  | _ => resetting s || contMask s != 0 || s.aon.fatalHeld

/-- FLT_STAT (R453). -/
def fltStat (s : State) : Word := pack [(0, contMask s), (12, b2n s.aon.fatalHeld), (13, b2n (faultN s))]

/-! ### Resets and FATAL -/

/-- A reset cause is recognised (R83): SAFE frames from now on, the ports end what they were doing (R86). Causes that
coincide set their RESET_CAUSE bits together (R106). -/
def startReset (cause : BitVec 7) (fatal : Bool) (s : State) : State :=
  let q : ResetSeq := match s.pw.resetSeq with
    | some q => { q with cause := q.cause ||| cause, fatal := q.fatal || fatal, recordStored := q.recordStored && !fatal }
    | none => { cause := cause, fatal := fatal, sent := Vector.replicate 6 0, since := s.now, recordStored := !fatal }
  let s := modPw (fun p => { p with resetSeq := some q }) s
  modPorts (fun x => { x with ignoring := true, rx := .header, tx := [] }) s

/-- The fatal record, written only when none is held (R447). -/
def writeFrec (d c unit : Nat) (esc : Bool) (pc pu : Nat) (s : State) : State :=
  modAon (fun a =>
    if a.fatalHeld then { a with fatalCnt := satInc a.fatalCnt, frec := { a.frec with overrun := true } }
    else { a with
      fatalCnt := satInc a.fatalCnt, fatalHeld := true,
      frec := {
        domain := BitVec.ofNat 4 d, cause := BitVec.ofNat 5 c, unit := BitVec.ofNat 6 unit, escalated := esc
        overrun := false, acked := false, priorCause := BitVec.ofNat 5 pc, priorUnit := BitVec.ofNat 6 pu
        state := BitVec.ofNat 4 (devCode s.pw.dev), stamp := BitVec.ofNat 60 (tbNow s)
        angle := if angValid s then angNow s else 0 } }) s

/-- Hold a CONTAINED fault in a domain that holds none (R440). -/
def holdFault (d : Fin 12) (c unit : Nat) (promoted : Bool) (s : State) : State :=
  match heldAt s d with
  | some _ => s
  | none =>
    let h : Held := { cause := BitVec.ofNat 5 c, unit := BitVec.ofNat 6 unit, promoted := promoted }
    modFlt (fun f => { f with held := f.held.set d (some h) }) s

/-- A FATAL fault is declared (R444, R442, R523): the cask records it and closes its segment, the record is written and the
reset is recognised. In LOCKDOWN it is held and counted only. -/
def fatal (d : Fin 12) (c unit : Nat) (esc : Bool) (pc pu : Nat) (s : State) : State :=
  let s := recFault d.val c 3 false unit s
  if s.pw.dev = .lockdown then
    modAon (fun a => { a with fatalCnt := satInc a.fatalCnt }) (holdFault d c unit false s)
  else
    let s := if recOn s ∧ s.cask.opened then modCask (fun k => { k with st := .idle }) (segClose 4 false s) else s
    startReset 0x10 true (writeFrec d.val c unit esc pc pu s)

/-! ### Reports -/

/-- FRZ_CONT: a CONTAINED fault starts a FREEZE while the cask records (R521). -/
def freezeOnFault (s : State) : State :=
  if s.cask.st = .recording ∧ s.cask.ending = none ∧ cfgBit s .caskCfg 6 then caskFreezeGo (cfgFld s .caskPost 0 8) s else s

/-- Domain 9 events raise 87; CONTAINED ones are security failures (R486). One found by BOOT ends it in LOCKDOWN. -/
def securityEvent (d : Fin 12) (c : Nat) (cls : FltClass) (s : State) : State :=
  if d.val = 9 then
    let s := raise 87 s
    if cls = .contained then
      (if s.pw.dev = .boot then
        modPw (fun p => { p with boot := { p.boot with
          secFail := if p.boot.secFail = 0 then BitVec.ofNat 5 c else p.boot.secFail } }) s
      else enterLockdown s)
    else s
  else s

/-- A CONTAINED fault reaches its domain (R440, R449, R450). -/
def contain (d : Fin 12) (c unit : Nat) (promoted : Bool) (s : State) : State :=
  match heldAt s d with
  | some h =>
    if s.pw.dev = .lockdown then
      raise 83 (recFault d.val c 2 promoted unit (logAdd d.val c 2 promoted unit s))
    else fatal d c unit true h.cause.toNat h.unit.toNat s
  | none =>
    let s := raise 83 (recFault d.val c 2 promoted unit (logAdd d.val c 2 promoted unit (holdFault d c unit promoted s)))
    securityEvent d c .contained (freezeOnFault s)

/-- WINDOW and TOTAL of a CORRECTED event; the first in a closed window opens one of 2^WIN ms (R438). -/
def countCorrected (d : Fin 12) (c : Nat) (s : State) : State :=
  let x := fltCnt s d.val c
  let w := ms * 2 ^ cfgFld s (.fltCfg d) 10 5
  let open_ := match x.until_ with | some t => decide (s.now < t) | none => false
  setFltCnt d.val c
    (if open_ then { x with window := satInc x.window, total := satInc x.total }
     else { window := 1, total := satInc x.total, until_ := some (s.now + w) }) s

/-- A detector reports an event (R437 to R441). -/
def report (d : Fin 12) (c unit : Nat) (s : State) : State :=
  match faultClass d.val c with
  | none => s
  | some .corrected =>
    let s := countCorrected d c s
    let s := if cfgBit s (.fltCfg d) 15 then logAdd d.val c 1 false unit s else s
    let s := recFault d.val c 1 false unit s
    let s := if cfgBit s (.fltCfg d) 16 then raise 82 s else s
    let s := securityEvent d c .corrected s
    let n := cfgFld s (.fltCfg d) 0 10
    let x := fltCnt s d.val c
    if n ≠ 0 ∧ n ≤ x.window.toNat ∧ s.pw.dev ≠ .lockdown then
      contain d c unit true (setFltCnt d.val c { x with window := 0, until_ := none } s)
    else s
  | some .contained =>
    let x := fltCnt s d.val c
    contain d c unit false (setFltCnt d.val c { x with total := satInc x.total } s)
  | some .fatal =>
    let x := fltCnt s d.val c
    fatal d c unit false 0 0 (setFltCnt d.val c { x with total := satInc x.total } s)

/-- A FATAL cause found by a test that BOOT itself runs: the record is written and BOOT ends in SAFE (R443). -/
def fatalInBoot (d : Fin 12) (c unit : Nat) (s : State) : State :=
  let x := fltCnt s d.val c
  writeFrec d.val c unit false 0 0 (setFltCnt d.val c { x with total := satInc x.total } s)

/-- The domain of a group. -/
def grpDom (g : Grp) : Fin 12 := ⟨g.val, by omega⟩

/-! ### Injections -/

/-- An armed injection on a point, if any (R560). -/
def injAt (s : State) (d c : Nat) : Option InjArm :=
  match s.inj.armed with
  | some a => if a.dom.toNat = d ∧ a.cause.toNat = c then some a else none
  | none => none

/-- INJ_LSEQ (R560): the newest log entry of a domain since an instant; 0 when nothing was logged. -/
def injSeq (s : State) (dom : BitVec 4) (since : Nat) : Word :=
  match s.flt.log.find? fun e => e.domain = dom ∧ since ≤ e.stamp.toNat with
  | some e => e.seq
  | none => 0

/-- The injection is complete (R560): DONE, source 95, and the log number of the event it produced. -/
def injApplied (s : State) : State :=
  match s.inj.armed with
  | some a => raise 95 (modInj (fun i => { i with armed := none, done := true, last := 1, lseq := injSeq s a.dom a.since }) s)
  | none => s

/-- The stimulus of an armed injection has been given; its event is still on the way. -/
def injGiven (s : State) : State := modInj (fun i => { i with armed := i.armed.map fun a => { a with left := a.left - 1 } }) s

/-- The stimulus of a point is still to be given. -/
def injStim (s : State) (d c : Nat) : Option InjArm := (injAt s d c).filter fun a => decide (a.left ≠ 0)

/-- A timed injection runs on a point of a unit (R560). -/
def injRuns (s : State) (d c unit : Nat) : Bool :=
  match injAt s d c with
  | some a => a.unit.toNat = unit && (match a.until_ with | some t => decide (s.now < t) | none => false)
  | none => false

/-- A stimulus is still to be given to a unit. -/
def injStimAt (s : State) (d c unit : Nat) : Bool :=
  match injStim s d c with
  | some a => a.unit.toNat = unit
  | none => false

/-- The event of a point whose stimulus was given has come. -/
def injCame (d c : Nat) (s : State) : State :=
  match injAt s d c with
  | some a => if a.left = 0 then injApplied s else s
  | none => s

/-- Run a report with an armed stimulus: the injection completes with it. -/
def injReport (d c : Nat) (f : State → State) (s : State) : State :=
  match injAt s d c with
  | some _ => injApplied (f s)
  | none => f s

end Sys2Proof.Machine
end

