-- ==== Sys2Proof/Machine/Memory.lean ====
section
/-! DEFINITION. Reads of the protected memories (16_memory_integrity R469 to R477): decode, reports, write-back, the reaction
of each memory, and the line checks of vintage-1 tables. -/

namespace Sys2Proof.Machine

/-- Who reads a protected memory. -/
inductive Reader where
  | host | sequencer | scrubber
deriving DecidableEq, Repr

def modCnt (m : Fin 16) (f : MiCnt → MiCnt) (s : State) : State := modMi (fun x => { x with cnt := vmod x.cnt m f }) s

/-- A corrected error is reported, unless it stands at LCOR (R471, R481). -/
def noteCorrected (m : Fin 16) (a : Nat) (s : State) : State :=
  let c := s.mi.cnt[m]
  if c.lcorV ∧ c.lcor.toNat = a then s
  else report 7 1 m.val
    (modCnt m (fun c => { c with corr := satInc c.corr, lcorV := true, lcor := BitVec.ofNat 20 a }) s)

/-- A bank that lost its content: no longer armed, withdrawn when it was ACTIVE, LOADED cleared (R472). -/
def bankSpoiled (b : Fin 2) (s : State) : State :=
  let s := match (bnk s b).st with
    | .active => stopWalk (setBank b .unarmed (withdraw .all s))
    | .waiting => setBank b .unarmed s
    | .unarmed => s
  modBank b (fun k => { k with loaded := false }) s

/-- The reaction of a memory to an uncorrectable word (R472). -/
def badReaction (who : Reader) (m : Fin 16) (a : Nat) (s : State) : State :=
  if m.val ≤ 1 then
    match who with
    | .sequencer => haltBanks s
    | .scrubber => bankSpoiled (if m = 0 then 0 else 1) s
    | .host => s
  else if m.val = 15 then modTrk (fun t => { t with learned := false }) (memPut 15 a 0 s)
  else s

/-- An uncorrectable word is reported, unless it stands at LBAD (R472, R268, R481). -/
def noteBad (who : Reader) (m : Fin 16) (a : Nat) (s : State) : State :=
  let c := s.mi.cnt[m]
  let known := c.lbadV ∧ c.lbad.toNat = a
  let s := if known then s else
    modCnt m (fun c => { c with uncorr := satInc c.uncorr, lbadV := true, lbad := BitVec.ofNat 20 a }) s
  let s := badReaction who m a s
  if known then s
  else if who = .sequencer ∧ m.val ≤ 1 then report 6 6 m.val s
  else report 7 2 m.val s

/-- A failing line (R474, R475): a refetch is asked for when REF_EN is 1, else the failure stands. -/
def noteLine (b : Fin 2) (line : Nat) (s : State) : State :=
  if cfgBit s .miCfg 5 then
    match s.seq.refetch with
    | some _ => s
    | none =>
      let word := 8 * (cfgFld s (.miRefbase b) 0 20 + line)
      let q : MmpReq :=
        { user := .refetch, win := 0, write := false, word := word, data := [], len := 24, done := 0, step := 0, polls := 0
          failed := none, reply := none }
      modMmp (fun m => { m with reqs := m.reqs ++ [q] }) (modSeq (fun x => { x with refetch := some (b != 0, line) }) s)
  else report 7 4 b.val (bankSpoiled b s)

/-- Read a word of a protected memory. The flag tells that the word could not be mended; it is then as stored. -/
def memRead (who : Reader) (m : Fin 16) (a : Nat) (s : State) : (Word × Bool) × State :=
  let c := memCell s m a
  match lineBank s m with
  | some b =>
    if crc16 (lineWords s m (a / 8)) = lineCrcOf s b (a / 8) then ((cellData c, false), s)
    else ((cellData c, true), noteLine b (a / 8) s)
  | none =>
    match decCell c with
    | (_, .ok) => ((cellData c, false), s)
    | (d, .corrected) =>
      let s := if who = .scrubber ∨ cfgBit s .miCfg 6 then memSet m a d s else s
      ((cellData d, false), noteCorrected m a s)
    | (_, .bad) => ((cellData c, true), noteBad who m a s)

/-- Read words in ascending order; the flag tells that one of them could not be mended (R473). -/
def memReads (who : Reader) (m : Fin 16) (a n : Nat) (s : State) : (List Word × Bool) × State :=
  (List.range n).foldl (fun r i =>
    let x := memRead who m (a + i) r.2
    ((r.1.1 ++ [x.1.1], r.1.2 || x.1.2), x.2)) (([], false), s)

/-- Decode words that a buffer memory held (R472). The flag tells that one of them could not be mended. -/
def cellsRead (m : Fin 16) (cs : List Cell) (s : State) : (List Word × Bool) × State :=
  cs.foldl (fun r c =>
    match decCell c with
    | (_, .ok) => ((r.1.1 ++ [cellData c], r.1.2), r.2)
    | (d, .corrected) => ((r.1.1 ++ [cellData d], r.1.2), noteCorrected m 0 r.2)
    | (_, .bad) => ((r.1.1 ++ [cellData c], true), noteBad .host m 0 r.2)) (([], false), s)

end Sys2Proof.Machine
end

