-- ==== Sys2Proof/Machine/Slice.lean ====
section
/-! DEFINITION. One slice of a field die: modes, the protected switch with its retry and thermal latch, self-timed PWM, the
current output, the filtered input and the counter (10_channels_digital, 11_channels_analog), and what a channel shows. -/

namespace Sys2Proof.Machine

/-! ### Modes and configuration as the field die holds them -/

/-- Codes of MODE (R306). -/
def mOff : Nat := 0
def mDi : Nat := 1
def mDiCount : Nat := 2
def mDo : Nat := 3
def mDoPwm : Nat := 4
def mAiV : Nat := 5
def mAiI : Nat := 6
def mAoI : Nat := 7
def mAiDiff : Nat := 8

/-- A configuration word as the group's field die holds it; 0 before bring-up (R397). -/
def dieReg (s : State) (g : Grp) (r : Reg) : Word := lookupD 0 r.addr (fdie s g).cfg
def dieCh (s : State) (n : Chan) (r : ChReg) : Word := dieReg s (chanGrp n) (.ch n r)
def dieMode (s : State) (n : Chan) : Nat := fld (dieCh s n .cfg) 0 4
def isDigIn (m : Nat) : Bool := m = mDi || m = mDiCount
def isSwitch (m : Nat) : Bool := m = mDo || m = mDoPwm
def isOutput (m : Nat) : Bool := isSwitch m || m = mAoI

/-- The odd member of an AI_DIFF pair only lends its pin (R350). -/
def isDiffOdd (m : Nat) (n : Chan) : Bool := m = mAiDiff && n.val % 2 = 1

/-- A mode that runs the monitor converter (R347). -/
def isAnalog (m : Nat) (n : Chan) : Bool := (mAiV ≤ m && m ≤ mAiDiff) && !isDiffOdd m n

/-- A mode with a quantity to convert (R273, R280). -/
def converts (m : Nat) (n : Chan) : Bool := m != mOff && !isDiffOdd m n

/-- The local timebase of the field dies (R31); while the logic die keeps none it runs on. -/
def dieTime (s : State) : Nat := if s.pw.tb0.isSome then tbNow s else s.now

def addReport (g : Grp) (r : Report) (s : State) : State := modField g (fun d => { d with reports := d.reports ++ [r] }) s
def digEvt (n : Chan) (b : Fin 11) (s : State) : State := addReport (chanGrp n) (.dig (chanLidx n) b) s
def anaEvt (n : Chan) (b : Fin 5) (s : State) : State := addReport (chanGrp n) (.ana (chanLidx n) b) s

/-! ### The switch -/

/-- Current limit in mA outside an inrush window (R324). -/
def ilimMa (w : Word) : Nat := 50 * fld w 0 6

/-- I_lim now (R324). -/
def limitNow (s : State) (n : Chan) : Nat :=
  if (slc s n).inrushEnd.isSome then 5000 else ilimMa (dieCh s n .docfg)

/-- The switch starts to conduct; a switch-on from off opens the inrush window (R324). -/
def switchOn (n : Chan) (inrush : Bool) (s : State) : State :=
  let w := fld (dieCh s n .docfg) 6 5
  modSlice n (fun x => { x with
    out := true, onSince := if x.out ∨ x.pwm then x.onSince else s.now
    inrushEnd := if inrush ∧ w ≠ 0 then some (s.now + w * ms) else x.inrushEnd }) s

/-- The switch turns off through the clamp (R337). -/
def switchOff (n : Chan) (s : State) : State :=
  modSlice n (fun x => { x with
    out := false, limiting := false, inrushEnd := none, curMa := 0, offSince := if x.out then s.now else x.offSince }) s

/-- A PWM off-edge: the inrush window of the PWM_ON runs on (R336). -/
def switchGap (n : Chan) (s : State) : State :=
  modSlice n (fun x => { x with
    out := false, limiting := false, curMa := 0, offSince := if x.out then s.now else x.offSince }) s

/-- p(r) in ticks (R327). -/
def pauseOf (s : State) (n : Chan) : Nat :=
  min ((fld (dieCh s n .retry) 0 6 + 1) * 2 ^ (slc s n).r.toNat) 4000 * ms

/-- A trip (R325, R327, R336): off, the pattern stopped, then PAUSE or LATCHED. -/
def tripSwitch (n : Chan) (s : State) : State :=
  let s := digEvt n 2 (switchOff n s)
  let s := modSlice n (fun x => { x with pwm := false, pwmOn := false, hitEnd := none }) s
  if (slc s n).r.toNat = fld (dieCh s n .retry) 6 4 then
    digEvt n 3 (modSlice n (fun x => { x with retry := .latched, pauseEnd := none }) s)
  else
    let p := pauseOf s n
    modSlice n (fun x => { x with retry := .pause, pauseEnd := if x.therm then none else some (s.now + p) }) s

/-- Whether protection lets the switch conduct (R328, R329, R330). -/
def mayConduct (x : Slice) : Bool := x.retry = .normal && !x.therm

/-- A DO channel is commanded on or off (R313, R328, R330). -/
def doCmd (n : Chan) (on : Bool) (s : State) : State :=
  let s := modSlice n (fun x => { x with cmd := on }) s
  let x := slc s n
  if on then (if mayConduct x ∧ !x.out then switchOn n true s else s)
  else if x.out then switchOff n s else s

/-! ### Self-timed PWM (R333 to R336) -/

/-- Ticks of a PWM unit. -/
def pwmUnit (w : Word) : Nat := if bit w 0 then us else 1
def pwmPer (s : State) (n : Chan) : Nat := (dieCh s n .pwmper).toNat * pwmUnit (dieCh s n .pwmcfg)

/-- Position in the present period (R333). -/
def pwmPos (s : State) (n : Chan) : Nat :=
  let p := pwmPer s n
  if p = 0 then 0
  else
    let x := slc s n
    let t : Int := dieTime s
    let ph : Int := (dieCh s n .pwmph).toNat * pwmUnit (dieCh s n .pwmcfg) + x.shift
    if bit (dieCh s n .pwmcfg) 1 then (((s.now : Int) - x.anchor) % p).toNat else ((t - ph) % p).toNat

/-- The pattern stands where R333 gives for this instant. -/
def pwmPhase (n : Chan) (s : State) : State :=
  let on := decide (pwmPos s n < (slc s n).duty)
  let s := modSlice n (fun x => { x with pwmOn := on }) s
  let x := slc s n
  if on ∧ mayConduct x then switchOn n false s else if x.out then switchGap n s else s

/-- The pattern starts (R334): the hit phase first, the inrush window with it; the duty in force is taken. -/
def pwmStart (n : Chan) (s : State) : State :=
  let cfg := dieCh s n .pwmcfg
  let hit := fld cfg 2 8
  let d := (dieCh s n .pwmduty).toNat * pwmUnit cfg
  let w := fld (dieCh s n .docfg) 6 5
  let s := modSlice n (fun x => { x with
    pwm := true, pwmOn := false, duty := d, anchor := s.now, onSince := s.now
    hitEnd := if hit = 0 then none else some (s.now + hit * 100 * us)
    inrushEnd := if w = 0 then none else some (s.now + w * ms) }) s
  if hit = 0 then pwmPhase n s else if mayConduct (slc s n) then switchOn n true s else s

/-- A DO_PWM channel is commanded to run or to stop (R334, R328, R330). -/
def pwmCmd (n : Chan) (on : Bool) (shift : Nat) (s : State) : State :=
  let s := modSlice n (fun x => { x with cmd := on }) s
  let x := slc s n
  if on then
    (if x.pwm ∨ x.retry ≠ .normal then s else pwmStart n (modSlice n (fun x => { x with shift := shift }) s))
  else switchOff n (modSlice n (fun x => { x with
    pwm := false, pwmOn := false, hitEnd := none, shift := 0, sqSum := 0, sqN := 0, msq := 0 }) s)

/-- A retry or the end of the thermal latch switches a commanded channel on (R327, R328, R336). -/
def reStart (n : Chan) (retry : Bool) (s : State) : State :=
  if dieMode s n = mDo then switchOn n true s
  else if retry ∨ !(slc s n).pwm then pwmStart n s
  else if (slc s n).hitEnd.isSome then switchOn n false s
  else pwmPhase n s

/-- The pause timer expires (R327, R328). -/
def pauseOver (n : Chan) (s : State) : State :=
  let x := slc s n
  if x.cmd then reStart n true (modSlice n (fun x => { x with pauseEnd := none, retry := .normal, r := x.r + 1 }) s)
  else modSlice n (fun x => { x with pauseEnd := none, retry := .normal }) s

/-- Clear of the retry latch (R329): acts only in LATCHED. -/
def clrLatch (n : Chan) (s : State) : State :=
  modSlice n (fun x => if x.retry = .latched then { x with retry := .normal, r := 0, cmd := false } else x) s

/-! ### The current output -/

/-- A new output code (R355). -/
def setCode (n : Chan) (c : Word) (s : State) : State := modSlice n (fun x => { x with code := c }) s

/-! ### Safe states (R390 to R392) -/

/-- The output of a channel that drives nothing: off, pattern stopped, 0 mA. -/
def outputOff (n : Chan) (s : State) : State :=
  let m := dieMode s n
  if m = mDo then doCmd n false s else if m = mDoPwm then pwmCmd n false 0 s else if m = mAoI then setCode n 0 s else s

/-- Pulses in progress end at once (R84, R384). -/
def endPulses (n : Chan) (s : State) : State :=
  if (slc s n).pulses.isEmpty then s else doCmd n false (modSlice n (fun x => { x with pulses := [] }) s)

/-- A channel takes its safe state (R390, R391); one that is in it already is left alone (R85). -/
def safeChan (n : Chan) (s : State) : State :=
  let s := endPulses n s
  let m := dieMode s n
  if !isOutput m ∨ (slc s n).safe then s
  else
    let code := fld (dieCh s n .safe) 0 2
    let s := modSlice n (fun x => { x with safe := true, safeAt := tbNow s, owner := .none }) s
    if code = 1 then modSlice n (fun x => { x with holdEnd := some (s.now + (dieCh s n .safeT).toNat * ms) }) s
    else if code = 2 ∧ m = mAoI then setCode n (dieCh s n .safeV) s
    else outputOff n s

/-- A value that reaches a channel ends its safe state (R392). -/
def endSafe (n : Chan) (s : State) : State := modSlice n (fun x => { x with safe := false, holdEnd := none }) s

/-! ### Change of MODE (R308, R349) -/

/-- Analog indications and timers start afresh (R349). -/
def clearAnalog (n : Chan) (s : State) : State :=
  modSlice n (fun x => { x with band := 0, aOpen := false, aShort := false, compl := false, hrLim := false, code := 0 }) s

/-- What a change of MODE does in one clock; the new MODE is already in force. -/
def modeChanged (n : Chan) (s : State) : State :=
  let s := switchOff n s
  clearAnalog n (modSlice n (fun x => { x with
    cmd := false, pwm := false, pwmOn := false, hitEnd := none, shift := 0, pulses := [], retry := .normal, r := 0
    pauseEnd := none, cnt := 0, fStart := none, fK := 0, fper := 0, fedg := 0, noFreq := true, inp := x.comp
    lstate := setBit x.lstate 1 false
    safe := false, holdEnd := none, owner := .none }) s)

/-! ### What a channel shows -/

/-- CHn.DSTAT (R345). -/
def dstatOf (x : Slice) : Word :=
  pack [(0, b2n x.cmd), (1, b2n x.out), (2, b2n x.inp),
    (3, match x.retry with | .normal => 0 | .pause => 1 | .latched => 2), (5, x.r.toNat), (9, b2n x.therm),
    (10, b2n x.limiting), (11, b2n (x.inrushEnd.isSome && x.out)), (12, b2n (x.opened || x.openedOn)), (13, b2n x.shorted),
    (14, b2n x.swFail), (15, b2n x.hitEnd.isSome), (16, b2n x.noFreq), (17, b2n x.pwm)]

/-- CHn.ASTAT (R373). -/
def astatOf (x : Slice) : BitVec 7 :=
  BitVec.ofNat 7 (x.band.toNat + 8 * b2n x.aOpen + 16 * b2n x.aShort + 32 * b2n x.compl + 64 * b2n x.hrLim)

/-- The report of a channel (R345, R373, R377). In OFF, and for the odd member of a pair, there is nothing to show. -/
def repOf (s : State) (n : Chan) : ChanRep :=
  let x := slc s n
  let m := dieMode s n
  let ana := isAnalog m n
  { dstat := dstatOf x, cnt := x.cnt, fper := x.fper, fedg := x.fedg, lstate := x.lstate, lcnt := x.lcnt
    lstamp := BitVec.ofNat 60 x.lstamp, astat := astatOf x, aocode := if m = mAoI then x.code else 0
    amon := if ana then pack [(0, x.imon.toNat), (12, x.vpin.toNat)] else 0, curMa := x.curMa
    inrush := x.inrushEnd.isSome && x.out, safeActive := x.safe, safeHolding := x.holdEnd.isSome, msq := x.msq
    vpin := x.vpin, mode := BitVec.ofNat 4 m, loop := bit (dieCh s n .acfg) 0 }

end Sys2Proof.Machine
end

