-- ==== Sys2Proof/Machine/Flags.lean ====
section
/-! DEFINITION. Sample words and their flags (09_sampling_pans R273 to R277, R351), trims (11 R362), NE43 bands (R353), and
the checksums of headers, payloads and daisy words (05 R143, R145, 04 R131). -/

namespace Sys2Proof.Machine

/-! ### Checksums -/

/-- CRC-8 of a header (R143): H0 then H1[19:8]. -/
def hdrCrc (h0 h1 : Word) : BitVec 8 := crcBits 0x07#8 0xFF#8 (msbBits h0 ++ msbBits (h1.extractLsb' 8 12))

/-- A header's second word: LENGTH and HCRC. -/
def hdrWord1 (h0 : Word) (len : Nat) : Word :=
  let h : Word := BitVec.ofNat 20 (len * 256)
  h ||| (hdrCrc h0 h).setWidth 20

/-- Check word of a payload (R145). -/
def checkWord (ws : List Word) : Word := (crc16 ws).setWidth 20

/-- CRC-4 over data bits, most significant first (R131). -/
def crc4 (bits : List Bool) : BitVec 4 := crcBits 0x3#4 0x1#4 bits

/-! ### Trims and sample codes -/

/-- A converter result after its trim set, scaled by 2^24 (R362). -/
def trimIn (t : BitVec 16 × Word) (x : Int) : Int := (x - sval t.1) * (2 ^ 24 + sval t.2)

/-- The trim set that an input conversion uses (R362). -/
def trimSet (mode range : Nat) : Fin 6 :=
  if mode = mAiV then (if range = 0 then 0 else 1)
  else if mode = mDi ∨ mode = mDiCount then 1
  else if mode = mAiDiff then (if range = 0 then 3 else 4)
  else 2

/-- Modes whose conversions have user trims (R362): every one but the switch current. -/
def hasTrim (mode : Nat) : Bool := !isSwitch mode

/-- RES in bits (R274). -/
def resBits (cfg : Word) : Nat := match fld cfg 2 2 with | 0 => 20 | 1 => 18 | _ => 16

/-- Code and OVR of a value scaled by 2^24 (R274, R275). -/
def codeOf (res : Nat) (signed : Bool) (x : Int) : Int × Bool :=
  let q := (x + (2 ^ (43 - res) : Nat)) / (2 ^ (44 - res) : Nat)
  let lo : Int := if signed then -(2 ^ (res - 1) : Nat) else 0
  let hi : Int := if signed then (2 ^ (res - 1) : Nat) - 1 else (2 ^ res : Nat) - 1
  (min (max q lo) hi, decide (q < lo) || decide (hi < q))

/-- The sample word of a code (R276). -/
def sampleWord (cfg : Word) (code : Int) : Word :=
  if bit cfg 4 then BitVec.ofInt 20 (code * (2 ^ (20 - resBits cfg) : Nat)) else BitVec.ofInt 20 code

/-- The code that a sample word holds (R276, R289). -/
def sampleCode (cfg : Word) (signed : Bool) (w : Word) : Int :=
  let v : Int := if signed then w.toInt else w.toNat
  if bit cfg 4 then v / (2 ^ (20 - resBits cfg) : Nat) else v

/-- The flag nibble (R277): OVR, OPEN, REPLAY, GAP. -/
def flagNibble (ovr opn replay gap : Bool) : BitVec 4 :=
  BitVec.ofNat 4 (8 * b2n ovr + 4 * b2n opn + 2 * b2n replay + b2n gap)

/-- The OPEN indication of a channel (R277, R343, R348). -/
def openFlag (mode : Nat) (x : Slice) : Bool :=
  if isDigIn mode || isSwitch mode then x.opened || x.openedOn
  else if mode = mAiV ∨ mode = mAiI ∨ mode = mAoI then x.aOpen else false

/-- NE43 band of a trimmed value scaled by 2^24 (R353). -/
def bandOf (x : Int) : BitVec 3 :=
  if x < 144000 * 2 ^ 24 then 4
  else if x < 152000 * 2 ^ 24 then 2
  else if x ≤ 820000 * 2 ^ 24 then 1
  else if x ≤ 840000 * 2 ^ 24 then 3
  else 5

end Sys2Proof.Machine
end

