-- ==== Sys2Proof/Machine/Operands.lean ====
section
/-! DEFINITION. Operand forms of the packets: channel masks and configuration blocks (10_channels_digital R309, R310),
CHAN_SET items (R311), trellis entries (08 R238, R239), GROUP_CMD items (12 R398). -/

namespace Sys2Proof.Machine

/-! ### Channel masks -/

/-- Whether three mask words name channel n (R309). -/
def inMask (m0 m1 m2 : Word) (n : Chan) : Bool :=
  if n.val < 20 then bit m0 n.val else if n.val < 40 then bit m1 (n.val - 20) else bit m2 (n.val - 40)

def maskChans (m0 m1 m2 : Word) : List Chan := chans.filter (inMask m0 m1 m2)

/-- A mask that names no channel, or has a bit above channel 47, is out of range (R309, R314). -/
def maskBad (m0 m1 m2 : Word) : Bool := (maskChans m0 m1 m2).isEmpty || fld m2 8 12 != 0

/-! ### Configuration blocks -/

/-- A configuration block (R309): its header and its data words. -/
structure CfgBlock where
  head : Word
  data : List Word
deriving DecidableEq, Repr

def CfgBlock.first (b : CfgBlock) : Nat := fld b.head 0 6
def CfgBlock.num (b : CfgBlock) : Nat := fld b.head 6 6

/-- The header is in range (R309). -/
def CfgBlock.ok (b : CfgBlock) : Bool := b.num != 0 && b.first + b.num ≤ 64 && fld b.head 12 8 == 0

/-- Parse words into blocks (R310); none when the parse does not end at the end of the payload. -/
def parseBlocks : Nat → List Word → Option (List CfgBlock)
  | _, [] => some []
  | 0, _ => none
  | f + 1, h :: l =>
    let k := fld h 6 6
    if l.length < k then none
    else (parseBlocks f (l.drop k)).map fun r => { head := h, data := l.take k } :: r

/-! ### CHAN_SET items -/

/-- One item (R311): its command word and its value word. -/
structure SetItem where
  cmd : Word
  val : Word
deriving DecidableEq, Repr

def SetItem.ch (i : SetItem) : Nat := fld i.cmd 0 6
def SetItem.op (i : SetItem) : Nat := fld i.cmd 6 4

/-- Items of a payload (R311); none when a value word is missing. -/
def parseItems : List Word → Option (List SetItem)
  | [] => some []
  | c :: l =>
    if fld c 6 4 = 4 ∨ fld c 6 4 = 5 then
      match l with
      | [] => none
      | v :: l => (parseItems l).map fun r => { cmd := c, val := v } :: r
    else (parseItems l).map fun r => { cmd := c, val := 0 } :: r

/-! ### Trellis entries -/

def entAction (w1 : Word) : Nat := fld w1 15 5
def entTarget (w1 : Word) : Nat := fld w1 9 6
def entArgA (w1 : Word) : Nat := fld w1 0 9

/-- Action codes (R239). -/
def aNop : Nat := 0
def aOn : Nat := 1
def aOff : Nat := 2
def aPulseT : Nat := 3
def aPulseA : Nat := 4
def aPwmOn : Nat := 5
def aPwmOff : Nat := 6
def aAoSet : Nat := 7
def aSample : Nat := 8
def aPanOpen : Nat := 9
def aPanClose : Nat := 10
def aMark : Nat := 11
def aDiLatch : Nat := 12

/-- Groups that a target names (R238, R240). -/
def targetGrps (t : Nat) : List Grp :=
  if h : t < 48 then [chanGrp ⟨t, h⟩] else if h : t - 48 < 6 then [⟨t - 48, h⟩] else if t = 63 then groups else []

/-- Channels of a group that a target names. -/
def targetLidxs (t : Nat) (g : Grp) : List Lidx :=
  if h : t < 48 then (if chanGrp ⟨t, h⟩ = g then [chanLidx ⟨t, h⟩] else [])
  else if t = 48 + g.val ∨ t = 63 then lidxs else []

/-- Whether an action acts on a channel mode (R239). -/
def actsOn (action mode : Nat) : Bool :=
  match action with
  | 1 | 2 | 3 | 4 => mode = mDo
  | 5 | 6 => mode = mDoPwm
  | 7 => mode = mAoI
  | 8 => mode != mOff
  | 12 => isDigIn mode
  | _ => false

/-- Length of a PULSE_T in ticks (R241). -/
def pulseTicks (w1 w2 : Word) : Nat :=
  let u := match entArgA w1 with | 0 => 10 | 1 => 1000 | _ => 100000
  (w2.toNat * u * 2 + 4) / 8

/-! ### Runs of REG_READ and GROUP_CMD -/

/-- One item of GROUP_CMD (R398). -/
def grpItemGroup (w : Word) : Nat := fld w 0 3
def grpItemOp (w : Word) : Nat := fld w 3 2

/-- Items are in range, and the items of each group stand together in ascending group order (R398). -/
def grpItemsOk (l : List Word) : Bool :=
  l.all (fun w => grpItemGroup w ≤ 5 && grpItemOp w ≤ 2 && fld w 5 15 == 0)
    && (l.zip (l.drop 1)).all fun p => grpItemGroup p.1 ≤ grpItemGroup p.2

/-- Address–value pairs. -/
def pairsOf : List Word → List (Word × Word)
  | a :: v :: l => (a, v) :: pairsOf l
  | _ => []

end Sys2Proof.Machine
end

