-- ==== Sys2Proof/Machine/Digital.lean ====
section
/-! DEFINITION. Events of the digital slices (10_channels_digital): input edges, counting and frequency, diagnostics, limit
and group current guard, thermal latch, retry, inrush, PWM. Each acts only where its condition stands (log entry 2). -/

namespace Sys2Proof.Machine

/-- A change that happens on a field die with its supply present. -/
def onDie (g : Grp) (b : Bool) (f : State → State) (s : State) : Res :=
  .next (if (fdie s g).powered && b then f s else s)

def onSlice (n : Chan) (b : Bool) (f : State → State) (s : State) : Res := onDie (chanGrp n) b f s

/-! ### Inputs -/

/-- Whether a filtered edge counts (R320). -/
def countsEdge (s : State) (n : Chan) (rise : Bool) : Bool :=
  dieMode s n = mDiCount && (match fld (dieCh s n .cntcfg) 0 2 with | 0 => rise | 1 => !rise | _ => true)

/-- Gate time in ticks; 0 when no frequency is measured (R321). -/
def gateTicks (s : State) (n : Chan) : Nat :=
  let k := fld (dieCh s n .cntcfg) 2 4
  if k = 0 then 0 else 2 ^ (k - 1) * ms

/-- Reciprocal counting at a counted edge (R321). -/
def freqEdge (n : Chan) (s : State) : State :=
  let g := gateTicks s n
  let x := slc s n
  let t := s.now
  if g = 0 then s
  else match x.fStart with
    | none => modSlice n (fun x => { x with fStart := some t, fK := 0 }) s
    | some t0 =>
      let k := x.fK + 1
      if g ≤ t - t0 then
        digEvt n 8 (modSlice n (fun x => { x with
          fper := BitVec.ofNat 40 (roundDiv (16 * (t - t0) : Nat) k).toNat, fedg := BitVec.ofNat 20 (min k 0xFFFFF)
          noFreq := false, fStart := some t, fK := 0 }) s)
      else modSlice n (fun x => { x with fK := k }) s

/-- An edge of the filtered input (R317, R318, R320, R321). -/
def diEdge (n : Chan) (level : Bool) (s : State) : State :=
  let s := modSlice n (fun x => { x with inp := level, comp := level, opened := x.opened && !level }) s
  let s := digEvt n (if level then 0 else 1) s
  if countsEdge s n level then freqEdge n (modSlice n (fun x => { x with cnt := x.cnt + 1 }) s) else s

/-- DI_EDGE (R317): the filtered state of a channel in DI or DI_COUNT changes. -/
def execDiEdge (n : Chan) (level : Bool) (s : State) : Res :=
  onSlice n (isDigIn (dieMode s n) && (slc s n).inp != level) (diEdge n level) s

/-- CASK_DISELk selects a channel (R509). -/
def diSelected (s : State) (n : Chan) : Bool :=
  inMask (cfgGet s (.caskDisel 0)) (cfgGet s (.caskDisel 1)) (cfgGet s (.caskDisel 2)) n

/-- RAW_DI_TRANSITION (R509, R517): the comparator of a channel in DI or DI_COUNT changes level. During replay the recorded
transitions stand in its place (R533). -/
def execRawDiTransition (n : Chan) (level : Bool) (s : State) : Res :=
  onSlice n (isDigIn (dieMode s n) && (slc s n).comp != level && s.cask.st != .replaying) (fun s =>
    let s := modSlice n (fun x => { x with comp := level }) s
    if (lnk s (chanGrp n)).st = .up ∧ diSelected s n then recNow 0x04 (n.val + 64 * b2n level) [] s else s) s

/-- FREQ_TIMEOUT (R321): no edge has ended the measurement within 16·G of its start. -/
def execFreqTimeout (n : Chan) (s : State) : Res :=
  match (slc s n).fStart with
  | none => .next s
  | some t0 =>
    onSlice n (dieMode s n = mDiCount && gateTicks s n != 0) (fun s =>
      modSlice n (fun x => { x with fStart := none, fK := 0, fper := 0, fedg := 0, noFreq := true })
        (reach (t0 + 16 * gateTicks s n) s)) s

/-! ### Diagnostics -/

/-- Whether the diagnostic comparator serves an input test now (R318). -/
def testTurn (s : State) (n : Chan) (wb : Bool) : Bool :=
  let w := dieCh s n .dicfg
  !(bit w 11 && bit w 12) || (slc s n).wbTurn == wb

/-- The condition may be judged (R318, R339 to R342). -/
def diagJudged (s : State) (n : Chan) (c : DigDiag) : Bool :=
  let m := dieMode s n
  let x := slc s n
  let di := dieCh s n .dicfg
  let dg := dieCh s n .diag
  match c with
  | .wireBreak => isDigIn m && bit di 11 && !x.inp && testTurn s n true
  | .inputShort => isDigIn m && bit di 12 && testTurn s n false
  | .openOff => isSwitch m && bit dg 10 && !x.out
  | .shortVf => isSwitch m && bit dg 11 && !x.out
  | .openOn => isSwitch m && fld dg 12 6 != 0 && (x.out || x.pwm)
  | .swFail => isSwitch m && !x.cmd && !x.out && x.offSince + ms ≤ s.now

/-- The flag that a condition sets (R345). -/
def diagFlag (x : Slice) : DigDiag → Bool
  | .wireBreak | .openOff => x.opened
  | .inputShort | .shortVf => x.shorted
  | .openOn => x.openedOn
  | .swFail => x.swFail

def setDiag (c : DigDiag) (b : Bool) (x : Slice) : Slice :=
  match c with
  | .wireBreak | .openOff => { x with opened := b }
  | .inputShort | .shortVf => { x with shorted := b }
  | .openOn => { x with openedOn := b }
  | .swFail => { x with swFail := b }

/-- A condition found: its event, and for a failed switch the fault of R342. -/
def diagFound (n : Chan) (c : DigDiag) (s : State) : State :=
  let s := modSlice n (setDiag c true) s
  match c with
  | .wireBreak | .openOff | .openOn => digEvt n 5 s
  | .inputShort | .shortVf => digEvt n 6 s
  | .swFail => addReport (chanGrp n) (.fault 6 (BitVec.ofNat 6 n.val)) (digEvt n 7 s)

/-- An injection holds a condition of a channel (R556): 6 of the group, 12/2 or 12/3. -/
def diagHeld (s : State) (n : Chan) (c : DigDiag) : Bool :=
  match c with
  | .swFail => injStimAt s (chanGrp n).val 6 n.val
  | .wireBreak | .openOff | .openOn => injRuns s 12 2 n.val
  | .inputShort | .shortVf => injRuns s 12 3 n.val

/-- A held condition has been given to its detector. -/
def diagGiven (c : DigDiag) (held : Bool) (s : State) : State := if held ∧ c = .swFail then injGiven s else s

/-- DIAG_TIMER (R318, R339 to R342): a condition has been present, or absent, for DIAG_T. -/
def execDiagTimer (n : Chan) (c : DigDiag) (present : Bool) (s : State) : Res :=
  let held := diagHeld s n c
  if present || held then
    onSlice n (diagJudged s n c && !diagFlag (slc s n) c) (fun s => diagGiven c held (diagFound n c s)) s
  else onSlice n (diagFlag (slc s n) c) (modSlice n (setDiag c false)) s

/-- DIAG_THRESHOLD_SWAP (R318): with both input tests enabled the comparator takes the other threshold. -/
def execDiagThresholdSwap (n : Chan) (s : State) : Res :=
  onSlice n (isDigIn (dieMode s n) && bit (dieCh s n .dicfg) 11 && bit (dieCh s n .dicfg) 12)
    (modSlice n fun x => { x with wbTurn := !x.wbTurn }) s

/-! ### Protection -/

/-- LIMIT_TIMER_TRIP (R325): the limit timer reaches T_LIM; it runs outside the inrush window (R324). -/
def execLimitTimerTrip (n : Chan) (s : State) : Res :=
  onSlice n (isSwitch (dieMode s n) && (slc s n).out && (slc s n).inrushEnd.isNone) (tripSwitch n) s

/-- Channels that the group current guard sums: DO and DO_PWM with the inrush window closed (R326). -/
def guarded (s : State) (g : Grp) : List Chan :=
  (lidxs.map (chanOf g)).filter fun n => isSwitch (dieMode s n) && (slc s n).inrushEnd.isNone

/-- The channel with the highest current, the lowest index winning a tie (R326). -/
def highest (s : State) : List Chan → Option Chan
  | [] => none
  | n :: l => match highest s l with
    | some k => if (slc s n).curMa < (slc s k).curMa then some k else some n
    | none => some n

/-- Currents measured at a step: what a switch carries, and whether it holds at its limit (R324, R345). -/
def takeCurrents (g : Grp) (mA : Vector Nat 8) (s : State) : State :=
  foldSt lidxs (fun l s =>
    let n := chanOf g l
    let lim := limitNow s n
    modSlice n (fun x => { x with
      curMa := mA[l], sqSum := if x.pwm then x.sqSum + mA[l] * mA[l] else 0, sqN := if x.pwm then x.sqN + 1 else 0
      limiting := isSwitch (dieMode s n) && x.out && decide (0 < lim ∧ lim ≤ mA[l]) }) s) s

/-- One step of the group current guard (R326); an injection stands for the sum (R556). It trips when the sum has been above 8 A at every step of 1 ms. -/
def guardStep (g : Grp) (mA : Vector Nat 8) (s : State) : State :=
  let s := takeCurrents g mA s
  let l := guarded s g
  let sum := if injRuns s 12 6 g.val then 9000 else (l.map fun n => (slc s n).curMa).foldl (· + ·) 0
  if 8000 < sum then
    if 100 ≤ (fdie s g).guard then
      match highest s l with
      | some n => modField g (fun d => { d with guard := 0 }) (digEvt n 10 (tripSwitch n s))
      | none => s
    else modField g (fun d => { d with guard := d.guard + 1 }) s
  else modField g (fun d => { d with guard := 0 }) s

/-- GUARD_STEP (R326). -/
def execGuardStep (g : Grp) (mA : Vector Nat 8) (s : State) : Res := onDie g true (guardStep g mA) s

/-- The thermal latch sets (R328). -/
def thermSet (n : Chan) (s : State) : State :=
  let out := (slc s n).out
  let s := digEvt n 4 (modSlice n (fun x => { x with therm := true, pauseEnd := none }) s)
  if out then tripSwitch n s else s

/-- THERMAL_LATCH_SET (R328): the junction reaches 175 °C. -/
def execThermalLatchSet (n : Chan) (s : State) : Res := onSlice n (!(slc s n).therm) (thermSet n) s

/-- The thermal latch clears (R328): a pause starts again, a stored command takes effect. -/
def thermClear (n : Chan) (s : State) : State :=
  let s := modSlice n (fun x => { x with therm := false }) s
  let x := slc s n
  match x.retry with
  | .pause =>
    let p := pauseOf s n
    modSlice n (fun x => { x with pauseEnd := some (s.now + p) }) s
  | .normal => if x.cmd ∧ isSwitch (dieMode s n) then reStart n false s else s
  | .latched => s

/-- THERMAL_LATCH_CLEAR (R328): the junction has cooled to 155 °C; not while an injection reads 180 °C (R556). -/
def execThermalLatchClear (n : Chan) (s : State) : Res :=
  onSlice n ((slc s n).therm && !injRuns s 12 5 n.val) (thermClear n) s

/-- RETRY_PAUSE_END (R327): the pause timer expires. -/
def execRetryPauseEnd (n : Chan) (s : State) : Res :=
  match (slc s n).pauseEnd with
  | none => .next s
  | some t => onSlice n ((slc s n).retry = .pause) (fun s => pauseOver n (reach t s)) s

/-- RETRY_COUNT_RESET (R327): 4 s of conduction without a trip. -/
def execRetryCountReset (n : Chan) (s : State) : Res :=
  onSlice n (isSwitch (dieMode s n) && (if dieMode s n = mDoPwm then (slc s n).pwm else (slc s n).out)) (fun s =>
    modSlice n (fun x => { x with r := 0 }) (reach ((slc s n).onSince + 4000 * ms) s)) s

/-- INRUSH_WINDOW_END (R324). -/
def execInrushWindowEnd (n : Chan) (s : State) : Res :=
  match (slc s n).inrushEnd with
  | none => .next s
  | some t => onSlice n true (fun s => modSlice n (fun x => { x with inrushEnd := none }) (reach t s)) s

/-! ### PWM -/

/-- Ticks to the next edge or period start of a running pattern (R333). -/
def pwmWait (s : State) (n : Chan) : Nat :=
  let x := slc s n
  if x.pwmOn ∧ x.duty < pwmPer s n then x.duty - pwmPos s n else pwmPer s n - pwmPos s n

/-- The pattern reaches its next edge: the off-edge, or a period start, which takes a new D (R335). -/
def pwmNext (n : Chan) (s : State) : State :=
  let off := (slc s n).pwmOn && decide ((slc s n).duty < pwmPer s n)
  let s := reach (s.now + pwmWait s n) s
  if off then switchGap n (modSlice n (fun x => { x with pwmOn := false }) s)
  else
    let d := (dieCh s n .pwmduty).toNat * pwmUnit (dieCh s n .pwmcfg)
    pwmPhase n (modSlice n (fun x => { x with
      duty := d, msq := if x.sqN = 0 then x.msq else x.sqSum / x.sqN, sqSum := 0, sqN := 0 }) s)

/-- PWM_EDGE (R333, R328, R336). -/
def execPwmEdge (n : Chan) (s : State) : Res :=
  onSlice n (dieMode s n = mDoPwm && (slc s n).pwm && (slc s n).hitEnd.isNone && pwmPer s n != 0) (pwmNext n) s

/-- PWM_HIT_END (R334): the pattern goes on from the instant the hit phase ends. -/
def execPwmHitEnd (n : Chan) (s : State) : Res :=
  match (slc s n).hitEnd with
  | none => .next s
  | some t => onSlice n (slc s n).pwm (fun s =>
      let s := reach t s
      pwmPhase n (modSlice n (fun x => { x with hitEnd := none, anchor := s.now }) s)) s

/-- SAFE_HOLD_END (R390): a SAFE_HOLD timer ends. -/
def execSafeHoldEnd (n : Chan) (s : State) : Res :=
  match (slc s n).holdEnd with
  | none => .next s
  | some t => onSlice n true (fun s => outputOff n (modSlice n (fun x => { x with holdEnd := none }) (reach t s))) s

end Sys2Proof.Machine
end

