-- ==== Sys2Proof/Machine/Analog.lean ====
section
/-! DEFINITION. Events of the analog slices (11_channels_analog R346 to R361): the monitor converter, the timed indications,
compliance, and headroom control of a group. -/

namespace Sys2Proof.Machine

/-- MONITOR_STEP (R347): the monitor converter's results. A digital input's pin voltage is measured for the governor (R403). -/
def execMonitorStep (n : Chan) (imon : BitVec 12) (vpin : BitVec 8) (s : State) : Res :=
  onSlice n (isAnalog (dieMode s n) n || isDigIn (dieMode s n)) (modSlice n fun x => { x with imon := imon, vpin := vpin }) s

/-- The condition may be judged in the mode in force (R346, R353, R358). -/
def anaJudged (s : State) (n : Chan) (c : AnaDiag) : Bool :=
  let m := dieMode s n
  let w := dieCh s n .acfg
  if m = mAiV then bit w 2
  else if m = mAiI then bit w 1
  else if m = mAoI then
    match c with
    | .opened => 20000 ≤ (slc s n).code.toNat && !(slc s n).aShort
    | .shorted => true
  else false

def setAna (c : AnaDiag) (b : Bool) (x : Slice) : Slice :=
  match c with
  | .opened => { x with aOpen := b }
  | .shorted => { x with aShort := b }

def anaFlag (x : Slice) : AnaDiag → Bool
  | .opened => x.aOpen
  | .shorted => x.aShort

/-- ANALOG_DIAG_TIMER (R348, R358): a condition has held, or has been absent, for ADIAG_T. A pin at VFg sets SHORT and
never OPEN. -/
def execAnalogDiagTimer (n : Chan) (c : AnaDiag) (present : Bool) (s : State) : Res :=
  if present || injRuns s 12 (match c with | .opened => 2 | .shorted => 3) n.val then
    onSlice n (anaJudged s n c && !anaFlag (slc s n) c)
      (fun s => anaEvt n (match c with | .opened => 0 | .shorted => 1) (modSlice n (setAna c true) s)) s
  else onSlice n (anaFlag (slc s n) c) (modSlice n (setAna c false)) s

/-- COMPLIANCE_TIMER (R357): the output stage has been saturated, or out of saturation, for 100 µs. -/
def execComplianceTimer (n : Chan) (saturated : Bool) (s : State) : Res :=
  onSlice n (dieMode s n = mAoI && (slc s n).compl != saturated) (fun s =>
    let s := modSlice n (fun x => { x with compl := saturated }) s
    if saturated then anaEvt n 2 s else s) s

/-! ### Headroom control (R359 to R361) -/

/-- Channels that headroom control counts (R360). -/
def hrChans (s : State) (g : Grp) : List Chan :=
  (lidxs.map (chanOf g)).filter fun n =>
    let x := slc s n
    dieMode s n = mAoI && bit (dieCh s n .acfg) 7 && !x.aOpen && !x.aShort && x.code != 0

/-- v(n) of R360 in units of 0.2 V, to the nearest unit (log entry 24). -/
def needOf (x : Slice) : Nat :=
  if 125 ≤ x.imon.toNat then
    (roundDiv (x.vpin.toNat * x.code.toNat * 25 : Nat) (x.imon.toNat * 8000)).toNat
  else x.vpin.toNat

/-- HR_MIN and HR_MAX in units of 0.2 V (R374). -/
def hrMin (w : Word) : Nat := 5 * (18 + fld w 1 5)
def hrMax (w : Word) : Nat := 5 * (18 + fld w 6 5)

/-- Headroom control drives HRCg (R359). -/
def hrOn (s : State) (g : Grp) : Bool := bit (dieReg s g (.grp g .hrcfg)) 0 && !(fdie s g).parked

/-- One step of the headroom controller (R360, R361): the target, the channels that need more than HR_MAX, and the measured
supply and drive. With EN = 0 HRCg is released. -/
def headroomStep (g : Grp) (vfg : BitVec 8) (drive : BitVec 12) (s : State) : State :=
  let w := dieReg s g (.grp g .hrcfg)
  let l := hrChans s g
  let beyond := fun n => decide (hrMax w < needOf (slc s n) + 10)
  if hrOn s g then
    let need := maxNat (l.map fun n => needOf (slc s n))
    let s := foldSt (lidxs.map (chanOf g)) (fun n s => modSlice n (fun x => { x with hrLim := l.contains n && beyond n }) s) s
    modField g (fun d => { d with
      vfg := vfg, target := BitVec.ofNat 8 (min (max (need + 10) (hrMin w)) (hrMax w)), drive := drive, driven := true
      atMax := decide (hrMax w < need + 10) }) s
  else
    let s := foldSt (lidxs.map (chanOf g)) (fun n s => modSlice n (fun x => { x with hrLim := false }) s) s
    modField g (fun d => { d with vfg := vfg, target := 0, drive := 0, driven := false, atMax := false }) s

/-- HEADROOM_STEP (R360). An injection of 12/1 reads VFg as 15.0 V (R556). -/
def execHeadroomStep (g : Grp) (vfg : BitVec 8) (drive : BitVec 12) (s : State) : Res :=
  onDie g true (headroomStep g (if injRuns s 12 1 g.val then 75 else vfg) drive) s

/-- HR_ERR_TIMER (R361): VFg has been away from the target, or within 1 V of it, for 20 ms. -/
def execHrErrTimer (g : Grp) (away : Bool) (s : State) : Res :=
  onDie g (hrOn s g && (fdie s g).hrErr != away) (fun s =>
    let s := modField g (fun d => { d with hrErr := away }) s
    if away then addReport g (.grp 5) s else s) s

/-- HRSTAT and HRDRV as the die reports them (R374). -/
def hrStatOf (d : Field) : Word :=
  pack [(0, d.target.toNat), (8, d.vfg.toNat), (16, b2n d.hrErr), (17, b2n d.atMax)]
def hrDrvOf (d : Field) : Word := pack [(0, d.drive.toNat), (12, b2n d.driven)]

end Sys2Proof.Machine
end

