-- ==== Sys2Proof/Machine/FieldDie.lean ====
section
/-! DEFINITION. What a field die does with the frames it receives (12_field_links, 08_trellis_sequencer R261, R265, R269):
configuration, safe states, withdrawals, and the stamped actions of its scheduler. -/

namespace Sys2Proof.Machine

/-! ### Configuration messages -/

/-- Channel n of a group, for each local index. -/
def grpChans (g : Grp) : List Chan := lidxs.map (chanOf g)

/-- Registers of a message take effect together in one clock (R310): the words, then what a changed MODE, LOOP or EXC does
(R308, R349), and the watchdog time (R388). -/
def dieWrite (g : Grp) (pairs : List (Nat × Word)) (s : State) : State :=
  let modes := (grpChans g).map (dieMode s)
  let acfgs := (grpChans g).map fun n => dieCh s n .acfg
  let s := foldSt pairs (fun p s =>
    modField g (fun d => { d with cfg := insertKey p.1 p.2 (p.2 != 0) d.cfg }) s) s
  let s := foldSt ((grpChans g).zip (modes.zip acfgs)) (fun x s =>
    let n := x.1
    let m := dieMode s n
    let w := dieCh s n .acfg
    if m ≠ x.2.1 then modeChanged n s
    else if (m = mAiI ∧ bit w 0 ≠ bit x.2.2 0) ∨ (m = mAiV ∧ bit w 2 ≠ bit x.2.2 2) then clearAnalog n s
    else s) s
  match pairs.find? fun p => p.1 = (Reg.grp g .lcfg).addr with
  | some p => modField g (fun d => { d with wdTime := p.2.toNat }) s
  | none => s

/-- A host value or act reaches its channel (R387, R392): values act in NORMAL frames only, and end a safe state. -/
def hostAct (n : Chan) (op : HostOp) (normal : Bool) (s : State) : State :=
  let m := dieMode s n
  let own := fun (s : State) => modSlice n (fun x => { x with owner := .host }) (endSafe n s)
  match op with
  | .cntClr => if m = mDiCount then modSlice n (fun x => { x with cnt := 0 }) s else s
  | .clrLatch => if isSwitch m then clrLatch n s else s
  | .off => if normal ∧ m = mDo then doCmd n false (own s) else s
  | .on => if normal ∧ m = mDo then doCmd n true (own s) else s
  | .pwmOff => if normal ∧ m = mDoPwm then pwmCmd n false 0 (own s) else s
  | .pwmOn sh => if normal ∧ m = mDoPwm then pwmCmd n true sh (own s) else s
  | .aoSet c => if normal ∧ m = mAoI then setCode n c (own s) else s

/-- A configuration message takes effect (R307, R363, R173). -/
def dieConf (g : Grp) (normal : Bool) (m : ConfMsg) (s : State) : State :=
  match m with
  | .regs ps none => dieWrite g ps s
  | .regs ps (some t) =>
    if t ≤ dieTime s then dieWrite g ps s else modField g (fun d => { d with staged := d.staged ++ [(ps, t)] }) s
  | .host l op => hostAct (chanOf g l) op normal s
  | .trim l set z k => modSlice (chanOf g l) (fun x => { x with trims := x.trims.set set (z, k) }) s

/-- Configuration staged for an instant that has come (R173). -/
def dieStaged (g : Grp) (s : State) : State :=
  let t := dieTime s
  let due := (fdie s g).staged.filter fun x => x.2 ≤ t
  foldSt due (fun x s => dieWrite g x.1 s)
    (modField g (fun d => { d with staged := d.staged.filter fun x => t < x.2 }) s)

/-! ### Conversions asked for -/

/-- Channels triggered at a stamp; equal stamps make one conversion that serves every source (R281). -/
def addTrigs (g : Grp) (ls : List Lidx) (stamp : Nat) (src : BitVec 3) (s : State) : State :=
  modField g (fun d => { d with trigs := ls.foldl (fun ts l =>
    if ts.any (fun t => t.l = l ∧ t.stamp = stamp) then
      ts.map (fun t => if t.l = l ∧ t.stamp = stamp then { t with src := t.src ||| src } else t)
    else ts ++ [{ l := l, stamp := stamp, src := src }]) d.trigs }) s

/-- The logic die expects the samples of a trigger (R279). -/
def addExpect (g : Grp) (ls : List Lidx) (stamp : Nat) (src : BitVec 3) (s : State) : State :=
  let mask : BitVec 8 := ls.foldl (fun m l => setBit m l.val true) 0
  let same := fun (e : Grp × Nat × BitVec 8 × BitVec 3) => e.1 = g && e.2.1 = stamp && e.2.2.2 = src
  let l := s.smp.expect
  let l := if l.any same then l.map fun e => if same e then (g, stamp, e.2.2.1 ||| mask, src) else e
    else l ++ [(g, stamp, mask, src)]
  modSmp (fun x => { x with expect := l }) s

/-- A trigger of a group's channels at a stamp. -/
def trigger (g : Grp) (ls : List Lidx) (stamp : Nat) (src : BitVec 3) (s : State) : State :=
  if ls.isEmpty then s else addExpect g ls stamp src (addTrigs g ls stamp src s)

def srcTrellis : BitVec 3 := 1
def srcTime : BitVec 3 := 2
def srcCommand : BitVec 3 := 4

/-! ### Stamped actions -/

/-- Local channels of a SAMPLE mask. -/
def maskLidxs (m : Nat) : List Lidx := lidxs.filter fun l => (m >>> l.val) % 2 = 1

/-- A trellis action of a bank armed before the channel's safe state does not end it (R392, R85). -/
def safeBars (s : State) (n : Chan) (bank : Bool) : Bool :=
  (slc s n).safe && decide ((bnk s (if bank then 1 else 0)).armedAt < (slc s n).safeAt)

/-- Channels of a group on which an action acts (R240). -/
def actChans (s : State) (g : Grp) (action target : Nat) : List Chan :=
  ((targetLidxs target g).map (chanOf g)).filter fun n => actsOn action (dieMode s n)

/-- The trellis sets an output (R269, R392). -/
def trellisSets (n : Chan) (timeBank : Bool) (s : State) : State :=
  modSlice n (fun x => { x with owner := if timeBank then .time else .angle }) (endSafe n s)

/-- DI_LATCH (R319). -/
def diLatch (n : Chan) (stamp : Nat) (s : State) : State :=
  let m := dieMode s n
  digEvt n 9 (modSlice n (fun x => { x with
    lstate := BitVec.ofNat 2 (b2n x.inp + 2), lcnt := if m = mDiCount then x.cnt else 0, lstamp := stamp }) s)

/-- What an action does to one channel. -/
def actOne (m : SchedMsg) (n : Chan) (s : State) : State :=
  match m.action.toNat with
  | 12 => diLatch n m.stamp s
  | a =>
    if safeBars s n m.bank then s
    else
      let s := trellisSets n m.timeBank s
      match a with
      | 1 => doCmd n true s
      | 2 => doCmd n false s
      | 3 | 4 => doCmd n true (modSlice n (fun x => { x with pulses := x.pulses ++ [m.id] }) s)
      | 5 => pwmCmd n true 0 s
      | 6 => pwmCmd n false 0 s
      | 7 => setCode n m.arg s
      | _ => s

def isPulse (m : SchedMsg) : Bool := m.action = 3 || m.action = 4

/-- The end of a pulse (R241, R242): its channels switch off. -/
def pulseEnd (g : Grp) (m : SchedMsg) (s : State) : State :=
  foldSt ((targetLidxs m.target.toNat g).map (chanOf g)) (fun n s =>
    if (slc s n).pulses.contains m.id then
      doCmd n false (modSlice n (fun x => { x with pulses := x.pulses.filter (· != m.id) }) s)
    else s) s

/-- The slot of an action becomes free and is reported. -/
def freeSlot (g : Grp) (m : SchedMsg) (s : State) : State :=
  addReport g (.slotFree m.id)
    (modField g (fun d => { d with slots := d.slots.filter fun x => x.id != m.id }) s)

/-- An action executes at its field die (R387). A pulse keeps its slot until its end. -/
def execAct (g : Grp) (m : SchedMsg) (s : State) : State :=
  if m.running then freeSlot g m (pulseEnd g m s)
  else
      if m.action = 8 then
      freeSlot g m (trigger g (maskLidxs m.mask.toNat) m.stamp srcTrellis s)
    else
      let s := foldSt (actChans s g m.action.toNat m.target.toNat) (actOne m) s
      if isPulse m then
        modField g (fun d => { d with slots := d.slots.map fun x =>
          if x.id = m.id then { x with running := true, stamp := m.endStamp.getD m.stamp } else x }) s
      else freeSlot g m s

/-- A late action that is dropped (R261, R281): the samples it would have brought are GAP. -/
def dropLate (g : Grp) (m : SchedMsg) (s : State) : State :=
  let s := freeSlot g m (addReport g (.late m.id true) s)
  if m.action = 8 then
    let ls := maskLidxs m.mask.toNat
    addExpect g ls m.stamp srcTrellis s
  else s

/-- Lateness of a first message that has become usable (R261). -/
def judgeLate (g : Grp) (m : SchedMsg) (s : State) : State :=
  let t := dieTime s
  if t + 250 ≤ m.stamp then s
  else if t < m.stamp then addReport g (.late m.id false) s
  else if m.action = 8 ∨ m.action = 12 then dropLate g m s
  else if isPulse m ∧ m.endStamp.getD m.stamp ≤ t then dropLate g m s
  else execAct g m (addReport g (.late m.id false) s)

/-- A first message (R386): refused with a fault when its slot is occupied, or an injection says so (R556). -/
def placeFirst (g : Grp) (m : SchedMsg) (s : State) : State :=
  let inj := (injStim s g.val 5).isSome
  if (fdie s g).slots.any (fun x => x.slot = m.slot) || inj then
    addReport g (.fault 5 (BitVec.ofNat 6 m.slot.val)) (whenSt inj injGiven s)
  else judgeLate g m (modField g (fun d => { d with slots := d.slots ++ [{ m with running := false }] }) s)

/-- A refinement (R259, R386): it replaces the stamp, or a pulse's end, that has not reached its commit horizon. -/
def refine (g : Grp) (m : SchedMsg) (s : State) : State :=
  let t := dieTime s
  modField g (fun d => { d with slots := d.slots.map fun x =>
    if x.id = m.id then
      let e := match x.endStamp, m.endStamp with
        | some a, some b => if t + 250 ≤ a then some b else some a
        | a, _ => a
      if x.running then { x with endStamp := e, stamp := e.getD x.stamp }
      else if t + 250 ≤ x.stamp then { x with stamp := m.stamp, endStamp := e }
      else { x with endStamp := e }
    else x }) s

/-- A schedule message becomes usable at its field die. -/
def dieSched (g : Grp) (m : SchedMsg) (s : State) : State :=
  if (fdie s g).ranged then
    (if m.first then placeFirst g m s
     else if (fdie s g).slots.any (fun x => x.id = m.id) then refine g m s
     else if m.again then placeFirst g m s else s)
  else s

/-! ### Withdrawals, safe states, link loss -/

/-- The trellis-off state of a channel (R265). -/
def trellisOff (n : Chan) (s : State) : State :=
  let k := n.val / 20
  let w := dieReg s (chanGrp n) (.toff (if k = 0 then 0 else if k = 1 then 1 else 2))
  if bit w (n.val % 20) then s else outputOff n s

/-- Actions of an extent are discarded: pulses that are on end (R265). -/
def dieDiscard (g : Grp) (e : Extent) (s : State) : State :=
  let gone := (fdie s g).slots.filter fun m => inExtent e m.timeBank
  let s := modField g (fun d => { d with slots := d.slots.filter fun m => !inExtent e m.timeBank }) s
  foldSt gone (fun m s => if m.running then pulseEnd g m s else s) s

/-- A withdrawal becomes usable at a field die (R265). -/
def dieWithdraw (g : Grp) (e : Extent) (s : State) : State :=
  let s := dieDiscard g e s
  foldSt (grpChans g) (fun n s =>
    match (slc s n).owner with
    | .angle => trellisOff n s
    | .time => if e = .all then trellisOff n s else s
    | _ => s) s

/-- A SAFE frame, or the expiry of the link watchdog (R84, R389, R391). Triggers that have not executed are withdrawn. -/
def dieSafe (g : Grp) (s : State) : State :=
  let s := dieDiscard g .all s
  foldSt (grpChans g) safeChan s

/-- The field die's link is lost (R384, R199): stamped actions are discarded, pulses end, outputs keep their values. -/
def dieLost (g : Grp) (s : State) : State :=
  let s := dieDiscard g .all s
  modField g (fun d => { d with
    linked := false, silentSince := s.now, ranged := false, lock := false, inRun := 0, outRun := 0, badRun := 0, staged := []
    trigs := [], samples := [], sentUp := [], again := [], lastDown := none, badDown := [], edges := [] }) s

/-! ### Execution -/

/-- Insert by table order. -/
def insEntry (m : SchedMsg) : List SchedMsg → List SchedMsg
  | [] => [m]
  | x :: l => if m.entry < x.entry then m :: x :: l else x :: insEntry m l

/-- Actions of one stamp in the order of R387: pulse ends, then table order. -/
def execOrder (l : List SchedMsg) : List SchedMsg :=
  l.filter (·.running) ++ (l.filter fun m => !m.running).foldl (fun acc m => insEntry m acc) []

/-- Least of a list. -/
def minNat : List Nat → Option Nat
  | [] => none
  | a :: l => match minNat l with
    | some b => some (min a b)
    | none => some a

/-- The next instant at which a field die has something to execute. -/
def nextDue (d : Field) : Option Nat := minNat (d.slots.map (·.stamp) ++ d.staged.map (·.2))

/-- Execute everything a field die holds for its next instant. -/
def runDue (g : Grp) (t : Nat) (s : State) : State :=
  let s := reach (s.now + (t - dieTime s)) s
  let s := dieStaged g s
  foldSt (execOrder ((fdie s g).slots.filter fun m => m.stamp ≤ t)) (execAct g) s

/-- ACTION_EXECUTE (R387): the field die executes the held actions of its next stamp. -/
def execActionExecute (g : Grp) (s : State) : Res :=
  match nextDue (fdie s g) with
  | none => .next s
  | some t => onDie g true (runDue g t) s

end Sys2Proof.Machine
end

