-- ==== Sys2Proof/Machine/Sampling.lean ====
section
/-! DEFINITION. Conversions and pans (09_sampling_pans R272 to R304): the conversion at the slice, the set at the logic die,
the pan engine, and the ADC records of the cask (18 R511, R517). -/

namespace Sys2Proof.Machine

/-! ### Conversions -/

/-- Configuration of a channel's converter as its field die holds it. -/
def smpCfgOf (s : State) (n : Chan) : Word := dieReg s (chanGrp n) (.smpCfg n)

/-- A completed conversion (R274 to R277, R283, R351, R353, R362). -/
def convert (n : Chan) (t : Trig) (x : Int) (pinOut : Bool) (s : State) : State :=
  let m := dieMode s n
  let cfg := smpCfgOf s n
  let sl := slc s n
  let v := if hasTrim m then trimIn sl.trims[trimSet m (fld cfg 0 2)] x else x * 2 ^ 24
  let signed := decide (m = mAiDiff)
  let (code, ovr) := codeOf (resBits cfg) signed v
  let smp : Sample :=
    { l := t.l, word := sampleWord cfg code, flags := flagNibble (ovr || (signed && pinOut)) (openFlag m sl) false false
      unlocked := !(fdie s (chanGrp n)).lock, src := t.src, stamp := t.stamp }
  let s := modField (chanGrp n) (fun d => { d with samples := d.samples ++ [smp] }) s
  let s := modSlice n (fun x => { x with lastConv := some t.stamp }) s
  let b : BitVec 3 := if m = mAiI ∧ bit (dieCh s n .acfg) 1 then bandOf v else 0
  if m = mAiI ∧ b ≠ sl.band then anaEvt n 3 (modSlice n (fun x => { x with band := b }) s) else s

/-- The trigger of a channel with the earliest stamp. -/
def firstTrig (l : List Trig) : Option Trig :=
  l.foldl (fun a t => match a with | some b => if t.stamp < b.stamp then some t else a | none => some t) none

/-- The next trigger of a channel is served at its stamp (R272, R280, R281). -/
def serveTrig (n : Chan) (t : Trig) (x : Int) (pinOut : Bool) (s : State) : State :=
  let g := chanGrp n
  let s := reach (s.now + (t.stamp - dieTime s)) s
  let s := modField g (fun d => { d with trigs := d.trigs.filter (· != t) }) s
  if !converts (dieMode s n) n then s
  else match (slc s n).lastConv with
    | some u => if t.stamp - u < 250 then addReport g (.busy t.l t.stamp) s else convert n t x pinOut s
    | none => convert n t x pinOut s

/-- CONVERSION (R272): the channel's next trigger; `x` is the converter result in 20-bit LSBs after the factory trims,
`pinOut` tells that a pin of an AI_DIFF pair lies outside its range (R351). -/
def execConversion (n : Chan) (x : Int) (pinOut : Bool) (s : State) : Res :=
  match firstTrig ((fdie s (chanGrp n)).trigs.filter fun t => t.l = chanLidx n) with
  | none => .next s
  | some t => onSlice n true (serveTrig n t x pinOut) s

/-! ### Triggers of the logic die -/

/-- States in which time and command triggers work (R279). -/
def trigState (s : State) : Bool := isState s [.config, .run, .maint, .safe]

/-- Ticks of the common sampling timer; 0 when it is off (R279). -/
def timerTicks (s : State) : Nat := (cfgGet s .smpTimer).toNat * 250

/-- Channels of a group that the timer instant with an index triggers (R279). -/
def timeChans (s : State) (g : Grp) (idx : Nat) : List Lidx :=
  lidxs.filter fun l =>
    let d := cfgFld s (.smpCfg (chanOf g l)) 5 8
    d != 0 && idx % d == 0

/-- SAMPLE_TIMER_INSTANT (R279): the next timer instant. -/
def execSampleTimerInstant (s : State) : Res :=
  let p := timerTicks s
  if p ≠ 0 ∧ trigState s ∧ s.pw.tb0.isSome then
    let idx := tbNow s / p + 1
    let s := reach (tickOf s (idx * p)) s
    .next (foldSt (groups.filter fun g => (lnk s g).st = .up) (fun g s => trigger g (timeChans s g idx) (idx * p) srcTime s) s)
  else .next s

/-- The stamp of a command (R279, R287): the first multiple of 250 at least 1,000 ticks ahead. -/
def cmdStamp (s : State) : Nat := (tbNow s + 1249) / 250 * 250

/-- A write of 1 to SMP_CMD.FIRE (R279). -/
def smpFire (s : State) : State :=
  let t := cmdStamp s
  let s := modSmp (fun x => { x with cmdT := t }) s
  foldSt (groups.filter fun g => (lnk s g).st = .up) (fun g s =>
    let ls := lidxs.filter fun l =>
      inMask (cfgGet s (.smpMask 0)) (cfgGet s (.smpMask 1)) (cfgGet s (.smpMask 2)) (chanOf g l)
    trigger g ls t srcCommand s) s

/-! ### Pans: configuration -/

/-- The even member of a pan's pair. -/
def evenPan (p : Fin 16) : Fin 16 := ⟨p.val - p.val % 2, by omega⟩
def partnerPan (p : Fin 16) : Fin 16 := if h : p.val % 2 = 0 then ⟨p.val + 1, by omega⟩ else ⟨p.val - 1, by omega⟩

/-- ALT of the pair (R294). -/
def panAlt (s : State) (g : Grp) (p : Fin 16) : Bool := cfgBit s (.panCfg g (evenPan p)) 14

/-- CFG and DECIM in force for a pan: those of the even member of an ALT pair (R294). -/
def panCfgOf (s : State) (g : Grp) (p : Fin 16) : Word := cfgGet s (.panCfg g (if panAlt s g p then evenPan p else p))
def panDecimOf (s : State) (g : Grp) (p : Fin 16) : Word := cfgGet s (.panDecim g (if panAlt s g p then evenPan p else p))

/-- A pan counts as enabled (R303). -/
def panEnabled (s : State) (g : Grp) (p : Fin 16) : Bool := bit (panCfgOf s g p) 11

/-- First word and length of a pan's region (R290). -/
def panBase (s : State) (g : Grp) (p : Fin 16) : Nat := 64 * cfgFld s (.panRegion g p) 0 10
def panSize (s : State) (g : Grp) (p : Fin 16) : Nat := 64 * (cfgFld s (.panRegion g p) 10 10 + 1)
/-- Blocks that a region holds (R290). -/
def panCap (s : State) (g : Grp) (p : Fin 16) : Nat := (panSize s g p - 16) / 6

def panM (g : Grp) : Fin 16 := ⟨2 + g.val, by omega⟩

/-! ### Pans: recording -/

/-- The set number of a saturating 20-bit count. -/
def sat20 (n : Nat) : Word := BitVec.ofNat 20 (min n 0xFFFFF)

/-- Write one block (R290): its samples, padded with GAP, and their flags. -/
def writeBlock (g : Grp) (p : Fin 16) (l : List (Word × BitVec 4)) (s : State) : State :=
  let k := pan s g p
  let cap := panCap s g p
  let at_ := panBase s g p + 16 + 6 * (k.blocks % cap)
  let l' := l ++ List.replicate (5 - l.length) (0, 1)
  let flags := pack ((List.range 5).zip (l'.map fun x => x.2.toNat) |>.map fun x => (4 * x.1, x.2))
  let s := memPuts (panM g) at_ (l'.map (·.1) ++ [flags]) s
  modPan g p (fun k => { k with
    blocks := k.blocks + 1, wrapped := k.wrapped || decide (cap ≤ k.blocks), lastN := l.length }) s

/-- Full blocks of the sample stream are written (R290). -/
def flushBlocks (g : Grp) (p : Fin 16) : Nat → State → State
  | 0, s => s
  | f + 1, s =>
    let l := (pan s g p).part
    if l.length < 5 then s
    else flushBlocks g p f (writeBlock g p (l.take 5) (modPan g p (fun k => { k with part := l.drop 5 }) s))

/-- A set that decimation keeps enters the stream (R288, R295): with WRAP = 0 a set that does not fit closes the pan. -/
def panSet (g : Grp) (p : Fin 16) (stamp : Nat) (l : List (Word × BitVec 4)) (s : State) : State :=
  let k := pan s g p
  if !bit (panCfgOf s g p) 12 ∧ 5 * panCap s g p < 5 * k.blocks + k.part.length + l.length then
    panCloseAt g p stamp 3 s
  else
    let gaps := (l.filter fun x => bit x.2 0).length
    flushBlocks g p 4 (modPan g p (fun k => { k with
      part := k.part ++ l, sets := k.sets + 1, gaps := k.gaps + gaps }) s)

/-- The converter word of a channel and whether its codes are signed, as the logic die knows them. -/
def chanSigned (s : State) (n : Chan) : Bool := cfgFld s (.ch n .cfg) 0 4 = mAiDiff

/-- The averaged set of a run (R289). -/
def avgSet (s : State) (g : Grp) (k : Pan) : List (Word × BitVec 4) :=
  ((maskLidxs k.mask.toNat).zip k.sums).map fun x =>
    let (n, sum, fl) := x.2
    if n = 0 then (0, 1)
    else (sampleWord (cfgGet s (.smpCfg (chanOf g x.1))) ((2 * sum + n) / (2 * n)), fl)

/-- One sample joins the run of its channel (R289). -/
def addRun (s : State) (n : Chan) (acc : Nat × Int × BitVec 4) (x : Word × BitVec 4) : Nat × Int × BitVec 4 :=
  if bit x.2 0 then acc
  else (acc.1 + 1, acc.2.1 + sampleCode (cfgGet s (.smpCfg n)) (chanSigned s n) x.1, acc.2.2 ||| x.2)

/-- A set of an open pan meets its decimation (R289). -/
def panTake (g : Grp) (p : Fin 16) (stamp : Nat) (l : List (Word × BitVec 4)) (s : State) : State :=
  let k := pan s g p
  let d := fld k.decim 0 16
  if bit k.decim 16 then
    let ls := maskLidxs k.mask.toNat
    let start := if k.run = 0 then List.replicate ls.length (0, 0, 0) else k.sums
    let sums := (ls.zip (start.zip l)).map fun x => addRun s (chanOf g x.1) x.2.1 x.2.2
    let k' := { k with run := k.run + 1, sums := sums }
    if d ≤ k'.run then
      panSet g p stamp (avgSet s g k') (modPan g p (fun _ => { k' with run := 0, sums := [] }) s)
    else modPan g p (fun _ => k') s
  else
    let s := modPan g p (fun k => { k with run := (k.run + 1) % (max d 1) }) s
    if k.run = 0 then panSet g p stamp l s else s

/-- The set of a stamp for one pan (R288): sources enabled, at least one mask channel triggered. -/
def panOffer (g : Grp) (stamp : Nat) (ex : List (BitVec 8 × BitVec 3)) (samples : List Sample) (p : Fin 16) (s : State) :
    State :=
  let k := pan s g p
  let inside := k.st = .opened && decide (k.tOpen ≤ stamp) && (match k.tClose with | some (t, _) => decide (stamp < t) | none => true)
  let trig : BitVec 8 := ex.foldl (fun m e => if e.2 &&& k.src ≠ 0 then m ||| e.1 else m) 0
  if inside ∧ trig &&& k.mask ≠ 0 then
    let all := ex.foldl (fun m e => m ||| e.1) 0
    let set := (maskLidxs k.mask.toNat).map fun l =>
      match samples.find? fun x => x.l = l ∧ bit all l.val with
      | some x => (x.word, x.flags)
      | none => (0, 1)
    let unl := samples.any fun x => bit k.mask x.l.val && x.unlocked
    panTake g p stamp set (modPan g p (fun k => { k with unlocked := k.unlocked || unl }) s)
  else s

/-! ### ADC records -/

/-- The ADC record of a stamp (R511, R517). -/
def recAdc (g : Grp) (stamp : Nat) (ex : List (BitVec 8 × BitVec 3)) (samples : List Sample) (s : State) : State :=
  let mask := cfgFld s (.caskGrp g) 0 8
  let trig := ex.foldl (fun m e => m ||| e.1) 0
  let ls := lidxs.filter fun l => bit trig l.val && (mask >>> l.val) % 2 == 1
  if recOn s ∧ !ls.isEmpty then
    let k := s.cask.dec[g]
    let d := max 1 (cfgFld s (.caskGrp g) 8 12)
    let s := modCask (fun c => { c with dec := c.dec.set g ((k + 1) % d) }) s
    if k = 0 then
      let one := fun (l : Lidx) => match samples.find? fun x => x.l = l with
        | some x => (x.word, x.flags)
        | none => (0, 1)
      let ws := ls.map one
      let src := ex.foldl (fun m e => m ||| e.2) 0
      let present := ls.foldl (fun m l => m + 2 ^ l.val) 0
      let unl := samples.any fun x => ls.contains x.l && x.unlocked
      let flagWords := (List.range ((ws.length + 4) / 5)).map fun i =>
        pack ((List.range 5).map fun j => (4 * j, match ws[5 * i + j]? with | some x => x.2.toNat | none => 0))
      recOffer 0x05 g.val stamp (pack [(0, present), (8, src.toNat), (11, b2n unl)] :: ws.map (·.1) ++ flagWords) s
    else s
  else s

/-! ### Samples at the logic die -/

/-- A sample updates SMPn.LAST (R286). -/
def takeLast (g : Grp) (x : Sample) (s : State) : State :=
  modSmp (fun m => { m with last := vmod m.last (chanOf g x.l) (fun _ => x) }) s

/-- A replay runs: pans and cask take no live samples (R533). -/
def replaying (s : State) : Bool := s.cask.st = .replaying

/-- Everything expected of one stamp of a group is known (R279, R285, R288, R511). -/
def resolveStamp (g : Grp) (samples : List Sample) (stamp : Nat) (s : State) : State :=
  let ex := (s.smp.expect.filter fun e => e.1 = g && e.2.1 = stamp).map fun e => e.2.2
  let mine := samples.filter fun x => x.stamp = stamp
  let s := modSmp (fun m => { m with expect := m.expect.filter fun e => !(e.1 = g && e.2.1 = stamp) }) s
  if replaying s then s
  else foldSt (List.finRange 16) (panOffer g stamp ex mine) (recAdc g stamp ex mine s)

/-- Insert into a rising list without repeats. -/
def insNat (a : Nat) : List Nat → List Nat
  | [] => [a]
  | b :: l => if a < b then a :: b :: l else if a = b then b :: l else b :: insNat a l

/-- Every stamp of a group that lies before a limit is resolved, in order. -/
def resolveBefore (g : Grp) (limit : Nat) (samples : List Sample) (s : State) : State :=
  let stamps := (s.smp.expect.filter fun e => e.1 = g && decide (e.2.1 < limit)).foldl (fun l e => insNat e.2.1 l) []
  foldSt stamps (resolveStamp g samples) s

/-! ### Opening and closing -/

/-- Cycle count for a pan record (R291, R292). -/
def cycleWord (s : State) : Word := if angValid s then s.trk.cyc.extractLsb' 0 20 else 0

/-- The time that pan records hold; recorded time during replay, so that pan memory comes out as recorded (R534). -/
def panTime (s : State) (t : Nat) : Nat := if replaying s then shTime s t else t

/-- The close record (R292). -/
def closeRecord (s : State) (g : Grp) (p : Fin 16) (t : Nat) (reason : BitVec 3) : List Word :=
  let k := pan s g p
  let next := if bit (panCfgOf s g p) 12 then k.blocks % panCap s g p else k.blocks
  [pack [(0, reason.toNat), (3, b2n k.wrapped), (4, b2n k.unlocked)], sat20 k.sets, pack [(0, next), (16, k.lastN)], sat20 k.gaps]
    ++ stampWords (panTime s t) ++ [cycleWord s]

/-- A pan becomes CLOSED (R296): a cut run is averaged, the last block and the close record are written. -/
def panFinish (g : Grp) (p : Fin 16) (s : State) : State :=
  let k := pan s g p
  match k.tClose with
  | none => s
  | some (t, reason) =>
    let s := if bit k.decim 16 ∧ k.run ≠ 0 then
        panSet g p t (avgSet s g k) (modPan g p (fun k => { k with run := 0, sums := [] }) s)
      else s
    let l := (pan s g p).part
    let s := if l.isEmpty then s else writeBlock g p l (modPan g p (fun k => { k with part := [] }) s)
    let rec_ := closeRecord s g p t reason
    let s := memPuts (panM g) (panBase s g p + 8) rec_ s
    let s := modPan g p (fun k => { k with st := .closed, tClose := none }) s
    let s := if replaying s then recShadow 0x12 g.val t (pack [(0, p.val)] :: rec_) s else s
    if bit (panCfgOf s g p) 15 then raiseNat (66 + g.val) s else s

def countSkip (g : Grp) (s : State) : State := modSmp (fun m => { m with skipped := vmod m.skipped g satInc }) s
def countOver (g : Grp) (s : State) : State := modSmp (fun m => { m with overwritten := vmod m.overwritten g satInc }) s

/-- The open record (R291). -/
def openRecord (s : State) (g : Grp) (p : Fin 16) (v : PanEv) : List Word :=
  [pack [(0, fld (panCfgOf s g p) 0 8), (8, p.val), (12, g.val), (15, v.origin.toNat), (17, b2n (replaying s))],
    v.decim &&& 0x1FFFF#20,
    if v.origin = 0 then v.cycle else cycleWord s,
    if v.origin = 2 then (if angValid s then angNow s else 0) else v.angle]
    ++ stampWords (panTime s v.stamp) ++ [if v.origin = 2 then 0 else pack [(0, v.entry.toNat)]]

/-- The window opens (R293). -/
def panStart (g : Grp) (p : Fin 16) (v : PanEv) (s : State) : State :=
  let cfg := panCfgOf s g p
  let s := memPuts (panM g) (panBase s g p) (openRecord s g p v ++ List.replicate 8 0) s
  let k : Pan :=
    { Pan.reset with
      st := .opened, latest := panAlt s g p, tOpen := v.stamp, mask := cfg.extractLsb' 0 8, src := cfg.extractLsb' 8 3
      decim := v.decim, origin := v.origin, replay := replaying s, timeBank := decide (v.origin = 1)
      byTrellis := decide (v.origin ≠ 2) }
  let s := if panAlt s g p then modPan g (partnerPan p) (fun k => { k with latest := false }) s else s
  modPan g p (fun _ => k) s

/-- The member of a pair on which an open acts (R294): the one not opened last. -/
def openMember (s : State) (g : Grp) (p : Fin 16) : Fin 16 :=
  if panAlt s g p then
    (if (pan s g (evenPan p)).latest then partnerPan (evenPan p) else evenPan p)
  else p

/-- An open meets its pan (R293). A pan whose close stamp has come counts as CLOSED. -/
def panOpenAct (g : Grp) (v : PanEv) (s : State) : State :=
  let p := openMember s g v.pan
  let k := pan s g p
  let cfg := panCfgOf s g p
  let closing := k.st = .opened && (match k.tClose with | some (t, _) => decide (t ≤ v.stamp) | none => false)
  if !bit cfg 11 then countSkip g s
  else if k.st = .opened ∧ !closing then countSkip g s
  else if k.st = .closed ∨ closing then
    (if bit cfg 13 then countSkip g s else panStart g p v (countOver g (if closing then panFinish g p s else s)))
  else panStart g p v s

/-- A close meets its pan (R293, R294): the member that is OPEN. -/
def panCloseAct (g : Grp) (v : PanEv) (s : State) : State :=
  let l := if panAlt s g v.pan then [evenPan v.pan, partnerPan (evenPan v.pan)] else [v.pan]
  let reason : BitVec 3 := if v.origin = 2 then 2 else 1
  foldSt (l.filter fun p => (pan s g p).st = .opened) (fun p s => panCloseAt g p v.stamp reason s) s

/-- The earliest waiting event of a pan, in the order of arrival at equal stamps. -/
def firstPanEv (s : State) (g : Grp) (p : Fin 16) : Option PanEv :=
  (s.smp.evs.filter fun v => v.g = g && v.pan = p).foldl
    (fun a v => match a with | some b => if v.stamp < b.stamp then some v else a | none => some v) none

def dropEv (v : PanEv) (s : State) : State := modSmp (fun m => { m with evs := m.evs.erase v }) s

/-- PAN_OPEN (R293): the pan's next event, an open, comes due. -/
def execPanOpen (g : Grp) (p : Fin 16) (s : State) : Res :=
  match firstPanEv s g p with
  | some v => if v.opens then .next (panOpenAct g v (dropEv v (reach (tickOf s v.stamp) s))) else .next s
  | none => .next s

/-- PAN_CLOSE (R295): the pan's next event, a close, comes due. -/
def execPanClose (g : Grp) (p : Fin 16) (s : State) : Res :=
  match firstPanEv s g p with
  | some v => if v.opens then .next s else .next (panCloseAct g v (dropEv v (reach (tickOf s v.stamp) s)))
  | none => .next s

/-- PAN_CLOSED (R296): every set inside the window has been recorded or marked GAP. -/
def execPanClosed (g : Grp) (p : Fin 16) (s : State) : Res :=
  match (pan s g p).st, (pan s g p).tClose with
  | .opened, some (t, _) =>
    if s.smp.expect.any (fun e => e.1 = g && decide (e.2.1 < t)) then .next s
    else .next (panFinish g p (reach (tickOf s t) s))
  | _, _ => .next s

/-- A withdrawal becomes usable at the group (R295). -/
def panWithdraw (g : Grp) (e : Extent) (s : State) : State :=
  closePans g (tbNow s) 4 (fun k => k.byTrellis && inExtent e k.timeBank) s

/-- The group receives the first SAFE frame (R295). -/
def panSafe (g : Grp) (s : State) : State := closePans g (tbNow s) 5 (·.byTrellis) s

/-- PAN_CMD (R304): opens, closes or releases a pan of a group, or of every group that is up. -/
def panCmdGrps (s : State) (g : Nat) : List Grp :=
  if h : g < 6 then [⟨g, h⟩] else if g = 7 then groups.filter fun g => (lnk s g).st = .up else []

def panCmdEv (opens : Bool) (g : Nat) (p : Fin 16) (s : State) : State :=
  foldSt (panCmdGrps s g) (fun g s =>
    let v : PanEv :=
      { g := g, pan := p, opens := opens, stamp := cmdStamp s, origin := 2, decim := panDecimOf s g p, cycle := 0, angle := 0
        entry := 0 }
    modSmp (fun m => { m with evs := m.evs ++ [v] }) s) s

/-- Release of a CLOSED pan (R304). -/
def panRelease (g : Grp) (p : Fin 16) (s : State) : State :=
  modPan g p (fun k => if k.st = .closed then { k with st := .idle } else k) s

/-- PANg_p.STAT (R303). -/
def panStatWord (s : State) (g : Grp) (p : Fin 16) : Word :=
  let k := pan s g p
  let st := match k.st with | .idle => 0 | .opened => 1 | .closed => 2
  pack [(0, st), (2, b2n k.latest), (3, min k.blocks 0x3FFF)]

end Sys2Proof.Machine
end

