-- ==== Sys2Proof/Machine/Sequencer.lean ====
section
/-! DEFINITION. The trellis sequencer at work (08_trellis_sequencer R244, R245, R256 to R267): decisions at cycle boundaries,
the lookahead, stamps and refinements, the commit horizon, skew, MARK. -/

namespace Sys2Proof.Machine

def bIx (b : Bool) : Fin 2 := if b then 1 else 0
def bOf (b : Fin 2) : Bool := b != 0

/-- Lookahead in ticks (R258). -/
def lookTicks (s : State) : Nat := cfgFld s .seqCfg 0 8 * us

/-- The instant that the estimator gives for a signed distance: R216 ahead of the last edge; behind it, between the last two
edges where both stand, else at the present pace (R258, R260). -/
def instantOf (s : State) (d : Int) : Int :=
  if 0 ≤ d then predict s d
  else
    let t := s.trk
    let dp := if t.rev then ((t.prevUk : Int) - t.uk) % cycleFine else ((t.uk : Int) - t.prevUk) % cycleFine
    if t.prevOk ∧ -d ≤ dp then (t.tk : Int) + roundDiv (d * ((t.tk : Int) - t.prevTk)) dp.toNat
    else (t.tk : Int) + roundDiv (t.pace * d) (2 ^ 58)

/-- Predicted instant of an angle (ac) of a cycle. -/
def angleInstant (s : State) (cyc : BitVec 40) (a : Word) : Int := instantOf s (distCyc s cyc a)

/-- Distance in units of 2^-12 ac from an angle to the first time the shaft reaches another (R241). -/
def arcTo (s : State) (a b : Word) : Int :=
  let x : Int := (a.toNat * 4096 : Nat)
  let y : Int := (b.toNat * 4096 : Nat)
  if s.trk.rev then (x - y) % cycleFine else (y - x) % cycleFine

/-- Stamp and end stamp of an entry, by the prediction in force (R241, R258). -/
def entryStamp (s : State) (timeBank : Bool) (cyc : BitVec 40) (period0 : Nat) (w0 w1 w2 : Word) : Nat × Option Nat :=
  let st := if timeBank then period0 + w0.toNat * us else (angleInstant s cyc w0).toNat
  if entAction w1 = aPulseT then (st, some (st + pulseTicks w1 w2))
  else if entAction w1 = aPulseA then (st, some (instantOf s (distCyc s cyc w0 + arcTo s w0 w2)).toNat)
  else (st, none)

/-- Groups that an action is sent to: those of its target that are up (R240). During replay nothing crosses a link (R533). -/
def actGroups (s : State) (w1 : Word) : List Grp :=
  if s.cask.st = .replaying ∨ entAction w1 = aMark then []
  else (targetGrps (entTarget w1)).filter fun g => (lnk s g).st = .up

/-- The schedule message of an action. -/
def schedOf (a : Act) (first : Bool) (slot : Fin 64) : SchedMsg :=
  { id := a.id, first := first, again := false, running := false, slot := slot, timeBank := a.timeBank
    action := BitVec.ofNat 5 (entAction a.w1), target := BitVec.ofNat 6 (entTarget a.w1), mask := BitVec.ofNat 9 (entArgA a.w1)
    arg := a.w2, stamp := a.stamp, endStamp := a.endStamp, entry := a.entry, cyc := a.cyc, bank := a.bank, w0 := a.w0 }

/-- During replay no message crosses a link; an action is late as its first message would have been (R261, R533). -/
def replayLate (s : State) (w1 : Word) (st : Nat) (en : Option Nat) : BitVec 2 :=
  let usable := (tbNow s + 250) / 250 * 250 + 275
  if s.cask.st = .replaying ∧ st < usable + 250 ∧ entAction w1 ≠ aMark then
    let a := entAction w1
    let drop := decide (st ≤ usable) && (a = aSample || a = aDiLatch || (en.isSome && decide (en.getD 0 ≤ usable)))
    if drop then 3 else 1
  else 0

/-- Group at which a late/skew event of an action is reported; 63 for MARK (R437). -/
def actUnit (w1 : Word) : Nat := if entAction w1 = aMark then 63 else match targetGrps (entTarget w1) with | g :: _ => g.val | [] => 63

/-- A late action counts and is reported (R261, R263). -/
def countLate (unit : Nat) (dropped : Bool) (s : State) : State :=
  report 6 5 unit (modSeq (fun q => { q with
    late := satInc q.late, dropped := if dropped then satInc q.dropped else q.dropped }) s)

/-- An entry enters the lookahead (R258): its stamp is computed, the action is stored, the first messages are queued. -/
def place (b : Fin 2) (e : Nat) (cyc : BitVec 40) (w0 w1 w2 : Word) (s : State) : State :=
  let tb := bankTime s b
  if entAction w1 = aNop then s
  else
    let (st, en) := entryStamp s tb cyc (bnk s b).period0 w0 w1 w2
    let gs := actGroups s w1
    let a : Act :=
      { id := s.seq.nextId, bank := bOf b, entry := BitVec.ofNat 10 e, cyc := cyc, timeBank := tb, w0 := w0, w1 := w1, w2 := w2
        stamp := st, committed := false, checked := tb, endStamp := en, endCommitted := false, deferred := false
        late := replayLate s w1 st en, grps := gs.map fun g => (g, none) }
    let s := if a.late = 0 then s else countLate (actUnit w1) (a.late = 3) s
    let s := modSeq (fun q => { q with nextId := q.nextId + 1, acts := q.acts ++ [a] }) s
    foldSt gs (fun g s => modLink g (fun l => { l with sched := l.sched ++ [schedOf a true 0] }) s) s

/-- First entry of a walk, and the one after an entry (R245). In reverse rotation an angle bank is walked downward; entries
of equal ANGLE keep table order, so the walk goes to the first of the next lower run. -/
def walkDown (s : State) (b : Fin 2) : Bool := !bankTime s b && s.trk.rev

/-- ANGLE of an entry as stored. -/
def entAngle (s : State) (b : Fin 2) (e : Nat) : Word :=
  cellData (if (bnk s b).lineChk then memCell s (bankIx b) (3 * e) else (decCell (memCell s (bankIx b) (3 * e))).1)

/-- Lowest entry of the run of equal ANGLE that holds entry e. -/
def runStart (s : State) (b : Fin 2) : Nat → Nat
  | 0 => 0
  | e + 1 => if entAngle s b e = entAngle s b (e + 1) then runStart s b e else e + 1

def walkFirst (s : State) (b : Fin 2) : Nat :=
  if walkDown s b then runStart s b (bankCount s b - 1) else 0

def walkNext (s : State) (b : Fin 2) (e : Nat) : Nat :=
  let n := bankCount s b
  if walkDown s b then
    (if e + 1 < n ∧ entAngle s b (e + 1) = entAngle s b e then e + 1
     else
       let r := runStart s b e
       if r = 0 then runStart s b (n - 1) else runStart s b (r - 1))
  else if e + 1 < n then e + 1 else 0

/-- Start walking a cycle with a bank. Entries of the cycle before that a pause has held back come first (R266). -/
def startWalk (b : Fin 2) (cyc : BitVec 40) (s : State) : State :=
  if s.seq.walking ∧ s.seq.left ≠ 0 ∧ activeBank s = some b ∧ !bankTime s b then
    modSeq (fun q => { q with left := q.left + bankCount s b }) s
  else modSeq (fun q => { q with walking := true, walkCyc := cyc, left := bankCount s b, next := BitVec.ofNat 10 (walkFirst s b) }) s

/-- Whether entries may enter the lookahead now (R266, R475): not while paused in HOLDOVER, not while a line is fetched. -/
def mayPlace (s : State) (b : Fin 2) : Bool :=
  s.seq.refetch.isNone &&
    (bankTime s b ||
      (angValid s && s.trk.predOk && (s.trk.st != .holdover || cfgBit s .seqCfg 14) && s.trk.st != .stopped))

/-- The next entry of the walk is read and placed. An entry that cannot be mended halts the sequencer (R268); one whose
line is being fetched again waits (R475). -/
def takeEntry (b : Fin 2) (s : State) : State :=
  let e := s.seq.next.toNat
  let ((ws, bad), s) := memReads .sequencer (bankIx b) (3 * e) 3 s
  if bad then s
  else match ws with
    | [w0, w1, w2] =>
      let s := place b e s.seq.walkCyc w0 w1 w2 s
      let e' := walkNext s b e
      syncWait (modSeq (fun q => { q with
        left := q.left - 1, next := BitVec.ofNat 10 e'
        walkCyc := if e' = walkFirst s b then q.walkCyc + 1 else q.walkCyc }) s)
    | _ => s

/-- Entries of the present cycle that have not entered yet do so now: none is skipped (R258). -/
def finishWalk (b : Fin 2) : Nat → State → State
  | 0, s => s
  | f + 1, s => if s.seq.left = 0 ∨ !mayPlace s b ∨ activeBank s ≠ some b then s else finishWalk b f (takeEntry b s)

/-- Instant of the next entry of the walk; none when there is none to enter. -/
def nextInstant (s : State) (b : Fin 2) : Option Int :=
  if s.seq.walking ∧ s.seq.left ≠ 0 then
    let w0 := entAngle s b s.seq.next.toNat
    some (if bankTime s b then ((bnk s b).period0 + w0.toNat * us : Nat) else angleInstant s s.seq.walkCyc w0)
  else none

/-- Move time on to a timebase value. -/
def reachTb (t : Int) (s : State) : State := reach (tickOf s t.toNat) s

/-- LOOKAHEAD_ENTRY (R258): the next entry comes within L of the present tick. -/
def execLookaheadEntry (s : State) : Res :=
  match activeBank s with
  | none => .next s
  | some b =>
    match nextInstant s b with
    | none => .next s
    | some t => if walks s && mayPlace s b then .next (takeEntry b (reachTb (t - lookTicks s) s)) else .next s

/-! ### Decisions and boundaries -/

/-- The predicted instant of the next cycle boundary (R219). -/
def boundaryInstant (s : State) : Int := instantOf s (distBoundary s)

/-- An angle bank WAITING for the present direction. -/
def angleServes (s : State) (b : Fin 2) : Bool := servesNow s b && !bankTime s b

/-- The WAITING angle bank that takes the cycle, the later armed of two, while VALID and PRED_OK stand (R256). -/
def takerBank (s : State) : Option (Fin 2) :=
  if angValid s ∧ s.trk.predOk then
    match angleServes s 0, angleServes s 1 with
    | true, true => if (bnk s 0).order < (bnk s 1).order then some 1 else some 0
    | true, false => some 0
    | false, true => some 1
    | false, false => none
  else none

/-- Start of a WAITING time bank's first period (R256): the first frame start at least L + 1 µs ahead. -/
def firstPeriod (s : State) (b : Fin 2) : Nat :=
  let t := (bnk s b).period0 + lookTicks s + us
  (t + 249) / 250 * 250

/-- The bank becomes ACTIVE. The other one is UNARMED where it was ACTIVE, or waited for the same direction, or is a time bank
that takes over at the same instant (R255, R256). -/
def takeBank (b : Fin 2) (s : State) : State :=
  let o : Fin 2 := if b = 0 then 1 else 0
  let drop := match (bnk s o).st with
    | .active => true
    | .waiting =>
      if bankTime s b then bankTime s o && decide (firstPeriod s o ≤ firstPeriod s b) else angleServes s o
    | .unarmed => false
  setBank b .active (if drop then setBank o .unarmed s else s)

/-- The decision instant (R256). -/
def decide_ (s : State) : State :=
  let s := match activeBank s with
    | some b => finishWalk b 1024 s
    | none => s
  let cyc := s.trk.cyc + 1
  let s := match takerBank s with
    | some b =>
      let s := stopWalk (takeBank b s)
      modSeq (fun q => { q with decided := some (some (bOf b)) }) (startWalk b cyc s)
    | none =>
      match activeBank s with
      | some b =>
        if bankTime s b then s
        else if (bnk s b).stopPend then modSeq (fun q => { q with decided := some none }) s
        else modSeq (fun q => { q with decided := some (some (bOf b)) }) (startWalk b cyc s)
      | none => s
  syncWait s

/-- Whether there is an angle bank to decide about. -/
def decides (s : State) : Bool :=
  walks s && s.seq.decided.isNone && angValid s && s.trk.predOk && s.trk.st != .stopped &&
    ((takerBank s).isSome || (activeBank s).any fun b => !bankTime s b)

/-- BANK_DECISION (R256). -/
def execBankDecision (s : State) : Res :=
  if decides s then .next (decide_ (reachTb (boundaryInstant s - lookTicks s) s)) else .next s

/-- Channels that the trellis owns in the extent of a bank and that are in no tail take their trellis-off state (R264). -/
def stopOwned (s : State) : State :=
  foldSt groups (fun g s =>
    if (lnk s g).st = .up then
      foldSt (grpChans g) (fun n s =>
        if (slc s n).owner = .angle ∧ (slc s n).pulses.isEmpty then trellisOff n s else s) s
    else s) s

/-- A cycle boundary is marked (R219): the count steps, and a STOP decided for it takes effect (R255, R264). -/
def markBoundary (s : State) : State :=
  let s := if decides s then decide_ s else s
  let s := modTrk (fun t => { t with cyc := t.cyc + 1 }) s
  let stop := decide (s.seq.decided = some none)
  let s := modSeq (fun q => { q with decided := none }) s
  let s := if stop then
      (match activeBank s with
        | some b => stopOwned (stopWalk (setBank b .unarmed s))
        | none => s)
    else s
  syncWait s

/-- CYCLE_BOUNDARY (R219). -/
def execCycleBoundary (s : State) : Res :=
  if (s.trk.st = .cycleSync ∨ s.trk.st = .holdover) ∧ s.trk.predOk then
    .next (markBoundary (reachTb (boundaryInstant s) s))
  else .next s

/-! ### Time banks -/

/-- The WAITING time bank whose first period starts first; of two that start together, the later armed (R256). -/
def timeTaker (s : State) : Option (Fin 2) :=
  let w := fun (b : Fin 2) => isWaiting s b && bankTime s b
  match w 0, w 1 with
  | true, true =>
    if firstPeriod s 0 < firstPeriod s 1 then some 0
    else if firstPeriod s 1 < firstPeriod s 0 then some 1
    else if (bnk s 0).order < (bnk s 1).order then some 1 else some 0
  | true, false => some 0
  | false, true => some 1
  | false, false => none

/-- A time bank takes over, or its next period begins to be walked, when that period's start comes within L (R247, R256). -/
def timePeriod (b : Fin 2) (start : Nat) (s : State) : State :=
  let s := reachTb ((start : Int) - lookTicks s) s
  let s := match activeBank s with
    | some o => if bankTime s o then finishWalk o 1024 s else s
    | none => s
  let s := if (bnk s b).st = .waiting then stopWalk (takeBank b s) else s
  syncWait (startWalk b s.trk.cyc (modBank b (fun k => { k with period0 := start }) s))

/-- End of the period of a time bank that is being walked (R247). -/
def periodEnd (s : State) (b : Fin 2) : Nat := (bnk s b).period0 + (cfgGet s (.bankPeriod b)).toNat * us

/-- The ACTIVE time bank goes on to its next period, or stops at its start (R247, R255). -/
def periodNext (b : Fin 2) (s : State) : State :=
  if (bnk s b).stopPend then
    syncWait (stopWalk (setBank b .unarmed (reachTb (periodEnd s b : Nat) (finishWalk b 1024 s))))
  else timePeriod b (periodEnd s b) s

/-- TIME_BANK_PERIOD (R247): the earlier of a WAITING time bank's first period and the next period of the ACTIVE one. -/
def execTimeBankPeriod (s : State) : Res :=
  let active := match activeBank s with | some b => if bankTime s b then some b else none | none => none
  if walks s then
    match timeTaker s, active with
    | some b, some o => if periodEnd s o < firstPeriod s b then .next (periodNext o s) else .next (timePeriod b (firstPeriod s b) s)
    | some b, none => .next (timePeriod b (firstPeriod s b) s)
    | none, some o => .next (periodNext o s)
    | none, none => .next s
  else .next s

/-! ### Refinement, commitment, skew -/

/-- Predictions hold for placed angle actions. -/
def predicts (s : State) : Bool := s.trk.predOk && angValid s && s.trk.st != .stopped

def absDiff (a b : Nat) : Nat := if a ≤ b then b - a else a - b

/-- A refinement of an action is queued; it replaces one that has not left, and corrects a first message that waits (R259). -/
def queueRefine (a : Act) (s : State) : State :=
  foldSt a.grps (fun x s => modLink x.1 (fun l =>
    if l.sched.any fun m => m.id = a.id then
      { l with sched := l.sched.map fun m => if m.id = a.id then { m with stamp := a.stamp, endStamp := a.endStamp } else m }
    else { l with sched := l.sched ++ [schedOf a false (x.2.getD 0)] }) s) s

/-- The stamps of an action as the present prediction gives them; committed ones stand (R259). -/
def restamp (s : State) (a : Act) : Act :=
  if a.timeBank then a
  else
    let (st, en) := entryStamp s false a.cyc 0 a.w0 a.w1 a.w2
    let th := 2 ^ cfgFld s .seqCfg 12 2
    let st := if a.committed ∨ absDiff st a.stamp < th then a.stamp else st
    let en := match a.endStamp, en with
      | some x, some y => if a.endCommitted ∨ absDiff x y < th then some x else some y
      | x, _ => x
    let en := if entAction a.w1 = aPulseT then some (st + pulseTicks a.w1 a.w2) else en
    { a with stamp := st, endStamp := en }

def setAct (a : Act) (s : State) : State :=
  modSeq (fun q => { q with acts := q.acts.map fun x => if x.id = a.id then a else x }) s

/-- Every placed action is compared with the present prediction (R259). -/
def refineAll (s : State) : State :=
  if predicts s then
    foldSt s.seq.acts (fun a s =>
      let b := restamp s a
      if b = a then s else queueRefine b (setAct b s)) s
  else s

/-- Actions that nothing more is known to happen to are forgotten. -/
def reapActs (s : State) : State :=
  modSeq (fun q => { q with acts := q.acts.filter fun a =>
    !(a.committed && a.checked && a.grps.isEmpty && (entAction a.w1 != aMark || a.endCommitted)) }) s

/-- Pan events of a committed PAN_OPEN or PAN_CLOSE (R287). -/
def panEvents (a : Act) (s : State) : State :=
  if entAction a.w1 = aPanOpen ∨ entAction a.w1 = aPanClose then
    let gs := (targetGrps (entTarget a.w1)).filter fun g => replaying s || (lnk s g).st = .up
    foldSt gs (fun g s =>
      let v : PanEv :=
        { g := g, pan := ⟨entArgA a.w1 % 16, by omega⟩, opens := decide (entAction a.w1 = aPanOpen), stamp := a.stamp
          origin := if a.timeBank then 1 else 0, decim := a.w2, cycle := a.cyc.extractLsb' 0 20, angle := a.w0, entry := a.entry }
      modSmp (fun m => { m with evs := m.evs ++ [v] }) s) s
  else s

/-- The horizon an action waits for: its start's, then its end's. -/
def horizonOf (a : Act) : Option Nat :=
  if !a.committed then some a.stamp else if a.endCommitted then none else a.endStamp

/-- The action with the earliest value of `f`. -/
def firstAct (l : List Act) (f : Act → Option Nat) : Option (Act × Nat) :=
  l.foldl (fun acc a =>
    match f a, acc with
    | some t, some (_, u) => if t < u then some (a, t) else acc
    | some t, none => some (a, t)
    | none, _ => acc) none

/-- SH_ACT of a replay (R517, R533). -/
def shadowAct (a : Act) (skew : Int) (s : State) : State :=
  if replaying s then
    recShadow 0x11 a.late.toNat a.stamp
      [pack [(0, a.entry.toNat), (10, b2n a.bank)], a.w1, BitVec.ofNat 20 (shTime s a.stamp), BitVec.ofInt 20 skew,
        a.cyc.extractLsb' 0 20] s
  else s

/-- An action, or the end of its pulse, is committed (R259). -/
def commitAct (a : Act) (s : State) : State :=
  if a.committed then reapActs (setAct { a with endCommitted := true } s)
  else
    let s := panEvents a (setAct { a with committed := true } s)
    let s := if a.timeBank then shadowAct a 0 s else s
    reapActs s

/-- COMMIT_HORIZON (R259): the next horizon, 1 µs before a stamp. -/
def execCommitHorizon (s : State) : Res :=
  match firstAct s.seq.acts horizonOf with
  | none => .next s
  | some (a, t) => .next (commitAct a (reachTb ((t : Int) - us) s))

/-- The skew of a committed action is judged (R260). -/
def judgeSkew (a : Act) (s : State) : State :=
  let s := setAct { a with checked := true } s
  if predicts s then
    let d := distCyc s a.cyc a.w0
    if d < 0 ∧ !s.trk.prevOk then shadowAct a 0 s
    else
      let inj := (injStim s 6 5).isSome
      let k : Int := instantOf s d - a.stamp + (if inj then 2 ^ (cfgFld s .seqCfg 8 4 + 2) + 1 else 0)
      let m := k.natAbs
      let s := modSeq (fun q => { q with skMax := BitVec.ofNat 20 (max q.skMax.toNat (min m 0xFFFFF)) }) s
      let s := if 2 ^ (cfgFld s .seqCfg 8 4 + 2) < m then
          report 6 5 (actUnit a.w1) (modSeq (fun q => { q with skew := satInc q.skew }) s)
        else s
      shadowAct a k (whenSt inj injApplied s)
  else shadowAct a 0 s

/-- SKEW_CHECK (R260): the tick of the next committed stamp whose skew is not judged. -/
def execSkewCheck (s : State) : Res :=
  match firstAct s.seq.acts (fun a => if a.committed ∧ !a.checked then some a.stamp else none) with
  | none => .next s
  | some (a, t) => .next (reapActs (judgeSkew a (reachTb t s)))

/-- MARK (R243); `endCommitted` notes that it has executed. -/
def markAct (a : Act) (s : State) : State :=
  let k : Fin 8 := ⟨entArgA a.w1 % 8, by omega⟩
  let cyc := if a.timeBank then s.trk.cyc else a.cyc
  let s := setAct { a with endCommitted := true } (modSeq (fun q => { q with marks := q.marks.set k (cyc.extractLsb' 0 20) }) s)
  if replaying s then s else raiseNat (54 + k.val) s

/-- MARK_EXECUTE (R243): the next committed MARK comes to its stamp. -/
def execMarkExecute (s : State) : Res :=
  match firstAct s.seq.acts (fun a =>
    if a.committed ∧ entAction a.w1 = aMark ∧ !a.endCommitted then some a.stamp else none) with
  | none => .next s
  | some (a, t) => .next (reapActs (markAct a (reachTb t s)))

end Sys2Proof.Machine
end

