-- ==== Sys2Proof/Machine/Tracker.lean ====
section
/-! DEFINITION. The angle tracker at work (07_angle_tracking R206, R210 to R216, R220 to R230): edges taken up, the
estimator, acquisition, windows, holdover, stop, cam and index checks. -/

namespace Sys2Proof.Machine

/-! ### Edges -/

/-- ANGB level at an ANGA edge of a stamp (R206): an ANGB edge of the same tick is ignored. -/
def bAt (s : State) (t : Nat) : Bool := if s.trk.bStamp < t then s.trk.bLevel else s.trk.bOld

/-- Rotation at an ANGA edge, true reverse (R210). -/
def rotationAt (s : State) (t : Nat) : Bool := if wheelB s = 1 then bAt s t != wheelPol s else cfgBit s .trkCfg 2

/-- A tooth lies on the wheel (R207). -/
def isTooth (s : State) (k : Nat) : Bool := decide (k < wheelN s - wheelM s)

/-- T_stop in ticks (R226). -/
def stopTicks (s : State) : Nat := (wheelM s + 2) * 30 * 250000000 / wheelN s

/-- 250,000,000 × C / 6 in the scale of the pace: speed in rpm times the pace (R218). -/
def rpmPace (s : State) : Int := (250000000 * 60 * wheelRevs s * 2 ^ 26 : Nat)

/-- Speed above 6,300 rpm (R227). -/
def overSpeed (s : State) : Bool := s.trk.predOk && decide (6300 * s.trk.pace < rpmPace s)

/-- Speed below SPD_MIN (R225, R226). -/
def belowMin (s : State) : Bool := decide (rpmPace s < cfgFld s .spdMin 0 13 * s.trk.pace)

/-- SPD_OOR (R227): set with source 65 when the speed leaves its range, cleared 2 % inside the limit crossed. -/
def judgeSpeed (s : State) : State :=
  let k := rpmPace s
  let lo : Int := cfgFld s .spdMin 0 13 * s.trk.pace
  let hi : Int := cfgFld s .spdMax 0 13 * s.trk.pace
  if s.trk.predOk ∧ (s.trk.st = .revSync ∨ s.trk.st = .cycleSync) then
    if s.trk.spdOor then
      let back := if s.trk.spdHigh then decide (lo ≤ k ∧ 100 * k ≤ 98 * hi) else decide (102 * lo ≤ 100 * k ∧ k ≤ hi)
      if back then modTrk (fun t => { t with spdOor := false }) s else s
    else if k < lo ∨ hi < k then
      raiseTrk 65 (modTrk (fun t => { t with spdOor := true, spdHigh := decide (hi < k) }) s)
    else s
  else s

/-! ### Estimator -/

/-- The row after an update (R214). -/
def judgeRow (s : State) : State :=
  let want := rowFor s
  modTrk (fun t =>
    if t.row ≤ want then { t with row := want, rowCnt := 0 }
    else if t.rowCnt = 15 then { t with row := t.row - 1, rowCnt := 0 }
    else { t with rowCnt := t.rowCnt + 1 }) s

/-- The error e of an edge at distance d, scaled by 2^58 (R213). -/
def edgeError (s : State) (t : Nat) (d : Int) : Int := ((t : Int) - s.trk.tk) * 2 ^ 58 - leadRaw s d

/-- The update of R213 with the gains of the row in force. -/
def estUpdate (t : Nat) (d : Int) (s : State) : State :=
  let e := edgeError s t d
  let r := s.trk.row.val
  let x := max 1 d
  judgeRow (modTrk (fun k => { k with
    pace := k.pace + k.slope * x / 2 ^ 18 + e / (x * 2 ^ (5 - r))
    slope := k.slope + e * 2 ^ 19 / (x * x * 2 ^ (9 - 2 * r)) }) s)

/-- An accepted edge at stamp t and angle u, d from the one before: the first after a reset only stands, the second sets the
pace, later ones update it (R213). -/
def estEdge (t u : Nat) (d : Int) (s : State) : State :=
  let n := s.trk.edges
  let s := if n = 0 then s
    else if n = 1 then
      modTrk (fun k => { k with
        pace := roundDiv (((t : Int) - k.tk) * 2 ^ 58) (max 1 d).toNat, slope := 0, predOk := true, row := 3, rowCnt := 0 }) s
    else estUpdate t d s
  modTrk (fun k => { k with
    edges := min 2 (n + 1), prevTk := k.tk, prevUk := k.uk, prevOk := decide (n ≠ 0), tk := t, uk := u }) s

/-- The estimator is rebuilt at the edge that makes the tooth count known (R213). -/
def estRebuild (t u : Nat) (s : State) : State :=
  let known := decide (s.trk.edges ≠ 0)
  modTrk (fun k => { k with
    pace := if known then roundDiv (((t : Int) - k.tk) * 2 ^ 58) (pitch s).toNat else 0
    slope := 0, row := 3, rowCnt := 0, predOk := known, edges := if known then 2 else 1, prevOk := false, tk := t, uk := u }) s

/-- Learning of a tooth correction (R215): `e` is the error of the edge, judged before the update. -/
def learn (k : Nat) (e : Int) (s : State) : State :=
  let n := min 64 (lookupD 0 k s.trk.learnCnt + 1)
  let c := tcorOf s k + roundDiv e (2 ^ 16 * max 1 s.trk.pace).toNat
  let s := memPut 15 k ((sword 12 (max (-2048) (min 2047 c))).setWidth 20) s
  let s := modTrk (fun t => { t with learnCnt := insertKey k n true t.learnCnt }) s
  let all := (List.range (wheelN s - wheelM s)).all fun i => i = 0 || lookupD 0 i s.trk.learnCnt = 64
  if all then modTrk (fun t => { t with learned := true }) s else s

/-! ### LOST, direction, acquisition -/

/-- LOST with a cause (R221, R229). -/
def lose (cause : Nat) (s : State) : State :=
  report 6 2 63 (trkEnter .lost false (modTrk (fun t => { t with cause := BitVec.ofNat 4 cause, losses := satInc t.losses }) s))

/-- A direction change (R228, R266). -/
def turn (s : State) : State :=
  let s := parkActive (withdraw .angle (raiseTrk 64 (modTrk (fun t => { t with rev := !t.rev, dirChg := satInc t.dirChg }) s)))
  syncWait (estReset (modTrk (fun t => { t with
    gapI := 0, gapPrev := 0, camLast := none, camRevs := 0, uCyc := t.cyc, shown := BitVec.ofNat 20 (t.uk / 4096) }) s))

/-- Acquisition restarts in SEEKING (R213, R221). -/
def reseek (s : State) : State :=
  let s := trkEnter .seeking false (modTrk (fun t => { t with predOk := false }) s)
  estReset (modTrk (fun t => { t with
    gapI := 0, gapPrev := 0, unverified := false, camLast := none, camRevs := 0, camHist := [] }) s)

/-- CAM_FAIL is set (R211, R222, R229). -/
def setCamFail (s : State) : State :=
  if s.trk.camFail then s else report 6 3 63 (modTrk (fun t => { t with camFail := true }) s)

/-- The tooth count becomes known: the edge at t is tooth k (R213, R221, R222, R224). -/
def countKnown (t k : Nat) (s : State) : State :=
  let u := toothAngle s k false
  let s := estRebuild t u s
  let cam := s.trk.camHist
  let s := modTrk (fun x => { x with
    tooth := BitVec.ofNat 10 k, cycRev := false, rev0 := s.trk.rev && k != 0, extraRev := 0, gapPos := []
    gapPosOld := [], gapI := 0, gapPrev := 0, camHist := [], camRevs := 0, shown := BitVec.ofNat 20 (u / 4096)
    camLast := if wheelB s = 2 then (if k = 0 then cam[0]? else if s.trk.rev then cam[2]? else cam[1]?) else none }) s
  trkEnter (if wheelRevs s = 2 then .revSync else .cycleSync) false s

/-- An accepted edge in SEEKING (R222, R227): the gap test at the edge that ends I_next; overspeed starts afresh. -/
def seekEdge (t : Nat) (s : State) : State :=
  let close := s.trk.edges ≠ 0 && decide (t < s.trk.tk + 2250)
  let i := if s.trk.edges = 0 then 0 else t - s.trk.tk
  let g := s.trk.gapI
  let p := s.trk.gapPrev
  let m := wheelM s
  let s := modTrk (fun k => { k with camHist := (bAt s t :: k.camHist).take 3 }) s
  let gap := m ≠ 0 && g ≠ 0 && p ≠ 0 && i ≠ 0 && decide ((m + 2) * p < 2 * g ∧ (m + 2) * i < 2 * g)
  let byIndex := m = 0 && s.trk.zPend
  let adv := (((s.trk.uk : Int) + (if s.trk.rev then -(pitch s) else pitch s)) % cycleFine).toNat
  let old := s
  let s := estEdge t adv (pitch s) (modTrk (fun k => { k with gapPrev := g, gapI := i, zPend := false }) s)
  if close || overSpeed s then
    modTrk (fun k => { k with gapI := 0, gapPrev := 0, tk := t, edges := 1, camHist := k.camHist.take 1 }) (estReset s)
  else if gap then countKnown t (if s.trk.rev then wheelN s - m - 2 else 1) (withEst old s)
  else if byIndex then countKnown t (cfgFld s .ztooth 0 10) (withEst old s)
  else s
where
  /-- The estimator as it stood before the edge, for the rebuild of R213. -/
  withEst (old s : State) : State :=
    modTrk (fun k => { k with tk := old.trk.tk, uk := old.trk.uk, edges := old.trk.edges }) s

/-! ### Teeth -/

/-- Positions after the last accepted tooth up to the next present one, in the direction of rotation. -/
def stepsAhead (s : State) : Nat → Nat × Bool → List (Nat × Bool)
  | 0, _ => []
  | f + 1, x =>
    let y := stepTooth s x.1 x.2
    if isTooth s y.1 then [y] else y :: stepsAhead s f y

/-- An edge lies in the window of a tooth at distance d (R223). -/
def inWindow (s : State) (t : Nat) (d : Int) : Bool :=
  let w := cfgFld s .trkCfg 3 4 * (leadRaw s d - leadRaw s (d - pitch s)) / 32
  let e := edgeError s t d
  decide (-w ≤ e ∧ e ≤ w)

/-- Cycle boundaries between the last accepted edge and a point d further on. -/
def crossings (s : State) (d : Int) : Nat :=
  if s.trk.rev then ((d - s.trk.uk + cycleFine - 1) / cycleFine).toNat else (((s.trk.uk : Int) + d) / cycleFine).toNat

/-- The accepted edge lies past a boundary that has not been marked: it is marked now (R219). -/
def catchUp : Nat → State → State
  | 0, s => s
  | f + 1, s => if s.trk.cyc.toNat < s.trk.uCyc.toNat then catchUp f (markBoundary s) else s

/-- ANG_NOW goes on from the angle of the last edge (R216). -/
def showLast (s : State) : State := modTrk (fun t => { t with shown := BitVec.ofNat 20 (t.uk / 4096) }) s

/-- The revolution labels change places, as the phase of the cycle becomes known (R211, R234). -/
def shiftRev (s : State) : State :=
  modTrk (fun t => { t with
    cycRev := !t.cycRev, rev0 := !t.rev0, uk := (t.uk + 2 ^ 31) % 2 ^ 32, prevUk := (t.prevUk + 2 ^ 31) % 2 ^ 32 }) s

/-- A cam sample at tooth 0 (R211, R222); answers whether the tracker loses its phase (cause 6). -/
def camSample (b : Bool) (s : State) : Bool × State :=
  if wheelB s ≠ 2 then (false, s)
  else if s.trk.st = .revSync then
    match s.trk.camLast with
    | none => (false, modTrk (fun t => { t with camLast := some b }) s)
    | some a =>
      if a ≠ b then
        let s := showLast (if (b != wheelPol s) = s.trk.cycRev then s else shiftRev s)
        (false, trkEnter .cycleSync false (modTrk (fun t => { t with camHist := [], camLast := none }) s))
      else
        let s := modTrk (fun t => { t with camLast := some b, camRevs := t.camRevs + 1 }) s
        (false, if 4 ≤ s.trk.camRevs then setCamFail s else s)
  else
    let bad := (b != wheelPol s) != s.trk.cycRev
    let h := s.trk.camHist
    let s := modTrk (fun t => { t with camHist := (bad :: h).take 4, camErr := if bad then satInc t.camErr else t.camErr }) s
    if !bad then (false, s)
    else if h.headD false then (true, s)
    else (false, if ((h.drop 1).take 2).any id then setCamFail s else s)

/-- The ANGB level at tooth 0: an armed injection of 6/3 inverts it in the first and the third revolution (R556). -/
def camLevel (b first0 : Bool) (s : State) : Bool × State :=
  match injStim s 6 3 with
  | some a => if first0 then (b != (a.left != 2), injGiven s) else (b, s)
  | none => (b, s)

/-- An armed injection of 6/4 brings an ANGZ edge to the tooth before the index (R556). -/
def indexExtra (k : Nat) (s : State) : Bool :=
  (injStim s 6 4).isSome && wheelZ s && (nextTooth s 4 k false).1 == cfgFld s .ztooth 0 10

/-- An index that the edge answers (R212); answers whether it leads to LOST (cause 5). -/
def indexJudge (k : Nat) (s : State) : Bool × State :=
  if s.trk.zPend ∧ wheelZ s then
    let s := modTrk (fun t => { t with zPend := false }) s
    if k = cfgFld s .ztooth 0 10 then (false, s)
    else
      let s := modTrk (fun t => { t with indexErr := satInc t.indexErr }) s
      if wheelM s = 0 then (true, s) else (false, report 6 4 63 s)
  else (false, modTrk (fun t => { t with zPend := false }) s)

def indexCheck (k : Nat) (s : State) : Bool × State :=
  if indexExtra k s then
    let (lost, s) := indexJudge k (modTrk (fun t => { t with zPend := true }) s)
    (lost, injApplied s)
  else indexJudge k s

/-- An unverified held count meets the gap test (R226) away from the gap it expects. -/
def gapMisplaced (s : State) (i : Nat) : Bool :=
  let m := wheelM s
  s.trk.unverified && s.trk.gapI ≠ 0 && s.trk.gapPrev ≠ 0 && i ≠ 0 &&
    decide ((m + 2) * s.trk.gapPrev < 2 * s.trk.gapI ∧ (m + 2) * i < 2 * s.trk.gapI)

/-- An edge is accepted as tooth k of revolution r, d beyond the last (0: the same tooth, turned), across the gap or not
(R213, R215, R219, R224, R226, R227, R230). -/
def acceptTooth (t k : Nat) (r : Bool) (d : Int) (acrossGap : Bool) (s : State) : State :=
  let i := if s.trk.edges = 0 then 0 else t - s.trk.tk
  let close := decide (t < s.trk.tk + 2250)
  let wrong := !acrossGap && gapMisplaced s i
  let u := toothAngle s k r
  let row0 := decide (s.trk.row = 0) && decide (2 ≤ s.trk.edges)
  let e := edgeError s t d
  let cross := if s.trk.st = .revSync then 0 else crossings s d
  let b := bAt s t
  let s := estEdge t u d s
  let s := modTrk (fun x => { x with
    tooth := BitVec.ofNat 10 k, cycRev := r, uCyc := x.uCyc + BitVec.ofNat 40 cross, gapPrev := x.gapI, gapI := i
    unverified := x.unverified && !acrossGap }) s
  let s := if row0 && cfgBit s .trkCfg 11 && s.trk.st = .cycleSync && k ≠ 0 then learn k e s else s
  let (lost5, s) := indexCheck k s
  let (b, s) := camLevel b (decide (k = 0 ∧ d ≠ 0)) s
  let first0 := decide (k = 0 ∧ d ≠ 0)
  let s := if first0 then modTrk (fun x => { x with extraRev := 0, gapPosOld := x.gapPos, gapPos := [], rev0 := r }) s else s
  let (lost6, s) := if first0 then (let r := camSample b s; (r.1, injCame 6 3 r.2)) else (false, s)
  let sync := s.trk.st = .revSync || s.trk.st = .cycleSync
  if wrong then lose 3 s
  else if lost5 && sync then lose 5 s
  else if lost6 then lose 6 s
  else if (close || overSpeed s) && sync then lose 7 s
  else refineAll (syncWait (catchUp 8 (judgeSpeed s)))

/-- An extra edge (R224, R226): in the window of missing position g, or outside every window. -/
def extraEdge (g : Option Nat) (s : State) : State :=
  let s := modTrk (fun t => { t with extra := satInc t.extra, extraRev := t.extraRev + 1 }) s
  match g with
  | some k =>
    if s.trk.unverified ∨ s.trk.gapPosOld.contains k then lose 3 s
    else
      let s := modTrk (fun t => { t with gapPos := k :: t.gapPos }) s
      if cfgFld s .trkCfg 12 3 ≤ s.trk.extraRev then lose 4 s else s
  | none => if cfgFld s .trkCfg 12 3 ≤ s.trk.extraRev then lose 4 s else s

/-- The last accepted tooth as a position. -/
def lastTooth (s : State) : Nat × Bool := (s.trk.tooth.toNat, s.trk.cycRev)

/-- An edge in REV_SYNC or CYCLE_SYNC (R223, R224). -/
def syncEdge (t : Nat) (s : State) : State :=
  let l := stepsAhead s 5 (lastTooth s)
  let far := fun (x : Nat × Bool) => distTo s (toothAngle s x.1 x.2)
  if s.trk.predOk then
    match l.find? fun x => inWindow s t (far x) with
    | some x => if isTooth s x.1 then acceptTooth t x.1 x.2 (far x) (decide (1 < l.length)) s else extraEdge (some x.1) s
    | none => extraEdge none s
  else
    match l.getLast? with
    | some x => acceptTooth t x.1 x.2 (far x) (decide (1 < l.length)) s
    | none => s

/-- Teeth of one cycle. -/
def allTeeth (s : State) : List (Nat × Bool) :=
  (List.range (wheelN s - wheelM s)).flatMap fun k => if wheelRevs s = 2 then [(k, false), (k, true)] else [(k, false)]

/-- An edge in HOLDOVER (R221, R225): matched to the extrapolated tooth whose window holds it. -/
def holdEdge (t : Nat) (s : State) : State :=
  let turns := distAt s (((t : Int) - s.trk.tk) * 2 ^ 58) / cycleFine
  let cands := ([turns - 1, turns, turns + 1] : List Int).flatMap fun c =>
    (allTeeth s).map fun x => (x, distTo s (toothAngle s x.1 x.2) + c * cycleFine)
  match cands.find? fun y => decide (0 < y.2) && inWindow s t y.2 with
  | some y =>
    let next := expected s
    let gap := decide (y.1 ≠ next ∨ 1 < (stepsAhead s 5 (lastTooth s)).length)
    let s := trkEnter .cycleSync false s
    let s := acceptHeld t y.1.1 y.1.2 y.2 gap s
    s
  | none => lose 2 (modTrk (fun x => { x with extra := satInc x.extra }) s)
where
  /-- Leaving HOLDOVER keeps s, sets j to 0 and selects row 3 (R213). -/
  acceptHeld (t k : Nat) (r : Bool) (d : Int) (gap : Bool) (s : State) : State :=
    let s := acceptTooth t k r d gap (modTrk (fun x => { x with slope := 0, row := 3, rowCnt := 0 }) s)
    s

/-- An active ANGA edge (R210, R221, R226, R228). -/
def edgeA (t : Nat) (s : State) : State :=
  let rot := rotationAt s t
  let s := modTrk (fun x => { x with lastA := some t, shown := if s.trk.predOk then angNow s else x.shown }) s
  let turned := rot != s.trk.rev
  let st := s.trk.st
  let held := s.trk.posHeld
  let s := if turned then turn s else s
  match st with
  | .stopped =>
    if held then
      let s := trkEnter .cycleSync false (modTrk (fun x => { x with unverified := true, gapI := 0, gapPrev := 0 }) (estReset s))
      if turned then sameTooth t s else syncEdge t s
    else seekEdge t (reseek s)
  | .seeking => seekEdge t s
  | .lost => if cfgBit s .trkCfg 1 then seekEdge t (reseek s) else s
  | .holdover => if turned then lose 2 s else holdEdge t s
  | .revSync | .cycleSync => if turned then sameTooth t s else syncEdge t s
where
  /-- The edge after a reversal belongs to the same tooth (R228). -/
  sameTooth (t : Nat) (s : State) : State :=
    let s := acceptTooth t s.trk.tooth.toNat s.trk.cycRev 0 false s
    modTrk (fun x => { x with shown := BitVec.ofNat 20 (x.uk / 4096), uCyc := x.cyc }) s

/-- The tracker runs (R231): live, not in LOCKDOWN, enabled. -/
def trkRuns (s : State) : Bool := isLive s && s.pw.dev != .lockdown && cfgBit s .trkCfg 0

/-- An edge lost to a full queue (R204). -/
def edgeLost (s : State) : State :=
  match s.trk.st with
  | .stopped | .seeking => modTrk (fun t => { t with extra := satInc t.extra }) s
  | .lost => s
  | _ => lose 8 s

/-- The tracker meets an edge (R204, R206, R207, R212, R213). -/
def meetEdge (e : Edge) (s : State) : State :=
  if e.lostQ then (if trkRuns s then edgeLost s else s)
  else match e.inp with
  | .angb => modTrk (fun t => { t with bOld := t.bLevel, bLevel := e.level, bStamp := e.stamp }) s
  | .angz => if trkRuns s && wheelZ s && e.level != cfgBit s .angIn 2 then modTrk (fun t => { t with zPend := true }) s else s
  | .anga => if trkRuns s && e.level != cfgBit s .angIn 1 then edgeA e.stamp s else s

/-- The EDGE record of the cask (R509, R517). -/
def recEdge (e : Edge) (s : State) : State :=
  let i := match e.inp with | .anga => 0 | .angb => 1 | .angz => 2
  recOffer 0x03 (i + 4 * b2n e.level + 8 * b2n e.lostQ) e.stamp [BitVec.ofNat 20 (min (tbNow s - e.stamp) 1023)] s

/-! ### Commands of the tracker -/

/-- Order of edges: by stamp, and at one stamp ANGZ before ANGA before ANGB (R206). -/
def edgeBefore (a b : Edge) : Bool :=
  let rank := fun (e : Edge) => match e.inp with | .angz => 0 | .anga => 1 | .angb => 2
  decide (a.stamp < b.stamp) || (decide (a.stamp = b.stamp) && decide (rank a < rank b))

def insEdge (e : Edge) : List Edge → List Edge
  | [] => [e]
  | x :: l => if edgeBefore e x then e :: x :: l else x :: insEdge e l

/-- ANGLE_EDGE (R202, R204, R205): the filter of an angle input accepts an edge, whose stamp lies the filter time before. -/
def execAngleEdge (i : AngIn) (level : Bool) (s : State) : Res :=
  let d := fdie s 0
  if d.powered ∧ (lnk s 0).st = .up then
    let lo := match i with | .anga => 3 | .angb => 7 | .angz => 11
    let e : Edge :=
      { inp := i, level := level, stamp := dieTime s - 10 * fld (dieReg s 0 .angIn) lo 4
        lostQ := decide (16 ≤ (d.edges.filter fun x => !x.lostQ).length), usable := 0 }
    .next (modField 0 (fun d => { d with edges := insEdge e d.edges }) s)
  else .next s

/-- EDGE_TAKEUP (R33, R213): the tracker takes up the first edge that has arrived. One that might be overtaken by a resent
edge waits (R580). Live edges are passed over during replay (R533). -/
def execEdgeTakeup (s : State) : Res :=
  match s.trk.queue with
  | [] => .next s
  | e :: l =>
    if !(lnk s 0).badUp.isEmpty then .next s
    else
      let s := modTrk (fun t => { t with queue := l }) (reach e.usable s)
      if !isLive s || s.cask.st = .replaying then .next s
      else .next (meetEdge e (if trkRuns s then recEdge e s else s))

/-- The n-th present tooth after the last accepted one, with its distance. -/
def toothAhead (s : State) : Nat → Nat × Bool × Int
  | 0 => (s.trk.tooth.toNat, s.trk.cycRev, 0)
  | n + 1 =>
    let (k, r, d) := toothAhead s n
    let (k', r') := nextTooth s 4 k r
    let a : Int := toothAngle s k r
    let b : Int := toothAngle s k' r'
    let x := if n = 0 then distTo s (toothAngle s k' r')
      else if s.trk.rev then (a - b) % cycleFine else (b - a) % cycleFine
    (k', r', d + x)

/-- Last instant at which the next expected edge may come: P + w, rounded down (R223, R225). -/
def windowEnd (s : State) : Int :=
  let d := (toothAhead s (if s.trk.st = .holdover then s.trk.holdCnt + 2 else 1)).2.2
  let p := leadRaw s d
  let w := cfgFld s .trkCfg 3 4 * (p - leadRaw s (d - pitch s)) / 32
  s.trk.tk + (p + w) / 2 ^ 58

/-- An active ANGA edge with a stamp up to `t` is on its way. -/
def edgeComing (s : State) (t : Int) : Bool :=
  let act := fun (e : Edge) => e.inp = .anga && e.level != cfgBit s .angIn 1 && decide ((e.stamp : Int) ≤ t)
  s.trk.queue.any act || (fdie s 0).edges.any act || (lnk s 0).up.any (fun f => f.edges.any act)

/-- A missing edge (R225). -/
def edgeMissed (s : State) : State :=
  let s := modTrk (fun t => { t with missed := satInc t.missed, shown := angNow s }) s
  match s.trk.st with
  | .revSync => reseek s
  | .cycleSync =>
    let low := belowMin s
    if cfgFld s .trkCfg 7 4 = 0 ∧ !low then lose 1 s
    else
      let s := trkEnter .holdover false (modTrk (fun t => { t with lowHold := low }) s)
      refineAll (if low then s else report 6 1 63 s)
  | .holdover =>
    let s := modTrk (fun t => { t with holdCnt := t.holdCnt + 1 }) s
    if !s.trk.lowHold ∧ cfgFld s .trkCfg 7 4 ≤ s.trk.holdCnt then lose 1 s else s
  | _ => s

/-- EDGE_MISSING (R225): no edge came for the next expected tooth. T_stop comes first when both fall together (R230). -/
def execEdgeMissing (s : State) : Res :=
  let sync := s.trk.st = .revSync || s.trk.st = .cycleSync || s.trk.st = .holdover
  if trkRuns s && sync && s.trk.predOk && (lnk s 0).badUp.isEmpty then
    let pw := windowEnd s
    let at_ := pw.toNat + 589 + 10 * cfgFld s .angIn 3 4
    let stop := match s.trk.lastA with | some a => decide (a + stopTicks s ≤ at_) | none => false
    if edgeComing s pw || stop then .next s else .next (injCame 6 1 (edgeMissed (reach (tickOf s at_) s)))
  else .next s

/-- The shaft has stopped (R221, R226). -/
def shaftStopped (s : State) : State :=
  let held := wheelB s = 1 && (s.trk.st = .cycleSync || (s.trk.st = .holdover && s.trk.lowHold))
  let s := trkEnter .stopped held s
  modTrk (fun t => { t with uCyc := t.cyc, shown := BitVec.ofNat 20 (t.uk / 4096), zPend := false, unverified := false }) s

/-- TRACKER_STOP_TIMEOUT (R226): no accepted ANGA edge for T_stop. -/
def execTrackerStopTimeout (s : State) : Res :=
  match s.trk.lastA with
  | none => .next s
  | some a =>
    if trkRuns s && s.trk.st != .stopped then .next (shaftStopped (reach (tickOf s (a + stopTicks s)) s)) else .next s

/-- RESEEK of TRK_CMD (R221, R234): from every state but STOPPED. -/
def trkCmdReseek (s : State) : State := if s.trk.st = .stopped then s else reseek s

/-- PHASE0 and PHASE1 of TRK_CMD (R234): the most recent tooth 0 began revolution `r`. -/
def trkCmdPhase (r : Bool) (s : State) : State :=
  if s.trk.st = .revSync then
    let s := showLast (if s.trk.rev0 = r then s else shiftRev s)
    modTrk (fun t => { t with phaseHost := true }) (trkEnter .cycleSync false (modTrk (fun t => { t with camHist := [] }) s))
  else s

/-- CLR_LEARN of TRK_CMD (R234): every TCORk becomes 0. -/
def trkCmdClrLearn (s : State) : State :=
  let s := foldSt (List.range 1024) (fun k s => memPut 15 k 0 s) s
  modTrk (fun t => { t with learned := false, learnCnt := [] }) s

/-- CLR_CNT of TRK_CMD (R234, R236). -/
def trkCmdClrCnt (s : State) : State :=
  modTrk (fun t => { t with missed := 0, extra := 0, losses := 0, indexErr := 0, camErr := 0, dirChg := 0 }) s

end Sys2Proof.Machine
end

