-- ==== Sys2Proof/Machine/Links.lean ====
section
/-! DEFINITION. The field links (12_field_links R375 to R389, R395 to R397, R580; 03 R92, R93; 07 R196 to R200): frames and
their resending, link states, bring-up, loss, watchdog, park and field supply. Frames are structured values; their bit layout
is internal to the module (R375, log entry 18). -/

namespace Sys2Proof.Machine

/-! ### Group events -/

/-- A group event (R400): its bit, and source 48 + g when it is enabled. Bring-up, link loss, timebase events and HR_ERR raise
it in any case (R93, R383, R229, R361). -/
def groupEvent (g : Grp) (b : Nat) (s : State) : State :=
  let s := modLink g (fun l => { l with evt := setBit l.evt b true }) s
  if b ≤ 1 ∨ b = 5 ∨ b = 6 ∨ cfgBit s (.grp g .evtEn) b then raiseNat (48 + g.val) s else s

/-- A LINK record (R509, R517). -/
def recLink (g : Grp) (what : Nat) (s : State) : State :=
  if cfgBit s .caskCfg 5 then recNow 0x06 (g.val + 8 * what) [] s else s

/-! ### Actions of one group -/

/-- The logic die gives up every action it holds for a group: messages, slots, targets (R84, R384). -/
def dropGrpActs (g : Grp) (s : State) : State :=
  let s := modSeq (fun q => { q with acts := q.acts.map fun a => { a with grps := a.grps.filter fun x => x.1 != g } }) s
  reapActs (modLink g (fun l => { l with sched := [], slots := 0 }) s)

/-- SAFE frames to a group for GROUP_CMD (R398): its stamped actions are withdrawn (R84). -/
def safeNowGrp (g : Grp) (s : State) : State := sendSafe g (dropGrpActs g s)

/-! ### GROUP_CMD under way (R398) -/


/-- RELINK (R381, R398): SAFE frames, then a bring-up without park; a DOWN link waits for the next free slot. -/
def relinkGrp (g : Grp) (s : State) : State :=
  match (lnk s g).st with
  | .down => modLink g (fun l => { l with wantUp := true }) s
  | .ranging => modLink g (fun l => { l with wantUp := true }) (safeNowGrp g s)
  | .up => modLink g (fun l => { l with st := .ranging, cause := 6, wantUp := true, conf := [], tbLock := false }) (safeNowGrp g s)

/-- GRPg.CTL (R400). -/
def grpClrCnt (g : Grp) (s : State) : State :=
  modLink g (fun l => { l with dnCrc := 0, upCrc := 0, resent := 0, losses := 0, vmin := 0xFF }) s

/-- The unit of a group has failed: the rest of its items is given up. -/
def grpFail (g : Grp) (st : Status) (s : State) : State :=
  modGrpJob (fun j => { j with
    items := j.items.filter (·.1 != g), waiting := setBit j.waiting g.val false
    fail := match j.fail with | some (x, h) => if g < h then some (st, g) else some (x, h) | none => some (st, g) }) s

/-- Items of a unit up to the next acknowledgement that it needs (R398); `n` bounds them. -/
def grpUnit (g : Grp) : Nat → State → State
  | 0, s => s
  | n + 1, s =>
    match s.grpJob with
    | none => s
    | some j =>
      match j.items.find? fun i => i.1 = g with
      | none => modGrpJob (fun j => { j with done := j.done ++ [g] }) s
      | some (_, op) =>
        let next := modGrpJob (fun j => { j with items := j.items.erase (g, op) }) s
        match op.toNat with
        | 0 =>
          if (lnk s g).st = .up then
            modGrpJob (fun j => { j with waiting := setBit j.waiting g.val true }) (safeNowGrp g next)
          else grpFail g stFault s
        | 1 => grpUnit g n (relinkGrp g next)
        | _ => grpUnit g n (grpClrCnt g next)

/-- The reply of GROUP_CMD (R171, R174). -/
def grpReply (j : GroupJob) (s : State) : State :=
  let map := j.done.foldl (fun m g => m ||| 2 ^ g.val) 0
  let (st, f, a) : Status × Status × Word :=
    match j.fail with
    | none => (stOk, stOk, 0)
    | some (x, g) => (if j.staged ∨ j.done = [] then x else stPartial, x, BitVec.ofNat 20 g.val)
  let s := setGrpJob none s
  if resetting s then s else queueReply j.cmd.port st j.cmd.tag j.cmd.wake (splitReply j.done.length f a map false) s

/-- Check 6 of one unit (R171, R185). -/
def grpTapped (p : Port) (g : Grp) (s : State) : Bool := tapHeld s p (grpTap g) || opHeld s p Op.groupCmd

/-- Units go on as far as they can; the reply follows the last (R398). `n` bounds the units. -/
def grpRun : Nat → State → State
  | 0, s => s
  | n + 1, s =>
    match s.grpJob with
    | none => s
    | some j =>
      if j.waiting ≠ 0 then s
      else if j.staged ∨ j.fail.isSome then grpReply j s
      else
        match j.items with
        | [] => grpReply j s
        | (g, _) :: _ =>
          if grpTapped j.cmd.port g s then grpRun n (grpFail g stTap s) else grpRun n (grpUnit g 64 s)

/-- The unit that waits for a group goes on: its SAFE frame is acknowledged, or its link is lost. -/
def grpResume (g : Grp) (ok : Bool) (s : State) : State :=
  match s.grpJob with
  | none => s
  | some j =>
    if bit j.waiting g.val then
      let s := if ok then grpUnit g 64 (modGrpJob (fun j => { j with waiting := setBit j.waiting g.val false }) s)
        else grpFail g stFault s
      grpRun 8 s
    else s

/-- SAFE_NOW_ACK (R398): an upstream frame has acknowledged a SAFE frame of the unit. -/
def execSafeNowAck (g : Grp) (s : State) : Res :=
  match s.grpJob with
  | some j => if bit j.waiting g.val ∧ (lnk s g).st = .up ∧ (lnk s g).safeFrom = none then .next (grpResume g true s) else .next s
  | none => .next s

/-! ### Building a downstream frame -/

def ceil250 (t : Nat) : Nat := (t + 249) / 250 * 250

/-- A message that carries the whole action. -/
def SchedMsg.whole (m : SchedMsg) : Bool := m.first || m.again

/-- Order of messages for a frame (R262, R378). -/
def schedBefore (a b : SchedMsg) : Bool :=
  decide (a.stamp < b.stamp) ||
    (decide (a.stamp = b.stamp) && ((a.whole && !b.whole) || (a.whole == b.whole && decide (a.id < b.id))))

def insSched (m : SchedMsg) : List SchedMsg → List SchedMsg
  | [] => [m]
  | x :: l => if schedBefore m x then m :: x :: l else x :: insSched m l

def sortSched (l : List SchedMsg) : List SchedMsg := l.foldl (fun acc m => insSched m acc) []

/-- The slot an action holds at a group. -/
def slotOf (s : State) (g : Grp) (id : Nat) : Option (Fin 64) :=
  match s.seq.acts.find? fun a => a.id = id with
  | some a => (match a.grps.find? fun x => x.1 = g with | some x => x.2 | none => none)
  | none => none

def freeSlotOf (l : Link) : Option (Fin 64) := (List.finRange 64).find? fun k => !bit l.slots k.val

/-- An action takes a slot at a group (R386). -/
def takeSlot (g : Grp) (id : Nat) (k : Fin 64) (s : State) : State :=
  let s := modLink g (fun l => { l with slots := setBit l.slots k.val true }) s
  modSeq (fun q => { q with acts := q.acts.map fun a =>
    if a.id = id then { a with grps := a.grps.map fun x => if x.1 = g then (g, some k) else x } else a }) s

/-- A first message waits for a slot; it counts once per action (R262). -/
def countDeferred (id : Nat) (s : State) : State :=
  if s.seq.acts.any fun a => a.id = id ∧ !a.deferred then
    modSeq (fun q => { q with
      deferred := satInc q.deferred, acts := q.acts.map fun a => if a.id = id then { a with deferred := true } else a }) s
  else s

/-- A refinement may still be sent: it becomes usable before the horizon of the start or of a pulse's end (R259). -/
def refineInTime (usable : Nat) (m : SchedMsg) : Bool :=
  decide (usable + 250 ≤ m.stamp) || (match m.endStamp with | some e => decide (usable + 250 ≤ e) | none => false)

/-- Messages for a frame, at most `n`, and those that wait (R34, R259, R262). -/
def pickSched (g : Grp) (usable : Nat) : Nat → List SchedMsg → State → (List SchedMsg × List SchedMsg) × State
  | _, [], s => (([], []), s)
  | 0, l, s => (([], l), s)
  | n + 1, m :: l, s =>
    match slotOf s g m.id with
    | some k =>
      if m.whole || refineInTime usable m then
        let r := pickSched g usable n l s
        (({ m with slot := k } :: r.1.1, r.1.2), r.2)
      else pickSched g usable (n + 1) l s
    | none =>
      if m.whole then
        match freeSlotOf (lnk s g) with
        | some k =>
          let r := pickSched g usable n l (takeSlot g m.id k s)
          (({ m with slot := k } :: r.1.1, r.1.2), r.2)
        | none =>
          let r := pickSched g usable (n + 1) l (countDeferred m.id s)
          ((r.1.1, m :: r.1.2), r.2)
      else pickSched g usable (n + 1) l s

/-- The frame is a SAFE frame (R83, R90, R94, R379, R398). -/
def sendsSafe (s : State) (l : Link) : Bool :=
  resetting s || s.pw.dev = .lockdown || decide (0 < l.safeLeft) || l.safeFrom.isSome ||
    (l.st = .ranging && l.wantUp)

/-- A logic die whose links work: in BOOT after the PLL has locked, or live, and not on its way to STANDBY. -/
def linksRun (s : State) : Bool :=
  s.pw.tb0.isSome && (isLive s || s.pw.dev = .boot) && s.pw.stby != .entering

/-- The next downstream frame of a group leaves (R196, R375 to R379). -/
def sendDown (g : Grp) (s : State) : State :=
  let start := max (lnk s g).nextDown (ceil250 (tbNow s))
  let s := reach (tickOf s start) s
  let l := lnk s g
  let safe := sendsSafe s l
  let normal := l.st = .up && !safe
  let ((take, keep), s) := if normal then pickSched g (start + 275) 8 (sortSched l.sched) s else (([], l.sched), s)
  let conf := if l.st = .up then (if safe then l.conf.filter fun m => !isHostValue m else l.conf) else []
  let wait := if safe then l.conf.filter isHostValue else []
  let f : DownFrame :=
    { seq := l.seqDown, typ := if safe then .safe else if normal then .normal else .range, start := start, sched := take
      conf := conf, withdraw := if normal then l.withdraw else none, lastUp := l.lastUp
      badUp := l.badUp.filter fun n => (match l.lastUp with | some u => decide (n < u) | none => false) }
  let s := modLink g (fun l => { l with
    nextDown := start + 250, seqDown := l.seqDown + 1, sched := keep, conf := wait, withdraw := none
    safeLeft := if safe then l.safeLeft - 1 else l.safeLeft, sent := (f :: l.sent).take 16, down := l.down ++ [f] }) s
  match s.pw.resetSeq with
  | some q => if safe then modPw (fun p => { p with resetSeq := some { q with sent := q.sent.set g (q.sent[g] + 1) } }) s else s
  | none => s

/-- DOWNSTREAM_FRAME_SEND (R375). -/
def execDownstreamFrameSend (g : Grp) (s : State) : Res :=
  if linksRun s && (lnk s g).st != .down then .next (sendDown g s) else .next s

/-! ### Downstream frames at the field die -/

/-- The phase error of a good frame (R197, R198): lock after 64 frames within 1 ns, lost after 4 beyond 6 ns; beyond 100 ns the
count of a die without lock is reloaded (log entry 25), and held actions that it has passed execute at once as late ones. -/
def dieDiscipline (g : Grp) (phase : Int) (s : State) : State :=
  let d := fdie s g
  if !d.ranged then s
  else
    let a := phase.natAbs
    let inRun := if a ≤ 4 then min 64 (d.inRun + 1) else 0
    let outRun := if 24 < a then d.outRun + 1 else 0
    let s := modField g (fun d => { d with phase := phase, inRun := inRun, outRun := outRun, lock := d.lock || decide (inRun = 64) }) s
    let s := if d.lock ∧ 4 ≤ outRun then
        addReport g (.fault 3 63) (addReport g (.grp 6) (modField g (fun d => { d with lock := false, outRun := 0 }) s))
      else s
    if 400 < a ∧ !(fdie s g).lock then
      let s := addReport g (.fault 4 63) (addReport g (.grp 6) (modField g (fun d => { d with phase := 0, inRun := 0, outRun := 0 }) s))
      let passed := execOrder ((fdie s g).slots.filter fun m => decide (m.stamp ≤ dieTime s))
      foldSt passed (fun m s => execAct g m (if m.running then s else addReport g (.late m.id false) s)) s
    else s

/-- What a good frame says about the die's own frames (R580). -/
def dieAcked (f : DownFrame) (d : Field) : Field :=
  { d with
    again := d.again ++ d.sentUp.filter fun u => f.badUp.contains u.seq
    sentUp := d.sentUp.filter fun u => !f.badUp.contains u.seq && (match f.lastUp with | some n => decide (n < u.seq) | none => true) }

/-- A good frame becomes usable (R379, R387): safe states, withdrawals, schedule messages, configuration. -/
def dieTakes (g : Grp) (f : DownFrame) (phase : Int) (s : State) : State :=
  let s := modField g (fun d => dieAcked f { d with
    linked := true, badRun := 0, lastDown := some f.seq, lastGood := s.now, wdArmed := true
    badDown := d.badDown.filter fun n => decide (f.seq ≤ n + 8), wasParked := d.wasParked || d.parked, parked := false }) s
  let s := dieDiscipline g phase s
  let s := if f.typ = .safe then panSafe g (dieSafe g s) else s
  let s := match f.withdraw with
    | some e => panWithdraw g e (dieWithdraw g e s)
    | none => s
  let s := foldSt f.sched (dieSched g) s
  foldSt f.conf (dieConf g (decide (f.typ = .normal))) s

/-- A discarded frame (R378, R383): four in a row lose the link. -/
def dieDiscards (g : Grp) (f : DownFrame) (s : State) : State :=
  if (fdie s g).linked then
    let s := modField g (fun d => { d with badRun := d.badRun + 1, badDown := f.seq :: d.badDown }) s
    if 4 ≤ (fdie s g).badRun then dieLost g s else s
  else s

/-- The next frame of a link in one direction is to fail its CRC (R556). -/
def injFrame (s : State) (g : Grp) (up : Bool) : Bool :=
  match injStim s g.val 1 with
  | some a => bit a.arg 4 == up
  | none => false

/-- What an injection adds to a measured phase, in 0.25 ns (R556). -/
def injPhase (s : State) (g : Grp) : Int :=
  if (injStim s g.val 3).isSome then 32 else if (injStim s g.val 4).isSome then 480 else 0

/-- DOWNSTREAM_FRAME_RECEIVE (R387): the first frame in flight becomes usable 275 ticks after its start (R32); `phase` is the
measured phase error in 0.25 ns, positive when the die is late. Armed injections spoil frames and phases (R556). -/
def execDownstreamFrameReceive (g : Grp) (good : Bool) (phase : Int) (s : State) : Res :=
  match (lnk s g).down with
  | [] => .next s
  | f :: l =>
    let s := modLink g (fun k => { k with down := l }) (reach (tickOf s (f.start + 275)) s)
    let bad := injFrame s g false
    let off := injPhase s g
    if !(fdie s g).powered then .next s
    else if good && !bad then .next (dieTakes g f (phase + off) (whenSt (off != 0) injGiven s))
    else .next (dieDiscards g f (whenSt bad injGiven s))

/-! ### Upstream frames -/

/-- What the die tells of itself (R200, R374, R400). -/
def grpRep (d : Field) : GrpRep :=
  { vfg := d.vfg, lock := d.lock, phase := sword 10 (max (-512) (min 511 d.phase)), hrStat := hrStatOf d, hrDrv := hrDrvOf d }

/-- The next upstream frame of a field die (R204, R284, R375, R377, R382, R580). -/
def upFrame (g : Grp) (start : Nat) (s : State) : UpFrame :=
  let d := fdie s g
  if d.linked then
    let old := d.again.flatMap (·.edges)
    { seq := d.seqUp, start := start, beacon := false, supply := d.supply
      samples := d.samples.filter fun x => decide (x.stamp + 200 ≤ start)
      edges := old ++ d.edges.take (4 - old.length), reports := d.again.flatMap (·.reports) ++ d.reports
      chan := some (d.rot, repOf s (chanOf g d.rot)), grp := grpRep d, lastDown := d.lastDown
      badDown := d.badDown.filter fun n => (match d.lastDown with | some u => decide (n < u) | none => false)
      mark := d.again.flatMap fun u => u.seq :: u.mark }
  else
    { seq := d.seqUp, start := start, beacon := true, supply := d.supply, samples := [], edges := [], reports := [], chan := none
      grp := grpRep d, lastDown := none, badDown := [], mark := [] }

/-- The frame leaves the die: what it carries is no longer queued. -/
def sendUp (g : Grp) (start : Nat) (s : State) : State :=
  let f := upFrame g start s
  let s := modField g (fun d => if f.beacon then { d with seqUp := d.seqUp + 1 } else { d with
    seqUp := d.seqUp + 1, samples := d.samples.filter fun x => !decide (x.stamp + 200 ≤ start)
    edges := d.edges.drop (4 - (d.again.flatMap (·.edges)).length), reports := [], rot := d.rot + 1, again := []
    sentUp := (d.sentUp ++ [f]).drop (d.sentUp.length - 15) }) s
  modLink g (fun l => { l with up := l.up ++ [f] }) s

/-- UPSTREAM_FRAME_SEND (R375): the next multiple of 250 of the die's timebase. Nothing listens while the logic die stands
still, nor to more than beacons while its link is DOWN. -/
def execUpstreamFrameSend (g : Grp) (s : State) : Res :=
  let d := fdie s g
  if d.powered then
    let start := max d.nextUp (ceil250 (dieTime s))
    let s := modField g (fun d => { d with nextUp := start + 250 }) (reach (s.now + (start - dieTime s)) s)
    if linksRun s && (!d.linked || (lnk s g).st != .down) then .next (sendUp g start s) else .next s
  else .next s

/-! ### Upstream frames at the logic die -/

/-- A link is DOWN: everything in transit for the group is gone (R381, R384, R295). -/
def linkClear (g : Grp) (s : State) : State :=
  let s := dropGrpActs g s
  modLink g (fun l => { l with
    conf := [], withdraw := none, sent := [], down := [], up := [], safeLeft := 0, safeFrom := none, wantUp := false
    lastUp := none, badUp := [], badRun := 0, beacon := none, tbLock := false }) s

/-- Channel samples still expected of a group. -/
def expectedOf (s : State) (g : Grp) : Nat :=
  (s.smp.expect.filter fun e => e.1 = g).foldl (fun n e => n + (lidxs.filter fun l => bit e.2.2.1 l.val).length) 0

/-- Samples lost (R285). -/
def countLost (g : Grp) (n : Nat) (s : State) : State := modSmp (fun m => { m with lost := vmod m.lost g (satAdd · n) }) s

/-- Staged units of a group fail when its link is lost before their common instant (R174). -/
def cfgJobLost (g : Grp) (s : State) : State :=
  setCfgJob (s.cfgJob.map fun j => if tbNow s < j.at_ then { j with lost := setBit j.lost g.val true } else j) s

/-- The logic die declares a link that was UP lost (R383, R384, R295). -/
def linkLost (g : Grp) (cause : BitVec 3) (s : State) : State :=
  let last := (lnk s g).lastGoodUp
  let n := expectedOf s g
  let s := linkClear g (cfgJobLost g s)
  let s := modLink g (fun l => { l with st := .down, cause := cause, losses := satInc l.losses }) s
  let s := recLink g 2 (groupEvent g 1 s)
  let s := report (grpDom g) 2 63 s
  let s := resolveBefore g (2 ^ 60) [] (countLost g n s)
  injCame g.val 1 (grpResume g false (closePans g last 5 (fun _ => true) s))

/-- A report of a field die (R344, R371, R377, R400). -/
def takeReport (g : Grp) (r : Report) (s : State) : State :=
  match r with
  | .dig l b =>
    let n := chanOf g l
    let s := modMir n (fun m => { m with evt := setBit m.evt b.val true }) s
    if cfgBit s (.ch n .evtEn) b.val then raiseNat n.val s else s
  | .ana l b =>
    let n := chanOf g l
    let s := modMir n (fun m => { m with aevt := setBit m.aevt b.val true }) s
    if cfgBit s (.ch n .aevtEn) b.val then raiseNat n.val s else s
  | .grp b => groupEvent g b.val s
  | .fault c u =>
    injCame g.val c.toNat
      (report (grpDom g) c.toNat u.toNat (if c = 4 then modLink g (fun l => { l with stepped := true }) s else s))
  | .late id dropped =>
    match s.seq.acts.find? fun a => a.id = id with
    | some a =>
      if a.late ≠ 0 then s else countLate g.val dropped (setAct { a with late := if dropped then 3 else 1 } s)
    | none => countLate g.val dropped s
  | .slotFree id =>
    match slotOf s g id with
    | some k =>
      let s := modLink g (fun l => { l with slots := setBit l.slots k.val false, sched := l.sched.filter fun m => m.id != id }) s
      reapActs (modSeq (fun q => { q with acts := q.acts.map fun a =>
        if a.id = id then { a with grps := a.grps.filter fun x => x.1 != g } else a }) s)
    | none => s
  | .busy _ _ => modSmp (fun m => { m with busy := vmod m.busy g satInc }) s
  | .supply => modLink g (fun l => { l with supply := .missing }) s

/-- Schedule messages of a discarded frame that are sent again, whole (R378). -/
def resendSched (s : State) (g : Grp) (l : List SchedMsg) : List SchedMsg :=
  (l.filter fun m => (slotOf s g m.id).isSome && (m.whole || decide (tbNow s + 250 ≤ m.stamp))).map fun m =>
    match s.seq.acts.find? fun a => a.id = m.id with
    | some a => { schedOf a false m.slot with again := true }
    | none => m

/-- A downstream frame was discarded (R378, R380): its content is sent again. -/
def resendFrame (g : Grp) (f : DownFrame) (s : State) : State :=
  let ms := resendSched s g f.sched
  let conf := if s.pw.dev = .run then f.conf else f.conf.filter fun m => !isHostValue m
  let s := modLink g (fun l => { l with
    dnCrc := satInc l.dnCrc, resent := satAdd l.resent ms.length, conf := conf ++ l.conf
    sched := l.sched.filter (fun m => !(ms.any fun x => x.id = m.id)) ++ ms
    withdraw := match f.withdraw with | some e => some (joinExtent e l.withdraw) | none => l.withdraw }) s
  injCame g.val 1 (report (grpDom g) 1 63 (recLink g 0 s))

/-- What an upstream frame says of the frames sent (R378, R379). -/
def takeAcks (g : Grp) (f : UpFrame) (s : State) : State :=
  let bad := (lnk s g).sent.filter fun d => f.badDown.contains d.seq
  let s := modLink g (fun l => { l with
    sent := l.sent.filter fun d => !f.badDown.contains d.seq && (match f.lastDown with | some n => decide (n < d.seq) | none => true)
    safeFrom := match l.safeFrom, f.lastDown with
      | some a, some n => if a ≤ n then none else some a
      | x, _ => x }) s
  foldSt bad.reverse (resendFrame g) s

/-- An armed injection of 6/1 discards the next active ANGA edge (R556). -/
def dropEdge (l : List Edge) (s : State) : List Edge × State :=
  let act := fun (e : Edge) => e.inp = .anga && !e.lostQ && e.level != cfgBit s .angIn 1
  if (injStim s 6 1).isSome && l.any act then (l.eraseP act, injGiven s) else (l, s)

/-- Edges that have come wait for the tracker (R33, R580). -/
def takeEdges (l : List Edge) (s : State) : State :=
  let (l, s) := dropEdge l s
  modTrk (fun t => { t with queue := l.foldl (fun q e => insEdge { e with usable := s.now } q) t.queue }) s

/-- A good upstream frame of a link that is not DOWN. -/
def takeUp (g : Grp) (f : UpFrame) (s : State) : State :=
  let s := modLink g (fun l => { l with
    badRun := 0, lastUp := some f.seq, lastGoodUp := f.start, badUp := l.badUp.filter fun n => !f.mark.contains n
    supply := f.supply, vfg := f.grp.vfg, vmin := if f.grp.vfg < l.vmin then f.grp.vfg else l.vmin
    tbLock := f.grp.lock && l.st = .up, tbErr := f.grp.phase, hrStat := f.grp.hrStat, hrDrv := f.grp.hrDrv }) s
  let s := takeAcks g f s
  let s := takeEdges f.edges s
  let s := match f.chan with
    | some (l, r) => modMir (chanOf g l) (fun m => { m with rep := r }) s
    | none => s
  let s := foldSt f.reports (takeReport g) s
  resolveBefore g (f.start - 199) f.samples (foldSt f.samples (takeLast g) s)

/-- A beacon (R382): the good ones count, with gaps of at most 4 µs. -/
def takeBeacon (g : Grp) (f : UpFrame) (s : State) : State :=
  if (lnk s g).st = .up then linkLost g 4 s
  else if (lnk s g).st = .down then
    modLink g (fun l => { l with
      supply := f.supply, beaconLast := s.now
      beacon := if f.supply = .good then
          (match l.beacon with | some t => if s.now ≤ l.beaconLast + 1000 then some t else some s.now | none => some s.now)
        else none }) s
  else s

/-- A discarded upstream frame (R285, R380, R383, R580): four in a row lose the link. -/
def upDiscarded (g : Grp) (f : UpFrame) (s : State) : State :=
  let s := modLink g (fun l => { l with upCrc := satInc l.upCrc, badRun := l.badRun + 1, badUp := l.badUp ++ [f.seq] }) s
  let s := report (grpDom g) 1 63 (recLink g 1 (countLost g f.samples.length s))
  let s := resolveBefore g (f.start - 199) [] s
  if 4 ≤ (lnk s g).badRun ∧ (lnk s g).st = .up then linkLost g 3 s else s

/-- UPSTREAM_FRAME_RECEIVE (R378): the first frame in flight becomes usable 275 ticks after its start. -/
def execUpstreamFrameReceive (g : Grp) (good : Bool) (s : State) : Res :=
  match (lnk s g).up with
  | [] => .next s
  | f :: l =>
    let s := modLink g (fun k => { k with up := l }) (reach (s.now + (f.start + 275 - dieTime s)) s)
    if !linksRun s then .next s
    else if f.beacon then .next (if good then takeBeacon g f s else s)
    else if (lnk s g).st = .down then .next s
    else
      let bad := injFrame s g true
      .next (if good && !bad then takeUp g f s
        else whenSt bad (injCame g.val 1) (upDiscarded g f (whenSt bad injGiven s)))

/-! ### Link states -/

/-- LINK_LOST (R383): the receiver loses lock on the upstream stream of a link that is UP. -/
def execLinkLost (g : Grp) (s : State) : Res :=
  if linksRun s && (lnk s g).st = .up then .next (linkLost g (if (lnk s g).supply = .missing then 2 else 4) s) else .next s

/-- FIELD_LINK_LOST (R384): the field die loses lock on the downstream stream. -/
def execFieldLinkLost (g : Grp) (s : State) : Res :=
  if (fdie s g).powered && (fdie s g).linked then .next (dieLost g s) else .next s

/-- A group that BOOT brings up in its slot (R87, R90), groups in ascending order. -/
def bootSlot (s : State) (g : Grp) : Bool :=
  ((s.pw.dev = .boot && s.pw.boot.phase = .groups) || (s.pw.dev = .lockdown && s.pw.boot.noImage)) &&
    (lnk s g).bringUps = 0 && (groups.all fun k => decide (g ≤ k) || (lnk s k).bringUps != 0)

/-- GROUP_BRING_UP (R92, R93, R381, R398): ranging begins at the first instant at least 2 ms after the last bring-up. -/
def execGroupBringUp (g : Grp) (s : State) : Res :=
  let l := lnk s g
  let again := l.wantUp && (isLive s) && (l.st = .down || (l.st = .ranging && decide (l.safeLeft = 0)))
  if linksRun s && (bootSlot s g || again) && !resetting s then
    let s := match s.pw.lastBringUp with | some t => reach (t + 2 * ms) s | none => s
    let n := expectedOf s g
    let s := resolveBefore g (2 ^ 60) [] (countLost g n (linkClear g s))
    .next (modPw (fun p => { p with lastBringUp := some s.now })
      (modLink g (fun l => { l with st := .ranging, rangingAt := s.now, bringUps := l.bringUps + 1, seqDown := 0 }) s))
  else .next s

/-- LINK_UP (R381, R385, R93): ranging, sync load and lock are complete. A vintage below 3 is refused. The group's
configuration follows. -/
def execLinkUp (g : Grp) (vintage : BitVec 4) (s : State) : Res :=
  let l := lnk s g
  if linksRun s && l.st = .ranging && !l.wantUp && (fdie s g).powered && decide (s.now ≤ l.rangingAt + 5 * ms) && !resetting s then
    let d := fdie s g
    let s := modLink g (fun l => { l with vintage := vintage, wdExp := d.wdExp, parked := d.parked || d.wasParked }) s
    if vintage.toNat < 3 then .next (modLink g (fun l => { l with st := .down, cause := 5 }) (linkClear g s))
    else
      let s := modField g (fun d => { d with
        linked := true, ranged := true, lock := true, inRun := 64, outRun := 0, phase := 0, badRun := 0, lastGood := s.now
        wdArmed := true, wdExp := false, parked := false, wasParked := false, lastDown := none, badDown := [], sentUp := []
        again := [] }) s
      let s := modLink g (fun l => { l with
        st := .up, supply := d.supply, vfg := d.vfg, vmin := if d.vfg < l.vmin then d.vfg else l.vmin, tbLock := true, tbErr := 0
        lastGoodUp := tbNow s }) s
      let s := modGov (fun x => { x with reported := setBit x.reported g.val true }) (groupEvent g 0 s)
      .next (if s.pw.dev = .lockdown ∧ s.pw.boot.noImage then s else sendAllConf g s)
  else .next s

/-- LINK_LOCK_TIMEOUT (R381): 5 ms of ranging without UP. -/
def execLinkLockTimeout (g : Grp) (s : State) : Res :=
  let l := lnk s g
  if linksRun s && l.st = .ranging && !l.wantUp then
    .next (modLink g (fun l => { l with st := .down, cause := 1 }) (linkClear g (reach (l.rangingAt + 5 * ms) s)))
  else .next s

/-- SUPPLY_GOOD_WAIT_END (R382): beacons have reported a good supply for 10 ms; a bring-up waits for the next free slot. -/
def execSupplyGoodWaitEnd (g : Grp) (s : State) : Res :=
  let l := lnk s g
  match l.beacon with
  | some t =>
    if linksRun s && l.st = .down && (l.cause = 1 || l.cause = 2) then
      .next (modLink g (fun l => { l with wantUp := true, beacon := none }) (reach (t + 10 * ms) s))
    else .next s
  | none => .next s

/-! ### Watchdog, park, supply -/

/-- LINK_WATCHDOG_EXPIRY (R388, R389): no good frame for WD_TIME. -/
def execLinkWatchdogExpiry (g : Grp) (s : State) : Res :=
  let d := fdie s g
  if d.powered && d.wdArmed then
    let s := reach (d.lastGood + d.wdTime * us) s
    .next (addReport g (.grp 4) (dieSafe g (modField g (fun d => { d with wdArmed := false, wdExp := true }) s)))
  else .next s

/-- FIELD_PARK (R92): 250 ms of link silence. -/
def execFieldPark (g : Grp) (s : State) : Res :=
  let d := fdie s g
  if d.powered && !d.linked && !d.parked then
    .next (modField g (fun d => { d with parked := true, driven := false, drive := 0 }) (reach (d.silentSince + 250 * ms) s))
  else .next s

/-- FIELD_POWER_UP (R395, R397, R388): the die starts with its channels OFF; the thermal latch of each switch above its clearing
threshold sets (`hot`). -/
def execFieldPowerUp (g : Grp) (hot : BitVec 8) (s : State) : Res :=
  if (fdie s g).powered then .next s
  else
    .next (modField g (fun d => { Field.reset with
      supply := .low, silentSince := s.now, lastGood := s.now, vfg := d.vfg
      slices := Vector.ofFn fun (l : Fin 8) => { Slice.reset with therm := bit hot l.val } }) s)

/-- VFG_LOW (R395, R396). -/
def execVfgLow (g : Grp) (s : State) : Res :=
  if (fdie s g).powered && (fdie s g).supply = .good then
    .next (addReport g (.grp 2) (modField g (fun d => { d with supply := .low }) s))
  else .next s

/-- VFG_LOW_END (R396); not while an injection holds VFg low (R556). -/
def execVfgLowEnd (g : Grp) (s : State) : Res :=
  if (fdie s g).powered && (fdie s g).supply = .low && !injRuns s 12 1 g.val then
    .next (addReport g (.grp 3) (modField g (fun d => { d with supply := .good }) s))
  else .next s

/-- VFG_MISSING (R397): outputs off, latches cleared, a supply report in the next upstream frame, and the die stops. Its state
is lost. -/
def execVfgMissing (g : Grp) (s : State) : Res :=
  let d := fdie s g
  if d.powered then
    let s := addReport g .supply s
    let s := if linksRun s && d.linked && (lnk s g).st != .down then sendUp g (max d.nextUp (ceil250 (dieTime s))) s else s
    .next (modField g (fun _ => { Field.reset with powered := false, supply := .missing, silentSince := s.now, wdArmed := false, vfg := 0 }) s)
  else .next s

end Sys2Proof.Machine
end

