-- ==== Sys2Proof/Machine/Governor.lean ====
section
/-! DEFINITION. The power and thermal governor (13_power_thermal_governor R401 to R413): budget, estimate, host starts, the worst
case of a bank, overload. Powers are in µW, currents in mA. -/

namespace Sys2Proof.Machine

/-! ### Estimate -/

/-- R_on of a switch at a mean square in mA²: 0.15 Ω. -/
def switchPow (sq : Nat) : Nat := sq * 15 / 100

/-- Loop current in a monitor word times a voltage in 0.2 V units. -/
def loopPow (v : Nat) (w : Word) : Nat := v * fld w 0 12 * 16 / 10

/-- Estimate of a channel from its last report (R403). -/
def estChan (s : State) (n : Chan) : Nat :=
  let r := (mir s n).rep
  let m := r.mode.toNat
  let vfg := (lnk s (chanGrp n)).vfg.toNat
  let vp := fld r.amon 12 8
  if isDigIn m then r.vpin.toNat * 560
  else if m = mAiV ∨ m = mAiDiff then 30000
  else if m = mDo then 20000 + switchPow (r.curMa * r.curMa)
  else if m = mDoPwm then 20000 + switchPow r.msq
  else if m = mAiI then 30000 + (if r.loop then loopPow (vfg - vp) r.amon else loopPow vp r.amon)
  else if m = mAoI then 30000 + loopPow (vfg - vp) r.amon
  else 0

/-- A group counts while it is UP, and with its last report while its link is not UP, unless its supply went missing or it has
not been UP since BOOT (R403). -/
def counted (s : State) (g : Grp) : Bool :=
  (lnk s g).st = .up || (bit s.gov.reported g.val && !((lnk s g).st = .down && (lnk s g).cause = 2))

/-- Estimate of the channels that satisfy `p`, with the base items (R403, R404). -/
def estOf (s : State) (p : Chan → Bool) : Nat :=
  1600000 + (groups.filter (counted s)).foldl (fun e g =>
    e + 300000 + ((lidxs.map (chanOf g)).filter p).foldl (fun e n => e + estChan s n) 0) 0

/-- Measured estimate of the module, and of one group (R403, R413). -/
def estModule (s : State) : Nat := estOf s (fun _ => true) + (if injRuns s 10 3 63 then 15000000 else 0)
def estGroup (s : State) (g : Grp) : Nat :=
  if counted s g then 300000 + (lidxs.map (chanOf g)).foldl (fun e n => e + estChan s n) 0 else 0

def bankIdxs : List (Fin 2) := [0, 1]

/-- Banks that are WAITING or ACTIVE. -/
def armedBanks (s : State) : List (Fin 2) := bankIdxs.filter fun b => (bnk s b).st != .unarmed

/-- A channel is targeted by an armed bank (R404). -/
def targeted (s : State) (n : Chan) : Bool := (armedBanks s).any fun b => bit (bnk s b).targets n.val

/-- E_host and R_b (R404, R410). -/
def eHost (s : State) : Nat := estOf s fun n => !targeted s n
def resvOf (s : State) : Nat := maxNat ((armedBanks s).map fun b => (bnk s b).worst)

/-- Budget in force in µW. -/
def budgetUw (s : State) : Nat := s.gov.budget * 1000

/-! ### Temperature and budget -/

/-- Sum and number of the samples. -/
def tcSum (g : Gov) : Int := g.samples.foldl (· + ·) 0
def tcLen (g : Gov) : Nat := max 1 g.samples.length

/-- Budget in mW from the filtered value (R401, R402). -/
def budgetOf (g : Gov) : Nat :=
  let n : Int := tcLen g
  if g.sensorFail then 4000
  else if tcSum g ≤ 420 * n then 15000
  else if tcSum g < 500 * n then (roundDiv (60000 * n - 550 * (tcSum g - 420 * n)) (4 * tcLen g)).toNat
  else 4000

/-- A reading and the plausibility of the sensor (R402). -/
def sensorStep (raw : Int) (s : State) : State :=
  let g := s.gov
  let fresh := g.samples.isEmpty || raw != g.lastRaw
  let s := modGov (fun g => { g with
    samples := (raw :: g.samples).take 16, lastRaw := raw, changedAt := if fresh then s.now else g.changedAt }) s
  let bad := decide (raw < -240 ∨ 640 < raw) || decide (s.gov.changedAt + 10000 * ms ≤ s.now)
  if bad then
    let on := !s.gov.sensorFail
    let s := modGov (fun g => { g with sensorFail := true, plausibleAt := none }) s
    if on then report 10 1 63 s else s
  else if s.gov.sensorFail then
    match s.gov.plausibleAt with
    | none => modGov (fun g => { g with plausibleAt := some s.now }) s
    | some t => if t + 1000 * ms ≤ s.now then modGov (fun g => { g with sensorFail := false, plausibleAt := none }) s else s
  else s

/-- TC_HIGH (R402). -/
def highStep (s : State) : State :=
  let n : Int := tcLen s.gov
  if s.gov.tcHigh then (if tcSum s.gov < 492 * n then modGov (fun g => { g with tcHigh := false }) s else s)
  else if 500 * n < tcSum s.gov then report 10 2 63 (modGov (fun g => { g with tcHigh := true }) s)
  else s

/-- OVER (R411). -/
def overStep (s : State) : State :=
  if budgetUw s < estModule s then
    match s.gov.overAt with
    | some _ => s
    | none => raise 85 (modGov (fun g => { g with overAt := some s.now, overNext := s.now + 1000 * ms, cntOver := satInc g.cntOver }) s)
  else modGov (fun g => { g with overAt := none }) s

/-- The next multiple of `n` ticks of the timebase. -/
def nextGrid (n : Nat) (s : State) : State := reach (tickOf s ((tbNow s / n + 1) * n)) s

/-- The governor's firmware runs (R401): from the row t0 + 60 ms of BOOT on. -/
def govRuns (s : State) : Bool := isLive s || (s.pw.dev = .boot && s.pw.boot.phase = .groups)

/-- The case sensor as injections of 10/1 and 10/2 read it (R556): 170 °C, 126 °C. -/
def sensorRead (raw : Int) (s : State) : Int := if injRuns s 10 1 63 then 680 else if injRuns s 10 2 63 then 504 else raw

/-- GOV_TEMP_STEP (R401): a temperature sample, in units of 0.25 °C, every 1 ms. -/
def execGovTempStep (raw : Int) (s : State) : Res :=
  if govRuns s then
    let s := nextGrid ms s
    let s := highStep (sensorStep (sensorRead raw s) s)
    .next (overStep (modGov (fun g => { g with tc := roundDiv (tcSum g) (tcLen g), budget := budgetOf g }) s))
  else .next s

/-- GOV_OVER_TIMER (R411): OVER has held for 1 s, or for a further 10 s. -/
def execGovOverTimer (s : State) : Res :=
  match s.gov.overAt with
  | none => .next s
  | some _ =>
    if isLive s then
      .next (report 10 3 63 (modGov (fun g => { g with overNext := g.overNext + 10000 * ms }) (reach s.gov.overNext s)))
    else .next s

/-- FIELD_TEMP_EVENT (R412): the die's temperature crosses 150 °C upward, or 140 °C downward. -/
def execFieldTempEvent (g : Grp) (hot : Bool) (s : State) : Res :=
  onDie g ((fdie s g).tempArmed == hot) (fun s =>
    let s := modField g (fun d => { d with tempArmed := !hot }) s
    if hot then addReport g (.grp 7) s else s) s

/-! ### Worst cases (R403) -/

def chMode (s : State) (n : Chan) : Nat := cfgFld s (.ch n .cfg) 0 4
def ilimOf (s : State) (n : Chan) : Nat := ilimMa (cfgGet s (.ch n .docfg))

/-- VF_w in V (R403). -/
def vfWorst (s : State) (g : Grp) : Nat :=
  if cfgBit s (.grp g .hrcfg) 0 then hrMax (cfgGet s (.grp g .hrcfg)) / 5 else cfgFld s (.govGcfg g) 6 6

/-- What a switch adds while it is on or its pattern runs. -/
def worstOn (s : State) (n : Chan) : Nat :=
  let p := switchPow (ilimOf s n * ilimOf s n)
  if chMode s n = mDoPwm then p * (cfgGet s (.ch n .pwmduty)).toNat / max 1 (cfgGet s (.ch n .pwmper)).toNat
  else if chMode s n = mDo then p else 0

/-- The rest of a channel's worst case, at an output code. -/
def worstBase (s : State) (n : Chan) (code : Nat) : Nat :=
  let m := chMode s n
  let v := vfWorst s (chanGrp n)
  if isDigIn m then 100000
  else if m = mAiV ∨ m = mAiDiff then 30000
  else if isSwitch m then 20000
  else if m = mAiI then 30000 + (if cfgBit s (.ch n .acfg) 0 then v * 30000 else 54000)
  else if m = mAoI then 30000 + v * code * 25 / 1000
  else 0

/-! ### Host starts -/

/-- The last host value on its way to a channel, that no report shows yet. -/
def onTheWay (s : State) (n : Chan) (p : HostOp → Bool) : Option HostOp :=
  let l := lnk s (chanGrp n)
  (((l.down.flatMap (·.conf)) ++ l.conf).filterMap fun m =>
    match m with
    | .host k op => if k = chanLidx n ∧ p op then some op else none
    | _ => none).getLast?

/-- The channel is commanded on, or its pattern commanded running (R405). -/
def commandedOn (s : State) (n : Chan) : Bool :=
  match onTheWay s n (fun op => match op with | .on | .off | .pwmOff | .pwmOn _ => true | _ => false) with
  | some .on => true
  | some (.pwmOn _) => true
  | some _ => false
  | none => bit (mir s n).rep.dstat (if chMode s n = mDoPwm then 17 else 0)

/-- The code in force of a current output (R356). -/
def codeInForce (s : State) (n : Chan) : Word :=
  match onTheWay s n (fun op => match op with | .aoSet _ => true | _ => false) with
  | some (.aoSet c) => c
  | _ => (mir s n).rep.aocode

/-- A host value is a start (R405, R356). -/
def isStart (s : State) (n : Chan) (op : HostOp) : Bool :=
  match op with
  | .on | .pwmOn _ => !commandedOn s n
  | .aoSet c => decide ((codeInForce s n).toNat < c.toNat)
  | _ => false

/-- A host value for a channel (R405, R406): a start waits for its release, every other value cancels a waiting start and goes
at once. -/
def hostValue (n : Chan) (op : HostOp) (s : State) : State :=
  let rest := s.gov.waiting.filter fun w => w.n != n
  if isStart s n op then
    modGov (fun g => { g with waiting := rest ++ [{ n := n, op := op, since := s.now, counted := 0 }] }) s
  else sendConf (chanGrp n) (.host (chanLidx n) op) (modGov (fun g => { g with waiting := rest }) s)

/-- The inrush window of a channel is open (R405): one that ends at a step counts as closed at that step. -/
def windowOpen (s : State) (n : Chan) : Bool :=
  match s.gov.win.find? fun w => w.1 = n.val with
  | some w => if s.now < w.2 then true else if s.now < w.2 + 2500 then false else (mir s n).rep.inrush
  | none => (mir s n).rep.inrush

/-- Currents of checks 2 and 3 without a new channel (R405, R413). -/
def groupCurrents (s : State) (g : Grp) : Nat × Nat :=
  ((lidxs.map (chanOf g)).filter fun n => isSwitch (mir s n).rep.mode.toNat).foldl (fun a n =>
    if windowOpen s n then (a.1 + ilimOf s n, a.2 + 5000)
    else let c := if counted s g then (mir s n).rep.curMa else 0; (a.1 + c, a.2 + c)) (0, 0)

/-- Checks 2 to 4 of R405. -/
def startFits (s : State) (w : Start) : Bool :=
  let g := chanGrp w.n
  let (c, i) := groupCurrents s g
  let sw : Bool := match w.op with | .aoSet _ => false | _ => true
  let c := if sw then c + ilimOf s w.n else c
  let i := if sw ∧ cfgFld s (.ch w.n .docfg) 6 5 ≠ 0 then i + 5000 else i
  let add := if targeted s w.n then 0
    else worstBase s w.n (match w.op with | .aoSet c => c.toNat | _ => 0) + (if sw then worstOn s w.n else 0)
  decide (c ≤ 8000) && decide (i ≤ 500 * cfgFld s (.govGcfg g) 0 6) && decide (eHost s + resvOf s + add ≤ budgetUw s)

def staggerTicks (s : State) : Nat := 50 * us * (cfgFld s .govCfg 0 5 + 1)

/-- The shift of R407: the running patterns of the group with the same period keep STAGGER from one another. -/
def spreadShift (s : State) (n : Chan) : Nat :=
  let cfg := cfgGet s (.ch n .pwmcfg)
  let p := (cfgGet s (.ch n .pwmper)).toNat * pwmUnit cfg
  let st := staggerTicks s
  if cfgBit s .govCfg 5 ∧ !bit cfg 1 ∧ p ≠ 0 then
    let ph := (cfgGet s (.ch n .pwmph)).toNat * pwmUnit cfg
    let others := (grpChans (chanGrp n)).filter fun k => k != n && dieMode s k = mDoPwm && (slc s k).pwm && pwmPer s k = p
    let edges := others.map fun k =>
      if bit (dieCh s k .pwmcfg) 1 then (((slc s k).anchor - s.pw.tb0.getD 0 : Int) % p).toNat
      else ((dieCh s k .pwmph).toNat * pwmUnit (dieCh s k .pwmcfg) + (slc s k).shift) % p
    let free := fun sh => edges.all fun e => let d := absDiff ((ph + sh) % p) e; decide (st ≤ min d (p - d))
    match firstIdx ((p + st - 1) / st) fun k => free (k * st) with
    | some k => k * st
    | none => 0
  else 0

/-- A start is released to its field die (R405 to R407). -/
def releaseStart (w : Start) (s : State) : State :=
  let g := chanGrp w.n
  let k := cfgFld s (.ch w.n .docfg) 6 5
  let sw : Bool := match w.op with | .aoSet _ => false | _ => true
  let op := match w.op with | .pwmOn _ => .pwmOn (spreadShift s w.n) | o => o
  let s := modGov (fun x => { x with
    waiting := x.waiting.filter fun y => y.n != w.n, lastRel := x.lastRel.set g (some s.now)
    win := (x.win.filter fun y => y.1 != w.n.val) ++ (if sw ∧ k ≠ 0 then [(w.n.val, s.now + k * ms)] else [])
    cntStag := if w.counted = 2 then satInc x.cntStag else x.cntStag }) s
  sendConf g (.host (chanLidx w.n) op) s

/-- The judgement of one waiting start (R405, R406): bit 0 of `counted` marks it deferred, bit 1 staggered. -/
def judgeStart (w : Start) (s : State) : State :=
  let ok1 : Bool := match s.gov.lastRel[chanGrp w.n] with | some t => decide (t + staggerTicks s ≤ s.now) | none => true
  let ok24 := startFits s w
  if ok1 && ok24 then releaseStart w s
  else
    let c := (bif ok24 then w.counted else w.counted ||| 1) ||| (bif ok1 then 0 else 2)
    let s := modGov (fun x => { x with waiting := x.waiting.map fun y => if y.n = w.n then { y with counted := c } else y }) s
    if !ok24 ∧ !bit w.counted 0 then raise 85 (modGov (fun x => { x with cntDef := satInc x.cntDef }) s) else s

/-- GOV_RELEASE_STEP (R405): every 10 µs the first waiting start of each group is judged, in order of arrival. -/
def execGovReleaseStep (s : State) : Res :=
  if s.pw.dev = .run ∧ !resetting s ∧ s.pw.tb0.isSome then
    let s := nextGrid 2500 s
    let first := s.gov.waiting.foldl (fun (l : List Start) w => if l.any fun x => chanGrp x.n = chanGrp w.n then l else l ++ [w]) []
    .next (foldSt first judgeStart s)
  else .next s

/-- GOV_DEFER_TIMEOUT (R406): a start has waited for DEFER_MAX. -/
def execGovDeferTimeout (n : Chan) (s : State) : Res :=
  let k := cfgFld s .govCfg 6 4
  match s.gov.waiting.find? fun w => w.n = n with
  | some w =>
    if k = 0 then .next s
    else .next (modGov (fun x => { x with waiting := x.waiting.filter (fun y => y.n != n), cntDrop := satInc x.cntDrop })
      (reach (w.since + k * 100 * ms) s))
  | none => .next s

/-! ### A bank at arm time (R409) -/

/-- An entry as its three words. -/
abbrev Entry := Word × Word × Word

def maskOf (l : List Chan) : BitVec 48 := l.foldl (fun m n => setBit m n.val true) 0

/-- Channels that a target names. -/
def targetChans (t : Nat) : List Chan := (targetGrps t).flatMap fun g => (targetLidxs t g).map (chanOf g)

def targetsOf (l : List Entry) : BitVec 48 := maskOf (l.flatMap fun e => targetChans (entTarget e.2.1))

/-- Length of a cycle: 2^20 ac, or PERIOD in µs. -/
def bankCycle (s : State) (b : Fin 2) : Nat :=
  if bankTime s b then max 1 (cfgGet s (.bankPeriod b)).toNat else 2 ^ 20

/-- ceil(ω × t) of a time in ns: ω is `rpm` × 6 × 2^20 / (c × 10^6) ac per µs; in a time bank 1 (R254, R409). -/
def omegaCeil (s : State) (b : Fin 2) (rpm ns : Nat) : Nat :=
  if bankTime s b then (ns + 999) / 1000
  else
    let den := 360 * wheelRevs s * 1000000 * 1000
    (rpm * 6 * 2 ^ 20 * ns + den - 1) / den

/-- Duration of a PULSE_T in ns. -/
def pulseNs (w1 w2 : Word) : Nat := w2.toNat * (match entArgA w1 with | 0 => 10 | 1 => 1000 | _ => 100000)

/-- Entries in walk order, with angles that rise in it (R245): a reverse bank is mirrored. -/
def walkOrder (s : State) (b : Fin 2) (l : List Entry) : List Entry :=
  if !bankTime s b && bankRev s b then
    let m := l.map fun e => (~~~e.1, e.2.1, if entAction e.2.1 = aPulseA then ~~~e.2.2 else e.2.2)
    m.foldr (fun e acc => insAngle e acc) []
  else l
where
  /-- Insert by rising angle, ahead of equal angles that follow in table order. -/
  insAngle (e : Entry) : List Entry → List Entry
    | [] => [e]
    | x :: l => if x.1 < e.1 then x :: insAngle e l else e :: x :: l

/-- Spans over which a bank holds its switches on: channel, start, length (R409). -/
def onSpans (s : State) (b : Fin 2) : List Entry → List (Chan × Nat × Nat)
  | [] => []
  | (w0, w1, w2) :: rest =>
    let cyc := bankCycle s b
    let a := entAction w1
    let until_ := fun (off : Nat) (n : Chan) =>
      match rest.find? fun e => entAction e.2.1 = off ∧ (targetChans (entTarget e.2.1)).contains n with
      | some e => e.1.toNat - w0.toNat
      | none => cyc
    let len := fun (n : Chan) =>
      if a = aOn then until_ aOff n
      else if a = aPwmOn then until_ aPwmOff n
      else if a = aPulseA then (w2.toNat + cyc - w0.toNat % cyc) % cyc
      else omegaCeil s b (cfgFld s .spdMin 0 13) (pulseNs w1 w2)
    let here := if a = aOn ∨ a = aPulseT ∨ a = aPulseA ∨ a = aPwmOn then
        ((targetChans (entTarget w1)).filter fun n => chMode s n = (if a = aPwmOn then mDoPwm else mDo)).map fun n =>
          (n, w0.toNat, len n)
      else []
    here ++ onSpans s b rest

/-- Channels on at an angle. -/
def onAt (cyc p : Nat) (spans : List (Chan × Nat × Nat)) : BitVec 48 :=
  maskOf ((spans.filter fun x => decide (cyc ≤ x.2.2) || decide ((p + cyc - x.2.1 % cyc) % cyc < x.2.2)).map (·.1))

/-- The highest AO_SET code of a bank for a channel. -/
def aoHighest (l : List Entry) (n : Chan) : Nat :=
  maxNat ((l.filter fun e => entAction e.2.1 = aAoSet ∧ (targetChans (entTarget e.2.1)).contains n).map (·.2.2.toNat))

/-- Largest sums over the cycle: W in µW, and the ILIM held on in each group (R409). -/
def bankWorst (s : State) (b : Fin 2) (l : List Entry) : Nat × List Nat :=
  let l := walkOrder s b l
  let spans := onSpans s b l
  let cyc := bankCycle s b
  let points := if spans.isEmpty then [0] else spans.map (·.2.1)
  let masks := points.map fun p => onAt cyc p spans
  let tg := targetsOf l
  let base := (chans.filter fun n => bit tg n.val).foldl (fun a n => a + worstBase s n (aoHighest l n)) 0
  let sumOf := fun (m : BitVec 48) (cs : List Chan) (f : Chan → Nat) => (cs.filter fun n => bit m n.val).foldl (fun a n => a + f n) 0
  (base + maxNat (masks.map fun m => sumOf m chans (worstOn s)),
    groups.map fun g => maxNat (masks.map fun m => sumOf m (grpChans g) (ilimOf s)))

/-- Check 9: the first group whose switch current may exceed 8 A (R409). -/
def overCurrent (s : State) (l : List Entry) (loads : List Nat) : Option Grp :=
  let tg := targetsOf l
  (groups.zip loads).findSome? fun x =>
    let rest := ((grpChans x.1).filter fun n => !bit tg n.val && counted s x.1).foldl (fun a n => a + (mir s n).rep.curMa) 0
    if 8000 < rest + x.2 then some x.1 else none

/-- Check 10: E_host without the bank's channels, plus W, exceeds the budget (R409). -/
def overPower (s : State) (l : List Entry) (w : Nat) : Bool :=
  let tg := targetsOf l
  decide (budgetUw s < estOf s (fun n => !targeted s n && !bit tg n.val) + w)

/-! ### Registers (R413) -/

def govStatWord (s : State) : Word :=
  pack [(0, (sword 11 (max (-1024) (min 1023 s.gov.tc))).toNat), (11, b2n s.gov.overAt.isSome), (12, b2n s.gov.sensorFail),
    (13, b2n s.gov.tcHigh), (14, b2n (!s.gov.waiting.isEmpty))]

def mW (x : Nat) : Nat := (x + 500) / 1000

def govGstatWord (s : State) (g : Grp) : Word :=
  let (c, i) := groupCurrents s g
  let pend := (s.gov.waiting.filter fun w => chanGrp w.n = g).length
  pack [(0, min ((c + 25) / 50) 255), (8, min ((i + 250) / 500) 63), (14, min pend 8)]

/-- Bits of GOV_DEFER0 to GOV_DEFER2. -/
def deferBits (s : State) : BitVec 48 := maskOf ((s.gov.waiting.filter fun w => bit w.counted 0).map (·.n))

end Sys2Proof.Machine
end

