-- ==== Sys2Proof/Machine/WdCore.lean ====
section
/-! DEFINITION. The watchdog's counter and the judgement of serves (15_faults_watchdog R454 to R465), and the events that
the fault collector and the watchdog meet by themselves (R44, R53, R438). -/

namespace Sys2Proof.Machine


/-- C := 0, and the prescaler restarts (R456, R461). -/
def wdZero (s : State) : State := modWd (fun w => { w with zero := s.now, base := 0, warned := false }) s

/-- The watchdog starts with C at 0 and a previous token (R456, R457). -/
def wdStart (seed : Word) (s : State) : State := wdZero (modWd (fun w => { w with running := true, token := seed }) s)

/-- The tick at which C reaches a value (R458). -/
def wdReaches (s : State) (c : Nat) : Nat := s.wd.zero + (c - s.wd.base) * wdUnit s

/-- Expiry (R463): declared to the collector, and the watchdog stops. -/
def wdExpire (s : State) : State := report 11 2 63 (wdStop s)

/-- The token after `t` (R460). -/
def nextToken (t : Word) : Word := t * 5#20 + 0x1F#20

def setLast (k : BitVec 3) (s : State) : State := modWd (fun w => { w with last := k }) s

/-- Judgement of a serve in its arrival clock (R461); the reply status. An armed injection of 11/3, 11/4 or 11/5 acts at the
input of the judgement (R556). -/
def judgeServe (from_ : Port) (token : Word) (s : State) : Status × State :=
  if !s.wd.running then (stState, setLast 5 s)
  else
    let p := if (injAt s 11 5).isSome then pother from_ else from_
    let done := fun (c : Nat) (t : State) => if (injAt s 11 c).isSome then injApplied t else t
    if s.wd.owner ≠ some p then
      (stDenied, done 5 (report 11 5 (pidx p).val (setLast 4 (modWd (fun w => { w with foreign := satInc w.foreign }) s))))
    else if s.wd.timeout.toNat ≤ wdCount s then (stFault, wdExpire s)
    else if wdCount s < s.wd.close.toNat ∨ (injAt s 11 3).isSome then
      (stFault, done 5 (done 3 (report 11 3 (pidx p).val (setLast 2 (modWd (fun w => { w with early := satInc w.early }) s)))))
    else if token ≠ nextToken s.wd.token ∨ (injAt s 11 4).isSome then
      (stFault, done 5 (done 4 (report 11 4 (pidx p).val (setLast 3 (modWd (fun w => { w with wrong := satInc w.wrong }) s)))))
    else (stOk, done 5 (wdZero (setLast 1 (modWd (fun w => { w with token := token }) s))))

/-! ### Events -/

/-- WD_WARNING (R458): C reaches WARN, source 80. -/
def execWdWarning (s : State) : Res :=
  if s.wd.running ∧ s.wd.warn ≠ 0 ∧ !s.wd.warned then
    .next (raise 80 (modWd (fun w => { w with warned := true }) (reach (wdReaches s s.wd.warn.toNat) s)))
  else .next s

/-- WD_EXPIRY (R463): C reaches TIMEOUT. -/
def execWdExpiry (s : State) : Res :=
  if s.wd.running then
    .next (injReport 11 2 wdExpire (reach (wdReaches s s.wd.timeout.toNat) s))
  else .next s

/-- A watchdog clock is watched from PLL lock in BOOT until the next reset or standby entry, while both work (R464). -/
def wdMonitored (s : State) : Bool :=
  s.pw.tb0.isSome && (isLive s || s.pw.dev = .boot) && s.pw.stby != .entering && !s.wd.monLost

def failClk (c : Bool) (w : Wdog) : Wdog := if c then { w with failedB := true } else { w with failedA := true }

/-- WD_CLOCK_MONITOR_TRIP (R465): the clock in use fails and the watchdog goes over to the other, C unchanged; or the
monitoring clock fails. -/
def clockTrip (running : Bool) (s : State) : State :=
  let c := s.wd.clkNow
  let n := wdCount s
  let s := modWd (fun w => { w with mon := satInc w.mon, monLost := true }) s
  if running then
    let s := modWd (fun w => failClk c { w with clkNow := !c, failover := true, base := n, zero := s.now }) s
    raise 81 (report 11 6 (b2n c) s)
  else raise 81 (report 11 7 (b2n !c) (modWd (failClk !c) s))

def execWdClockMonitorTrip (running : Bool) (s : State) : Res :=
  if wdMonitored s then .next (injReport 11 (if running then 6 else 7) (clockTrip running) s) else .next s

/-- FAULT_WINDOW_END (R438). -/
def execFaultWindowEnd (d : Fin 12) (c : BitVec 5) (s : State) : Res :=
  let x := fltCnt s d.val c.toNat
  match x.until_ with
  | some t => .next (setFltCnt d.val c.toNat { x with window := 0, until_ := none } (reach t s))
  | none => .next s

/-- The supervisor runs from the firmware step of BOOT on. -/
def superRuns (s : State) : Bool :=
  isLive s || (s.pw.dev = .boot && (s.pw.boot.phase = .firmware || s.pw.boot.phase = .groups))

/-- HEARTBEAT_MISSING (R44): missing for 20 ms. -/
def execHeartbeatMissing (s : State) : Res :=
  if superRuns s then
    let t := match s.flt.heartbeat with | some t => t + 20 * ms | none => s.now
    .next (injReport 11 1 (report 11 1 63) (modFlt (fun f => { f with heartbeat := none }) (reach t s)))
  else .next s

/-- LOCKSTEP_MISMATCH (R53): FATAL in domain 6. The pair runs while the trackers and sequencers are clocked. -/
def execLockstepMismatch (s : State) : Res :=
  if isLive s then .next (injReport 6 7 (report 6 7 63) s) else .next s

end Sys2Proof.Machine
end

