-- ==== Sys2Proof/Machine/FrontEnd.lean ====
section
/-! DEFINITION. The packet-mode front ends (04_host_ports R110 to R126, 05_packet_protocol R142 to R152): selects, headers,
payloads, command buffers, and the interpreter's take-up of commands (R153, R159). -/

namespace Sys2Proof.Machine

/-- The front ends take traffic (R83, R86, R100, R113). -/
def portOpen (s : State) : Bool := isLive s && !resetting s && s.pw.stby != .entering

/-! ### Buffer room -/

/-- Words that a packet of a length occupies (R126). -/
def packetWords (len : Nat) : Nat := 2 * ((len + 2) / 2)

/-- Words that a buffered command occupies; the words of a finished stream have been taken up. -/
def entryWords (e : CmdEntry) : Nat := if e.msg.stream = .none then packetWords e.msg.words.length else 0

/-- The interpreter is free to take words up from a port: nothing stands before them. -/
def portIdle (x : PortSt) : Bool := x.cmdBuf.isEmpty && x.waiting.isEmpty

/-- Stream words still in the buffer (R148): NV_UPDATE_DATA is taken up at 0.5 Mwords/s, the others as they come. -/
def streamFill (s : State) (x : PortSt) : Nat :=
  match x.rx with
  | .stream h0 _ fill t _ =>
    if !portIdle x then fill else if h0.extractLsb' 12 8 = Op.nvData then fill - (s.now - t) / 500 else 0
  | _ => 0

/-- Words of the buffer in use; a packet being received holds its room from its header on (R126). -/
def bufUsed (s : State) (x : PortSt) : Nat :=
  (x.cmdBuf.map entryWords).foldl (· + ·) 0
  + (match x.rx with
    | .payload _ h1 .accept => packetWords (fld h1 8 12)
    | .stream .. => streamFill s x
    | _ => 0)

/-- PORTx.STAT.CMD_FREE (R140). -/
def cmdFree (s : State) (x : PortSt) : Nat := 2048 - bufUsed s x

/-! ### Selects -/

/-- A tap's idle timer restarts at each select of its port that is not ignored (R114, R190). -/
def restartTaps (p : Port) (s : State) : State :=
  modTaps (fun t => if t.holder = some p then { t with since := s.now } else t) s

/-- CS_N falls (R111, R113, R114, R428). -/
def selectOn (p : Port) (s : State) : State :=
  if portOpen s then
    let s := modPort p (fun x => { x with
      selected := true, ignoring := false, gotPacket := false, rx := .header, tx := [], lastCs := s.now }) s
    let s := restartTaps p s
    if (prt s p).awake then modPort p (fun x => { x with wakeLvl := false }) s else wakePort p s
  else modPort p (fun x => { x with selected := true, ignoring := true, gotPacket := false, rx := .header, tx := [] }) s

/-! ### Headers -/

def setRx (p : Port) (r : Rx) (s : State) : State := modPort p (fun x => { x with rx := r }) s

def countHdrBad (p : Port) (s : State) : State :=
  report 8 1 (pidx p).val (modPort p (fun x => { x with hdrBad := satInc x.hdrBad }) s)

def countDiscard (p : Port) (s : State) : State := modPort p (fun x => { x with discard := satInc x.discard }) s

def setTag (p : Port) (t : BitVec 7) (b : Bool) (s : State) : State :=
  modPort p (fun x => { x with tags := setBit x.tags t.toNat b }) s

def hdrOp (h0 : Word) : Op := h0.extractLsb' 12 8
def hdrTag (h0 : Word) : BitVec 7 := h0.extractLsb' 5 7
def hdrLanes (h0 : Word) : Nat := fld h0 3 2
def hdrLen (h1 : Word) : Nat := fld h1 8 12

/-- The header word H0 of a command. -/
def mkH0 (op : Op) (m : Msg) : Word :=
  pack [(12, op.toNat), (5, m.tag.toNat), (3, m.lanes.toNat), (2, b2n m.wake)]

/-- WAKE is there in vintage 3 (R144). -/
def wakeOk (s : State) (p : Port) (h0 : Word) : Bool := !bit h0 2 || portVintage s p = 3

/-- A refusal by the front end: a reply under the tag, which is in flight until the reply is fetched (R125, R144). -/
def refuseHdr (p : Port) (h0 : Word) (st : Status) (s : State) : State :=
  let lvl := (prt s p).wakeLvl
  let keep := !wakeOk s p h0
  let s := queueReply p st (hdrTag h0) (bit h0 2) (refusalWords (hdrOp h0) st (devStateWord s)) (setTag p (hdrTag h0) true s)
  if keep then modPort p (fun x => { x with wakeLvl := lvl }) s else s

/-- The payload of a refused packet is clocked in and discarded; a header alone is a whole packet. -/
def dropPayload (p : Port) (h0 h1 : Word) (s : State) : State :=
  if hdrLen h1 = 0 then modPort p (fun x => { x with rx := .header, gotPacket := true }) s
  else if hdrLen h1 = 4095 ∨ hdrLanes h0 = 3 then setRx p .ignore s
  else setRx p (.payload h0 h1 .drop) s

/-- Put a packet into the command buffer. -/
def pushCmd (p : Port) (h0 : Word) (ws : List Word) (good : Bool) (st : StreamEnd) (s : State) : State :=
  let m : Msg := { port := p, tag := hdrTag h0, lanes := h0.extractLsb' 3 2, wake := bit h0 2, words := ws, good := good
                   stream := st }
  let (cells, s) := encCells (cmdM p) ws s
  modPort p (fun x => { x with cmdBuf := x.cmdBuf ++ [{ op := hdrOp h0, msg := m, cells := cells }] }) s

/-- The words that the device drives for a fetch (R122, R142, R160): header, payload, check word and fill word; whether a
reply stands for it. An uncorrectable word in the store makes a FAULT reply (R472). -/
def fetchWords (p : Port) (lanes : Nat) (s : State) : (List Word × Bool) × State :=
  match (prt s p).replyQ with
  | [] => let h0 := pack [(3, lanes), (0, 1)]; (([h0, hdrWord1 h0 0], false), s)
  | r :: l =>
    let ((ws, bad), s) := cellsRead (replyM p) r.cells s
    let ws := if bad then [] else ws
    let st := if bad then stFault else r.status
    let h0 := pack [(12, st.toNat), (5, r.tag.toNat), (3, lanes), (2, b2n r.wake), (1, b2n !l.isEmpty)]
    let body := if ws.isEmpty then [] else ws ++ [checkWord ws] ++ (if ws.length % 2 = 0 then [0] else [])
    (([h0, hdrWord1 h0 ws.length] ++ body, true), s)

/-- A header that names REPLY_FETCH (R150, R151). -/
def fetchHdr (p : Port) (h0 h1 : Word) (s : State) : State :=
  if hdrLanes h0 = 3 ∨ fld h0 0 2 ≠ 0 ∨ !wakeOk s p h0 then
    if bit (prt s p).tags (hdrTag h0).toNat then setRx p .ignore (countDiscard p s)
    else
      let s := if hdrLanes h0 = 3 then countHdrBad p s else s
      setRx p .ignore (refuseHdr p h0 stRange s)
  else if hdrLen h1 ≠ 0 then setRx p .ignore (countHdrBad p s)
  else
    let ((ws, some_), s) := fetchWords p (hdrLanes h0) s
    modPort p (fun x => { x with rx := .reply some_, tx := ws, gotPacket := true }) s

/-- A header with a good CRC that names any other opcode (R151, R125). -/
def commandHdr (p : Port) (h0 h1 : Word) (s : State) : State :=
  let op := hdrOp h0
  let len := hdrLen h1
  let refuse := fun (st : Status) => dropPayload p h0 h1 (refuseHdr p h0 st (countDiscard p s))
  if bit (prt s p).tags (hdrTag h0).toNat then dropPayload p h0 h1 (countDiscard p s)
  else if hdrLanes h0 = 3 then setRx p .ignore (refuseHdr p h0 stRange (countHdrBad p s))
  else if fld h0 0 2 ≠ 0 ∨ !wakeOk s p h0 then
    dropPayload p h0 h1 (refuseHdr p h0 stRange (whenSt (len ≠ 0) (countDiscard p) s))
  else
    match opInfo op with
    | none =>
      if len = 4095 ∨ 2048 < len then refuse stLength else refuse stUnknown
    | some i =>
      if len = 4095 then
        (if i.stream then setRx p (.stream h0 [] 0 s.now false) (setTag p (hdrTag h0) true s) else refuse stLength)
      else if i.hi < len ∨ 2048 < len then refuse stLength
      else if cmdFree s (prt s p) < packetWords len then refuse stFull
      else
        let s := setTag p (hdrTag h0) true s
        if len = 0 then modPort p (fun x => { x with rx := .header, gotPacket := true }) (pushCmd p h0 [] true .none s)
        else setRx p (.payload h0 h1 .accept) s

/-- The words of DCTL and ACTL that a staged unit carries take effect (R329, R320, R344, R371). -/
def ctlWrite (n : Chan) (d a : Word) (s : State) : State :=
  let g := chanGrp n
  let s := whenSt (bit d 0) (sendConf g (.host (chanLidx n) .clrLatch)) s
  let s := whenSt (bit d 1) (sendConf g (.host (chanLidx n) .cntClr)) s
  modMir n (fun m => { m with evt := m.evt &&& ~~~(d.extractLsb' 2 11), aevt := m.aevt &&& ~~~(a.extractLsb' 0 5) }) s

/-- The common instant of a staged CHAN_CONFIG has come (R173, R174): the units take effect, but for those of lost links. -/
def cfgFinish (j : CfgJob) (s : State) : State :=
  let ok := j.units.filter fun u => !bit j.lost (chanGrp u.1).val
  let bad := j.units.filter fun u => bit j.lost (chanGrp u.1).val
  let s := foldSt ok (fun u s =>
    let s := foldSt u.2.1 (fun w s => match Reg.ofAddr w.1 with | some r => cfgSet r w.2 s | none => s) s
    ctlWrite u.1 u.2.2.1 u.2.2.2 s) (setCfgJob none s)
  let map := ok.foldl (fun m u => m ||| 2 ^ u.1.val) 0
  let (st, fail) : Status × Word := match bad with | u :: _ => (stFault, BitVec.ofNat 20 u.1.val) | [] => (stOk, 0)
  if resetting s then s else queueReply j.cmd.port st j.cmd.tag j.cmd.wake (splitReply ok.length st fail map false) s

/-- A staged CHAN_CONFIG is finished when its instant has passed. -/
def cfgDue (s : State) : State :=
  match s.cfgJob with
  | some j => if j.at_ ≤ tbNow s then cfgFinish j s else s
  | none => s

/-- The interpreter waits for the common instant before its next command (R153). -/
def cfgWait (s : State) : State :=
  match s.cfgJob with
  | some j => cfgFinish j (reach (tickOf s j.at_) s)
  | none => s

/-- A completed header beat (R151). An armed injection of 8/1 spoils the CRC (R556). -/
def headerIn (p : Port) (h0 h1 : Word) (s : State) : State :=
  let s := cfgDue s
  let inj : Bool := match injAt s 8 1 with | some a => decide (a.unit.toNat = (pidx p).val) | none => false
  if hdrWord1 h0 (hdrLen h1) != h1 || inj then
    whenSt inj injApplied (setRx p .ignore (countHdrBad p s))
  else if hdrOp h0 = Op.fetch then fetchHdr p h0 h1 s
  else commandHdr p h0 h1 s

/-! ### Payloads -/

/-- A packet is answered ABORTED (R125). -/
def abortHdr (p : Port) (h0 : Word) (s : State) : State :=
  let s := report 8 2 (pidx p).val (modPort p (fun x => { x with aborted := satInc x.aborted }) s)
  queueReply p stAborted (hdrTag h0) (bit h0 2) (refusalWords (hdrOp h0) stAborted (devStateWord s)) s

/-- A serve with a good header and check word goes to the watchdog and is answered as judged (R124, R461, R462). -/
def serveIn (p : Port) (h0 token : Word) (s : State) : State :=
  let (st, s) := judgeServe p token s
  if resetting s then s else queueReply p st (hdrTag h0) (bit h0 2) [] s

/-- The last payload beat of an accepted packet (R126). An armed injection of 8/2 cuts it short. -/
def payloadIn (p : Port) (h0 : Word) (ws : List Word) (good : Bool) (s : State) : State :=
  let inj : Bool := match injAt s 8 2 with | some a => decide (a.unit.toNat = (pidx p).val) | none => false
  let s := modPort p (fun x => { x with rx := .header, gotPacket := true }) s
  if inj then injApplied (abortHdr p h0 s)
  else if hdrOp h0 = Op.wdServe ∧ good ∧ ws.length = 1 then serveIn p h0 (ws.headD 0) s
  else pushCmd p h0 ws good .none s

/-- A check word is good: its CRC right and its upper bits zero (R146). -/
def checkGood (ws : List Word) (c : Word) : Bool := checkWord ws == c

/-- A stream beat (R120): two words into the buffer, or OVERRUN once and the rest discarded. -/
def beatIn (p : Port) (w0 w1 : Word) (s : State) : State :=
  let x := prt s p
  match x.rx with
  | .stream h0 ws _ t overran =>
    if overran then s
    else if cmdFree s x < 2 then
      modPort p (fun x => { x with rx := .stream h0 ws 2048 t true, overrun := satInc x.overrun }) s
    else
      -- the fill counts from the last beat on; a rest of one slot time is kept
      let f := streamFill s x
      let t' := if hdrOp h0 = Op.nvData ∧ f ≠ 0 then s.now - (s.now - t) % 500 else s.now
      setRx p (.stream h0 (ws ++ [w0, w1]) (f + 2) t' false) s
  | _ => s

/-- How a finished stream stands (R147): S0, N words, the check word, and a fill word when N + 2 is odd. -/
def streamEnd (ws : List Word) : List Word × Bool × StreamEnd :=
  match ws with
  | [] => ([], false, .badLength)
  | s0 :: l =>
    let n := s0.toNat
    if n = 0 ∨ ws.length ≠ 2 * ((n + 3) / 2) then (l, false, .badLength)
    else (l.take n, checkGood (ws.take (n + 1)) ((l.drop n).headD 0), .whole)

/-- CS_N rises (R125, R147). -/
def selectOff (p : Port) (midBeat : Bool) (s : State) : State :=
  let x := prt s p
  let done := modPort p (fun x => { x with selected := false, ignoring := false, gotPacket := false, rx := .header, tx := [] })
  if x.ignoring then done s
  else
    match x.rx with
    | .header =>
      if x.gotPacket then done (whenSt midBeat (modPort p fun x => { x with tail := satInc x.tail }) s)
      else done (modPort p (fun x => { x with frag := satInc x.frag }) s)
    | .payload h0 _ .accept => done (abortHdr p h0 (setRx p .header s))
    | .stream h0 ws _ _ overran =>
      if overran then done (pushCmd p h0 (ws.drop 1) false .aborted s)
      else if midBeat then done (pushCmd p h0 (ws.drop 1) false .aborted
          (report 8 2 (pidx p).val (modPort p (fun x => { x with aborted := satInc x.aborted }) s)))
      else
        let (l, good, e) := streamEnd ws
        done (pushCmd p h0 l good e s)
    | _ => done s

/-! ### Take-up by the interpreter -/

/-- A command row brings its packet by a select of its own, or into a select that is open between packets. -/
def deliverPacket (op : Op) (m : Msg) (s : State) : State :=
  let h0 := mkH0 op m
  if m.stream = .none then
    let s := headerIn m.port h0 (hdrWord1 h0 m.words.length) s
    match (prt s m.port).rx with
    | .payload _ _ .accept => payloadIn m.port h0 m.words m.good s
    | .payload _ _ .drop => modPort m.port (fun x => { x with rx := .header, gotPacket := true }) s
    | _ => s
  else
    let s := headerIn m.port h0 (hdrWord1 h0 4095) s
    match (prt s m.port).rx with
    | .stream .. => pushCmd m.port h0 m.words m.good m.stream (setRx m.port .ignore s)
    | _ => s

/-- The packet that a command row carries reaches the port, unless it stands at the head of the buffer already. -/
def arrive (op : Op) (m : Msg) (s : State) : State :=
  let x := prt s m.port
  let here := match x.cmdBuf with | e :: _ => decide (e.op = op ∧ e.msg = m) | [] => false
  if here then s
  else if !x.selected then selectOff m.port false (deliverPacket op m (selectOn m.port s))
  else if x.ignoring then s
  else match x.rx with
    | .header => deliverPacket op m s
    | _ => s

/-- The interpreter is in the middle of a command: one command at a time, a split command from its first unit to its last
(R153). -/
def interpBusy (s : State) : Bool := s.grpJob.isSome || s.regJob.isSome

/-- The interpreter takes up the command at the head of a port's buffer, when it is the one that the row names, no reply of
the port waits outside its queue (R159), and it is not the other port's turn (R153). The flag tells that the buffer lost a
word of it (R472). -/
def takeCmd (op : Op) (m : Msg) (s : State) : Option (Msg × Bool) × State :=
  if !portOpen s || (prt s m.port).daisy then (none, s)
  else
    let s := arrive op m s
    let s := match (prt s m.port).cmdBuf with | e :: _ => if e.op = op ∧ e.msg = m then cfgWait s else s | [] => s
    let x := prt s m.port
    let o := prt s (pother m.port)
    let otherTurn := s.turn = some m.port && !o.cmdBuf.isEmpty && o.waiting.isEmpty
    match x.cmdBuf with
    | e :: l =>
      if e.op = op ∧ e.msg = m ∧ x.waiting.isEmpty ∧ !otherTurn ∧ !resetting s ∧ !interpBusy s then
        let s := modPort m.port (fun x => { x with cmdBuf := l }) (setTurn (some m.port) s)
        let ((ws, bad), s) := cellsRead (cmdM m.port) e.cells s
        (some ({ m with words := ws }, bad), s)
      else (none, s)
    | [] => (none, s)

end Sys2Proof.Machine
end

