-- ==== Sys2Proof/Machine/Interp.lean ====
section
/-! DEFINITION. The interpreter (05_packet_protocol R153 to R159, R164): the checks of a command in their order, its record in
the cask (R509), and its reply. A `Handler` gives what one opcode adds. -/

namespace Sys2Proof.Machine

/-! ### Answers -/

/-- How the execution of a command answers: with a reply now, or later by an event (R156). -/
inductive Ans where
  | reply (st : Status) (ws : List Word)
  | later
deriving DecidableEq, Repr

/-- What one opcode adds to the checks of R154, and its execution. -/
structure Handler where
  /-- state rules beside R94 (check 3) -/
  stateOk : State → Msg → Bool := fun _ _ => true
  /-- shape of the payload (check 4) -/
  shape : Msg → Bool := fun _ => true
  /-- lengths that depend on the state (check 4) -/
  shapeNow : State → Msg → Bool := fun _ _ => true
  /-- fields in range (check 5) -/
  range : State → Msg → Bool := fun _ _ => true
  /-- taps of the resources touched (check 6) -/
  free : State → Msg → Bool := fun _ _ => true
  /-- authority (check 7) -/
  auth : State → Msg → Bool := fun _ _ => true
  /-- a tap bound to the opcode is judged unit by unit (R154, R171) or item by item (R312) -/
  perUnit : Bool := false
  /-- payload of the reply to a refusal -/
  words : Op → Status → State → Msg → List Word := fun op st s _ => refusalWords op st (devStateWord s)
  /-- what a stream that ends in ABORTED, LENGTH or CHECK leaves behind (R148) -/
  broken : Msg → State → State := fun _ s => s
  /-- what else a refusal leaves behind, by its status -/
  refused : Status → Msg → State → State := fun _ _ s => s
  /-- execution -/
  run : Msg → State → Ans × State

/-- The first check that fails (R154, R163, R472). -/
def judge (op : Op) (h : Handler) (m : Msg) (bad : Bool) (s : State) : Option Status :=
  match opInfo op with
  | none => some stUnknown
  | some i =>
    let v := portVintage s m.port
    let n := m.words.length
    if bad then some stFault
    else if m.stream = .aborted then some stAborted
    else if m.stream = .badLength then some stLength
    else if !m.good && (n != 0 || m.stream != .none) then some stCheck
    else if v < i.vintage then some (if v = 1 then stUnknown else stVintage)
    else if !opPermitted op s.pw.dev || !h.stateOk s m then some stState
    else if n < i.lo || (m.stream = .none && i.hi < n) || !h.shape m || !h.shapeNow s m then some stLength
    else if !h.range s m then some stRange
    else if (!h.perUnit && opHeld s m.port op) || !h.free s m then some stTap
    else if !h.auth s m then some stDenied
    else none

/-- The CMD record of a command that is taken up (R509, R517). -/
def recCmd (op : Op) (m : Msg) (s : State) : State :=
  if cfgBit s .caskCfg 3 then
    let h0 := mkH0 op m
    let len := if m.stream = .none then m.words.length else 4095
    let ws := if m.stream = .whole then BitVec.ofNat 20 m.words.length :: m.words else m.words
    recNow 0x07 (pidx m.port).val
      ([h0, hdrWord1 h0 len] ++ (if ws.isEmpty then List.replicate 13 0 else word256 (shaOf ws))) s
  else s

/-- The deferred command that a packet stands for. -/
def defOf (op : Op) (m : Msg) : Deferred := { op := op, port := m.port, tag := m.tag, wake := m.wake }

/-- Queue the reply of a command, unless a reset has been recognised meanwhile (R83). -/
def answer (m : Msg) (r : Ans × State) : State :=
  let s := r.2
  match r.1 with
  | .later => s
  | .reply st ws =>
    if resetting s then s else queueReply m.port st m.tag m.wake ws s

/-- Answer a deferred command that its execution has ended at once, unless a state change has answered it (R157). -/
def answerDeferred (op : Op) (m : Msg) (r : Ans × State) : State :=
  if r.2.deferred.contains (defOf op m) then
    answer m (r.1, match r.1 with
      | .later => r.2
      | .reply .. => modDeferred (fun l => l.filter (· != defOf op m)) r.2)
  else r.2

/-- One command row of the interpreter: the packet is taken up, recorded, checked, executed and answered. A packet that is
not taken up now stays where it is. -/
def interp (op : Op) (h : Handler) (m : Msg) (s : State) : Res :=
  match takeCmd op m s with
  | (none, s) => .next s
  | (some (m, bad), s) =>
    let s := recCmd op m s
    match judge op h m bad s with
    | some st =>
      let lost := m.stream != .none && (st == stAborted || st == stLength || st == stCheck)
      let s := h.refused st m (if lost then h.broken m s else s)
      .next (answer m (.reply st (h.words op st s m), s))
    | none =>
      let deferred := match opInfo op with | some i => i.deferred | none => false
      .next (if deferred then answerDeferred op m (h.run m (addDeferred (defOf op m) s)) else answer m (h.run m s))

/-- Payload word `k` of a packet; 0 where it is missing. -/
def pword (m : Msg) (k : Nat) : Word := m.words.getD k 0

/-- A stage bit needs vintage 3, and the rest of a split control word is zero (R172). -/
def stageOk (s : State) (m : Msg) : Bool :=
  fld (pword m 0) 1 19 == 0 && (!bit (pword m 0) 0 || portVintage s m.port == 3)

def staged (m : Msg) : Bool := bit (pword m 0) 0

end Sys2Proof.Machine
end

