-- ==== Sys2Proof/Machine/IrqCmds.lean ====
section
/-! DEFINITION. Interrupt commands and events (14_interrupts R421 to R436), HELLO and STATUS (05_packet_protocol R162, R167),
taps (06_registers_taps R188 to R193). -/

namespace Sys2Proof.Machine

/-! ### Moderators and the supervisor timer -/

/-- MODERATOR_TIMER_FIRE (R421): the timer reaches its threshold. A held moderator has no timer (R423). -/
def execModeratorTimerFire (m : Fin 16) (s : State) : Res :=
  match s.irq.mods[m].timer, modTime s m with
  | some t, some d => if isLive s then .next (deliver (fireMod m (reach (t + d) s))) else .next s
  | _, _ => .next s

/-- IRQ_TIMER_TICK (R434). -/
def execIrqTimerTick (s : State) : Res :=
  let k := (cfgGet s .irqTimer).toNat
  if k ≠ 0 ∧ isLive s ∧ s.pw.tb0.isSome then .next (raise 90 (nextGrid (k * 25000) s)) else .next s

/-! ### IRQ_ACK and PORT_SLEEP -/

/-- Source n stands in a mask of five words (R424). -/
def named (ms : List Word) (n : Fin 96) : Bool := bit (ms.getD (n.val / 20) 0) (n.val % 20)

/-- IRQ_ACK in one clock (R424): pending bits first, then the end of service; a source that is still pending is released at
once (R422). -/
def irqAckGo (p : Port) (w0 : Word) (masks : List Word) (s : State) : State :=
  let s := if bit w0 1 then
      foldSt (sources.filter (named masks)) (fun n s => setReleased n false (setPend n false s)) s
    else s
  let s := if bit w0 0 then
      foldSt (sources.filter fun n => bit w0 2 || named masks n) (fun n s => serviceDone p n s) s
    else s
  deliver s

def irqAckH : Handler where
  range := fun _ m =>
    let w := pword m 0
    fld w 3 17 == 0 && fld w 0 2 != 0 && fld (pword m 5) 16 4 == 0
  run := fun m s => (.reply stOk [], irqAckGo m.port (pword m 0) (m.words.drop 1) s)

/-- IRQ_ACK (R424). -/
def execIrqAck (m : Msg) (s : State) : Res := interp Op.irqAck irqAckH m s

def portSleepH : Handler where
  run := fun m s => (.reply stOk [], sleepPort m.port s)

/-- PORT_SLEEP (R427). -/
def execPortSleep (m : Msg) (s : State) : Res := interp Op.portSleep portSleepH m s

/-! ### HELLO and STATUS -/

/-- The vintage chosen from a HELLO (R162). -/
def helloVintage (w : Word) : Option Nat :=
  let hi := fld w 0 4
  let lo := fld w 4 4
  let v := min hi 3
  if v < lo ∨ lo = 0 ∨ hi = 0 ∨ hi < lo then none else some v

def helloH : Handler where
  range := fun _ m => fld (pword m 0) 8 12 == 0
  run := fun m s =>
    match helloVintage (pword m 0) with
    | none => (.reply stVintage [], s)
    | some v =>
      let s := modPort m.port (fun x => { x with vintage := BitVec.ofNat 2 v }) s
      (.reply stOk [pack [(0, v), (4, 3), (8, linkVintage s)], 0x04860, fwVer s,
        pack [(0, (pidx m.port).val), (1, (prt s (pother m.port)).vintage.toNat)]], s)

/-- HELLO (R162). -/
def execHello (m : Msg) (s : State) : Res := interp Op.hello helloH m s

/-- GRP_UP (R109, R381). -/
def grpUpWord (s : State) : Word :=
  pack (groups.map (fun g => (g.val, b2n ((lnk s g).st = .up)))
    ++ groups.map (fun g => (6 + g.val, b2n ((lnk s g).st = .down && (lnk s g).cause != 0))))

/-- The eight words of STATUS (R167); the replies ahead of this one are those that stand now. -/
def statusWords (p : Port) (s : State) : List Word :=
  let a := activeBank s
  let armed := (bnk s 0).st != .unarmed || (bnk s 1).st != .unarmed
  [devStateWord s, grpUpWord s, pack [(0, trkCode s.trk.st), (4, optBit a), (5, b2n armed)], angNow s]
    ++ stampWords (tbNow s) ++ [pack [(0, (prt s p).replyQ.length), (8, b2n (faultN s))]]

def statusH : Handler where
  run := fun m s => (.reply stOk (statusWords m.port s), s)

/-- STATUS (R167). -/
def execStatus (m : Msg) (s : State) : Res := interp Op.status statusH m s

/-! ### Taps -/

def tapNo (m : Msg) : Fin 32 := ⟨fld (pword m 0) 0 5, by unfold fld; omega⟩

/-- TAPk.STAT.HOLDER (R192). -/
def holderCode : Option Port → Nat := ownerCode

/-- A tap is freed: LAST_REL, and source 76 (R188, R190). -/
def freeTap (k : Fin 32) (how : BitVec 2) (s : State) : State :=
  raise 76 (modTap k (fun t => { t with holder := none, lastRel := how }) s)

def tapRange (_ : State) (m : Msg) : Bool := fld (pword m 0) 5 15 == 0

def tapTakeH : Handler where
  range := tapRange
  run := fun m s =>
    let k := tapNo m
    let st := if tapHeld s m.port k then stTap else stOk
    let s := if s.taps[k].holder = none then modTap k (fun t => { t with holder := some m.port, since := s.now }) s else s
    (.reply st [pack [(0, k.val), (5, holderCode s.taps[k].holder)]], s)

/-- TAP_TAKE (R188, R189). -/
def execTapTake (m : Msg) (s : State) : Res := interp Op.tapTake tapTakeH m s

def tapReleaseH : Handler where
  range := tapRange
  auth := fun s m => !tapHeld s m.port (tapNo m)
  run := fun m s =>
    let k := tapNo m
    (.reply stOk [], if s.taps[k].holder = some m.port then freeTap k 1 s else s)

/-- TAP_RELEASE (R188). -/
def execTapRelease (m : Msg) (s : State) : Res := interp Op.tapRelease tapReleaseH m s

/-- TAP_IDLE_TIMEOUT (R190, R192). -/
def execTapIdleTimeout (k : Fin 32) (s : State) : Res :=
  let t := s.taps[k]
  let j := cfgFld s (.tapCfg k) 0 4
  if t.holder.isSome ∧ isLive s then .next (freeTap k 2 (reach (t.since + 2 ^ (j - 1) * ms) s)) else .next s

end Sys2Proof.Machine
end

