-- ==== Sys2Proof/Machine/FaultCmds.lean ====
section
/-! DEFINITION. FAULT_READ and FAULT_ACK (15_faults_watchdog R451, R452), WD_SERVE and WD_CONFIG (R456, R461). -/

namespace Sys2Proof.Machine

/-! ### What the collector shows -/

/-- FLT_DOMd (R453). -/
def fltDomWord (s : State) (d : Fin 12) : Word :=
  match heldAt s d with
  | some h => pack [(0, h.cause.toNat), (5, h.unit.toNat), (11, 1), (12, b2n h.promoted)]
  | none => 0

/-- FREC0 to FREC6 (R447). -/
def frecWords (s : State) : List Word :=
  let f := s.aon.frec
  [pack [(0, f.domain.toNat), (4, f.cause.toNat), (9, f.unit.toNat), (15, b2n f.escalated), (16, b2n f.overrun),
      (17, b2n f.acked)],
    pack [(0, f.priorCause.toNat), (5, f.priorUnit.toNat), (11, f.state.toNat)]]
  ++ stampWords f.stamp.toNat ++ [f.angle, s.aon.fatalCnt.setWidth 20]

/-- FLT_CNTd_c (R453). -/
def fltCntWord (s : State) (d : Fin 12) (c : Fin 32) : Word :=
  if c = 0 then 0
  else
    let x := fltCnt s d.val c.val
    let live := match x.until_ with | some t => decide (s.now < t) | none => false
    pack [(0, if live then x.window.toNat else 0), (10, x.total.toNat)]

/-! ### FAULT_READ -/

def faultReadKind (m : Msg) : Nat := fld (pword m 0) 0 2

def faultReadWords (s : State) (m : Msg) : List Word :=
  let w := pword m 0
  match faultReadKind m with
  | 0 => [fltStat s, s.flt.seq] ++ (List.finRange 12).map (fltDomWord s)
  | 1 =>
    let mask := if m.words.length = 2 then fld (pword m 1) 0 12 else 0xFFF
    let l := s.flt.log.filter fun e => mask.testBit e.domain.toNat
    ((l.drop (fld w 2 7)).take (fld w 9 7)).flatMap logWords
  | _ => frecWords s

def faultReadH : Handler where
  range := fun _ m =>
    let w := pword m 0
    let first := fld w 2 7
    let num := fld w 9 7
    fld w 16 4 == 0 && faultReadKind m != 3
      && (faultReadKind m != 1
        || (first ≤ 63 && 1 ≤ num && num ≤ 64 && first + num ≤ 64 && fld (pword m 1) 12 8 == 0))
  run := fun m s => (.reply stOk (faultReadWords s m), s)

/-- FAULT_READ (R451). -/
def execFaultRead (m : Msg) (s : State) : Res := interp Op.faultRead faultReadH m s

/-! ### FAULT_ACK -/

/-- Acknowledge the faults that a mask names (R452). -/
def ackCont (w : Word) (s : State) : State :=
  foldSt ((List.finRange 12).filter fun d => bit w d.val)
    (fun d s => modFlt (fun f => { f with held := f.held.set d none }) s) s

/-- Acknowledge the fatal record (R452). -/
def ackFatal (s : State) : State :=
  if s.aon.fatalHeld then modAon (fun a => { a with fatalHeld := false, frec := { a.frec with acked := true } }) s else s

/-- Clear the counters of the domains that a mask names (R452). -/
def clearCounters (w : Word) (s : State) : State :=
  let s := modFlt (fun f => { f with cnt := f.cnt.filter fun x => !bit w (x.1 / 32) }) s
  if bit w 11 then modWd (fun x => { x with early := 0, wrong := 0, foreign := 0, mon := 0 }) s else s

def faultAckGo (w0 w1 : Word) (s : State) : State :=
  let s := clearCounters w1 (whenSt (bit w0 12) ackFatal (ackCont w0 s))
  if bit w1 12 then modFlt (fun f => { f with log := [] }) s else s

def faultAckH : Handler where
  range := fun _ m => fld (pword m 0) 13 7 == 0 && fld (pword m 1) 13 7 == 0
  run := fun m s => (.reply stOk [], faultAckGo (pword m 0) (pword m 1) s)

/-- FAULT_ACK (R452). -/
def execFaultAck (m : Msg) (s : State) : Res := interp Op.faultAck faultAckH m s

/-! ### The watchdog's commands -/

def wdServeH : Handler where
  run := fun m s => let r := judgeServe m.port (pword m 0) s; (.reply r.1 [], r.2)

/-- WD_SERVE (R461). A serve with a good check word is judged as it arrives at the front end (R124); any other packet of the
opcode goes through the interpreter's checks. -/
def execWdServe (m : Msg) (s : State) : Res := interp Op.wdServe wdServeH m s

/-- The registers that a SET would leave (R456): PRE, CLK, CLOSE, TIMEOUT, WARN. -/
def wdSetVals (s : State) (m : Msg) : Nat × Bool × Word × Word × Word :=
  (fld (pword m 0) 2 4, bit (pword m 0) 6, m.words.getD 1 s.wd.close, m.words.getD 2 s.wd.timeout, m.words.getD 3 s.wd.warn)

/-- The tests on PRE, CLOSE, TIMEOUT and WARN (R456). -/
def wdTests (pre : Nat) (close timeout warn : Word) : Bool :=
  pre ≤ 10 && 2 ≤ timeout.toNat && close.toNat < timeout.toNat && (warn == 0 || warn.toNat < timeout.toNat)

def wdOp (m : Msg) : Nat := fld (pword m 0) 0 2

def wdStateOk (s : State) (m : Msg) : Bool :=
  match wdOp m with
  | 0 => !s.wd.running && !(if bit (pword m 0) 6 then s.wd.failedB else s.wd.failedA)
  | 1 => !s.wd.running
  | 2 => isState s [.config, .maint]
  | _ => true

def wdRange (s : State) (m : Msg) : Bool :=
  let w := pword m 0
  fld w 7 13 == 0 &&
  match wdOp m with
  | 0 => let v := wdSetVals s m; wdTests v.1 v.2.2.1 v.2.2.2.1 v.2.2.2.2
  | 1 => m.words.length == 2 && fld w 2 5 == 0 && wdTests s.wd.pre.toNat s.wd.close s.wd.timeout s.wd.warn
  | 2 => m.words.length == 1 && fld w 2 5 == 0
  | _ => false

def wdGo (m : Msg) (s : State) : State :=
  let s := modWd (fun w => { w with owner := some m.port }) s
  match wdOp m with
  | 0 =>
    let v := wdSetVals s m
    modWd (fun w => { w with pre := BitVec.ofNat 4 v.1, clk := v.2.1, clkNow := v.2.1, close := v.2.2.1
                             timeout := v.2.2.2.1, warn := v.2.2.2.2 }) s
  | 1 => wdStart (pword m 1) s
  | _ => wdStop s

def wdConfigH : Handler where
  stateOk := wdStateOk
  range := wdRange
  auth := fun s m => !isOwned s && (s.wd.owner = none || s.wd.owner = some m.port)
  run := fun m s => (.reply stOk [], wdGo m s)

/-- WD_CONFIG SET (R456). A WD_CONFIG packet does what its OP says, whichever row brings it (log entry 15). -/
def execWdConfigSet (m : Msg) (s : State) : Res := interp Op.wdConfig wdConfigH m s

/-- WD_CONFIG START (R456). -/
def execWdConfigStart (m : Msg) (s : State) : Res := interp Op.wdConfig wdConfigH m s

/-- WD_CONFIG STOP (R456). -/
def execWdConfigStop (m : Msg) (s : State) : Res := interp Op.wdConfig wdConfigH m s

end Sys2Proof.Machine
end

