-- ==== Sys2Proof/Machine/MemInt.lean ====
section
/-! DEFINITION. Memory integrity events (16_memory_integrity R476 to R480): scrubbing, pattern tests. -/

namespace Sys2Proof.Machine

/-- Words of each protected memory (R467). -/
def memSize (m : Fin 16) : Nat :=
  match m with
  | 0 | 1 => 3072
  | 8 => 1048576
  | 9 | 10 => 2048
  | 11 | 12 => 4352
  | 13 => 65536
  | 14 => 32768
  | 15 => 1024
  | _ => 65536

def memAll : List (Fin 16) := List.finRange 16

/-- Memory and word of the k-th scrub read of a pass (R476). -/
def scrubAt (k : Nat) : List (Fin 16) → Option (Fin 16 × Nat)
  | [] => none
  | m :: l => if k < memSize m then some (m, k) else scrubAt (k - memSize m) l

/-- A memory under a MAINTENANCE test is unusable (R479). -/
def underTest (s : State) (m : Fin 16) : Bool := match s.mi.test with | some t => bit t.2 m.val | none => false

/-- SCRUB_READ (R476, R477): the next word, one CK_CORE clock of 1.25 ticks times 2^STEP after the last. -/
def execScrubRead (s : State) : Res :=
  if cfgBit s .miCfg 0 ∧ isLive s ∧ s.pw.dev ≠ .lockdown then
    let s := reach (s.now + (5 * 2 ^ cfgFld s .miCfg 1 4 + 3) / 4) s
    match scrubAt s.mi.scrub memAll with
    | none => .next s
    | some (m, a) =>
      let s := if underTest s m then s else (memRead .scrubber m a s).2
      let k := s.mi.scrub + 1
      .next (match scrubAt k memAll with
        | some _ => modMi (fun x => { x with scrub := k }) s
        | none => modMi (fun x => { x with scrub := 0, pass := x.pass + 1 }) s)
  else .next s

/-! ### Pattern tests -/

/-- A tested memory loses its content, and what stood on it (R479). -/
def testSpoils (m : Fin 16) (s : State) : State :=
  let s := memClear m s
  if m.val ≤ 1 then bankSpoiled (if m = 0 then 0 else 1) s
  else if m = 15 then modTrk (fun t => { t with learned := false }) s
  else s

/-- A defect that a MAINTENANCE test found (R478, R479). -/
def testFault (f : PatternFault) (s : State) : State :=
  if f.mendable then
    report 7 1 f.mem.val
      (modCnt f.mem (fun c => { c with corr := satInc c.corr, lcorV := true, lcor := f.addr }) s)
  else
    report 7 2 f.mem.val
      (modCnt f.mem (fun c => { c with uncorr := satInc c.uncorr, lbadV := true, lbad := f.addr }) s)

/-- MI_TEST.RUN (R479). -/
def miTestStart (sel : BitVec 16) (s : State) : State :=
  let s := modMi (fun x => { x with testSel := sel, test := some (s.now, sel) }) s
  foldSt (memAll.filter fun m => bit sel m.val) testSpoils s

/-- Faults of the memories in a selection, in ascending memory index. -/
def selFaults (sel : BitVec 16) (l : List PatternFault) : List PatternFault :=
  memAll.flatMap fun m => l.filter fun f => f.mem == m && bit sel m.val

/-- MI_TEST_END (R479). -/
def execMiTestEnd (faults : List PatternFault) (s : State) : Res :=
  match s.mi.test with
  | none => .next s
  | some (_, sel) =>
    let l := selFaults sel faults
    let res : BitVec 2 := if l.isEmpty then 1 else if l.all (·.mendable) then 2 else 3
    let low : BitVec 4 := match l with | f :: _ => BitVec.ofNat 4 f.mem.val | [] => 0
    let s := foldSt (memAll.filter fun m => bit sel m.val) testSpoils s
    let s := modMi (fun x => { x with test := none, testRes := res, testMem := low }) s
    .next (foldSt l testFault s)

/-! ### MI registers -/

def miStatWord (s : State) : Word :=
  pack [(0, b2n s.mi.test.isSome), (1, s.mi.testRes.toNat), (3, s.mi.testMem.toNat)]

def miCntWord (s : State) (m : Fin 16) : Word :=
  let c := s.mi.cnt[m]
  pack [(0, c.corr.toNat), (9, c.uncorr.toNat), (18, b2n c.lcorV), (19, b2n c.lbadV)]

/-- MI_CLR.CNT (R481). -/
def miClearCounts (s : State) : State :=
  modMi (fun x => { x with cnt := x.cnt.map fun c => { c with corr := 0, uncorr := 0, lcorV := false, lbadV := false } }) s

/-- MEMINJ1 (R480): memory and half; ARM arms the flip. -/
def meminjWrite (v : Word) (s : State) : State :=
  modMi (fun x => { x with
    fMem := v.extractLsb' 0 4, fHalf := bit v 4
    fArmed := x.fArmed || bit v 5, fDone := x.fDone && !bit v 5 }) s

def meminj1Word (s : State) : Word :=
  pack [(0, s.mi.fMem.toNat), (4, b2n s.mi.fHalf), (6, b2n s.mi.fArmed), (7, b2n s.mi.fDone)]

end Sys2Proof.Machine
end

