-- ==== Sys2Proof/Machine/MmpCore.lean ====
section
/-! DEFINITION. The memory master port (19_memory_master_port R537 to R550): windows and selects, the length and the time of a
transaction, error records. -/

namespace Sys2Proof.Machine

/-! ### Words and bytes (R539) -/

/-- Words from bytes read, three to a word, bits [23:20] ignored. -/
def bytesToWords : List (BitVec 8) → List Word
  | a :: b :: c :: l => (a.extractLsb' 0 4 ++ b ++ c) :: bytesToWords l
  | _ => []

/-- Bytes of words to be written. -/
def wordsToBytes (ws : List Word) : List (BitVec 8) := ws.flatMap wordBytes

/-! ### Selects and windows (R543, R544) -/

def selFld (s : State) (k : Fin 8) (r : Fin 4) (lo len : Nat) : Nat := cfgFld s (.mmpSel k r) lo len
def selSize (s : State) (k : Fin 8) : Nat := 2 ^ selFld s k 0 1 5
def winFld (s : State) (w : Fin 4) (lo len : Nat) : Nat := cfgFld s (.mmpWin w 0) lo len

/-- Selects of a window in ascending order. -/
def winSels (s : State) (w : Fin 4) : List (Fin 8) :=
  (List.finRange 8).filter fun k => winFld s w 0 3 ≤ k.val && k.val ≤ winFld s w 3 3

/-- The select that holds a linear byte, the offset in it, and the bytes left in the device. -/
def locate (s : State) : List (Fin 8) → Nat → Option (Fin 8 × Nat × Nat)
  | [], _ => none
  | k :: l, a => if a < selSize s k then some (k, a, selSize s k - a) else locate s l (a - selSize s k)

/-- Linear byte address of a word of a window (R539). -/
def winByte (s : State) (w : Fin 4) (word : Nat) : Nat := 4096 * (cfgGet s (.mmpWin w 1)).toNat + 3 * word

/-- Every byte from a linear address lies in a device that is present. -/
def covered (s : State) (sels : List (Fin 8)) : Nat → Nat → Nat → Bool
  | 0, _, _ => false
  | f + 1, a, n =>
    match locate s sels a with
    | none => false
    | some (k, _, left) => cfgBit s (.mmpSel k 0) 0 && (n ≤ left || covered s sels f (a + left) (n - left))

/-- A run of words lies in a window (R544); an empty window, or one that is off, holds none (R543). -/
def inWindowW (s : State) (w : Fin 4) (word n : Nat) : Bool :=
  cfgBit s (.mmpWin w 0) 6 && word + n ≤ 4096 * (cfgGet s (.mmpWin w 2)).toNat
    && covered s (winSels s w) 9 (winByte s w word) (3 * n)

/-- The error that refuses a request before any transaction starts (R544, R546, R549). -/
def mmpCheck (s : State) (q : MmpReq) : Option Nat :=
  if !cfgBit s .mmpCfg 0 then some 5
  else if q.write ∧ !cfgBit s (.mmpWin q.win 0) 7 then some 3
  else if inWindowW s q.win q.word (q.len / 3) then none
  else some 3

/-- Where a request stands: select, offset, bytes left in the device. -/
def mmpPlace (s : State) (q : MmpReq) : Fin 8 × Nat × Nat :=
  (locate s (winSels s q.win) (winByte s q.win q.word + q.done)).getD (7, 0, 0)

/-! ### Transactions (R537, R538, R542, R546) -/

/-- Ticks of MCK clocks, rounded up: 1.25 ticks for each step of DIV. -/
def mckTicks (s : State) (n : Nat) : Nat := (n * 5 * (cfgFld s .mmpCfg 3 4 + 1) + 3) / 4

def isDtr (s : State) : Bool := cfgBit s .mmpCfg 2

/-- Clocks of a transaction with an address, a dummy phase and data bytes. -/
def mckClocks (s : State) (k : Fin 8) (addr dummy : Bool) (bytes : Nat) : Nat :=
  1 + (if addr then (if isDtr s then 2 else 3 + selFld s k 0 12 1) else 0)
    + (if dummy then selFld s k 0 7 5 else 0) + (if isDtr s then (bytes + 1) / 2 else bytes)

/-- Bytes of the next read transaction: at most `n` and `left` (R542, R544). -/
def readBytes (s : State) (q : MmpReq) (k : Fin 8) (at_ n left : Nat) : Nat :=
  let m := min n left
  if !cfgBit s (.mmpSel k 0) 6 then min m (3 - (q.done + at_) % 3)
  else
    let t := selFld s k 0 13 4
    if t = 0 then m
    else
      let room := t * 200 / (cfgFld s .mmpCfg 3 4 + 1) - mckClocks s k true true 0
      min m (max 1 (if isDtr s then 2 * room else room))

/-- Bytes of the present chunk (R546). -/
def chunkBytes (s : State) (q : MmpReq) : Nat :=
  let (k, off, left) := mmpPlace s q
  let pg := 2 ^ selFld s k 3 0 4
  min (min (pg - off % pg) left) (q.len - q.done)

/-- What the next transaction of a request is: clocks, and data bytes that it brings. A chunk without a write enable begins
with its program transaction. -/
def mmpShape (s : State) (q : MmpReq) : Nat × Nat :=
  let (k, _, left) := mmpPlace s q
  if !q.write then
    let n := readBytes s q k 0 (q.len - q.done) left
    (mckClocks s k true true n, n)
  else
    match q.step.toNat with
    | 0 => (mckClocks s k false false 0, 0)
    | 1 => (mckClocks s k true false (chunkBytes s q), 0)
    | _ =>
      let n := readBytes s q k q.polls (chunkBytes s q - q.polls) (left - q.polls)
      (mckClocks s k true true n, n)

/-! ### Requests and errors -/

def mmpSubmit (q : MmpReq) (s : State) : State := modMmp (fun m => { m with reqs := m.reqs ++ [q] }) s

def mkReq (user : MmpUser) (win : Fin 4) (write : Bool) (word n : Nat) (data : List (BitVec 8)) (reply : Option Deferred) :
    MmpReq :=
  { user := user, win := win, write := write, word := word, data := data, len := 3 * n, done := 0, step := 0, polls := 0
    failed := none, reply := reply }

/-- Users in their order of service (R547) and their codes (R554). -/
def mmpUsers : List MmpUser := [.refetch, .replay, .rack, .host, .overlay]
def mmpCode : MmpUser → Nat
  | .refetch => 1 | .replay => 2 | .rack => 3 | .host => 4 | .overlay => 5

/-- The oldest request of a user that is not ended. -/
def mmpHead (s : State) (u : MmpUser) : Option MmpReq :=
  s.mmp.reqs.find? fun q => q.user == u && q.failed.isNone && decide (q.done < q.len)

/-- Change the oldest unended request of a user. -/
def mmpPut (u : MmpUser) (f : MmpReq → MmpReq) (s : State) : State :=
  modMmp (fun m => { m with reqs := go m.reqs }) s
where
  go : List MmpReq → List MmpReq
    | [] => []
    | q :: l => if q.user == u && q.failed.isNone && decide (q.done < q.len) then f q :: l else q :: go l

/-- A port error (R549): counted, recorded, reported, and source 88. A range error and a refused request have no select: the
offset that the record shows is then open (log entry 28). -/
def mmpError (kind : Nat) (q : MmpReq) (s : State) : State :=
  let (k, off, _) := mmpPlace s q
  let none_ := kind = 3 ∨ kind = 5
  let unit := if none_ then 7 else k.val
  let ((a1, a2), s) :=
    if none_ then
      let (x, s) := drawWord s
      let (y, s) := drawWord s
      ((x, y &&& 0xFFF#20), s)
    else ((BitVec.ofNat 20 off, BitVec.ofNat 20 (off >>> 20)), s)
  let s := modMmp (fun m => { m with
    errors := satInc m.errors, pollTo := if kind = 1 then satInc m.pollTo else m.pollTo, lastKind := BitVec.ofNat 3 kind
    err0 := pack [(0, kind), (3, unit), (6, mmpCode q.user), (9, q.win.val)], err1 := a1, err2 := a2 }) s
  raise 88 (report 7 7 unit s)

end Sys2Proof.Machine
end

