-- ==== Sys2Proof/Machine/RegRules.lean ====
section
/-! DEFINITION. The rules that a write to one register meets (06_registers_taps R18 to R20, R166, and the owning chapters):
its state rule (check 3), its range rule (check 5), its taps (check 6) and the seal (check 7). -/

namespace Sys2Proof.Machine

/-! ### Values that other rules compare -/

/-- The other channel of a pair (R5). -/
def evenChan (n : Chan) : Chan := ⟨n.val - n.val % 2, by omega⟩
def pairOf (n : Chan) : Chan := if h : n.val % 2 = 0 then ⟨n.val + 1, by omega⟩ else ⟨n.val - 1, by omega⟩

/-- The pair of a channel works as AI_DIFF. -/
def inDiff (s : State) (n : Chan) : Bool := chMode s (evenChan n) == mAiDiff

/-- Modes after a write of MODE to a channel (R350). -/
def modesAfter (s : State) (n : Chan) (mode : Nat) (k : Chan) : Nat :=
  if k = n then mode
  else if k = pairOf n ∧ n.val % 2 = 0 then
    (if mode = mAiDiff then mAiDiff else if chMode s n = mAiDiff then mOff else chMode s k)
  else chMode s k

/-- The memory master port has a request in flight or waiting (R554). -/
def mmpBusy (s : State) : Bool := !s.mmp.reqs.isEmpty

/-- A bank is WAITING or ACTIVE (R246). -/
def bankArmed (s : State) (b : Fin 2) : Bool := (bnk s b).st != .unarmed

/-- A self-timed pattern runs, as the channel reports say. -/
def patternRuns (s : State) (n : Chan) : Bool := bit (mir s n).rep.dstat 17

/-- A pan or its ALT partner is OPEN (R303). -/
def panBusy (s : State) (g : Grp) (p : Fin 16) : Bool :=
  (pan s g p).st == .opened || (panAlt s g p && (pan s g (partnerPan p)).st == .opened)

/-! ### Modes that armed banks need (R270) -/

/-- What one entry needs of the channel modes (R239, R270). -/
def entryFits (s : State) (mode : Chan → Nat) (e : Word × Word × Word) : Bool :=
  let a := entAction e.2.1
  let t := entTarget e.2.1
  let ok := fun (k : Chan) => actsOn a (mode k) && !(a = aSample && mode k = mAiDiff && k.val % 2 = 1)
  if a = aNop ∨ a = aMark ∨ a = aPanOpen ∨ a = aPanClose then true
  else if h : t < 48 then ok ⟨t, h⟩
  else (targetGrps t).all fun g =>
    (lnk s g).st != .up ||
      (let ls := if a = aSample then maskLidxs (entArgA e.2.1) else lidxs
       ls.any (fun l => ok (chanOf g l))
        && (a != aSample || ls.all fun l => !(mode (chanOf g l) = mAiDiff && l.val % 2 = 1)))

/-- Entries as triples of words. -/
def triples : List Word → List (Word × Word × Word)
  | a :: b :: c :: l => (a, b, c) :: triples l
  | _ => []

/-- Entries of a bank as they would be read, COUNT of them. -/
def bankEntries (s : State) (b : Fin 2) : List (Word × Word × Word) := triples (bankWords s b (bankCount s b))

/-- A change of modes breaks an entry of an armed bank that stood before it (R270). -/
def breaksBank (s : State) (mode : Chan → Nat) : Bool :=
  ([0, 1] : List (Fin 2)).any fun b =>
    bankArmed s b && (bankEntries s b).any fun e => entryFits s (chMode s) e && !entryFits s mode e

/-- State rule of a write of MODE (R350, R270). A repeated MODE is no change (R308). -/
def modeStateOk (s : State) (n : Chan) (mode : Nat) : Bool :=
  if mode = chMode s n ∨ 8 < mode then true
  else
    (if n.val % 2 = 0 then mode != mAiDiff || chMode s (pairOf n) == mOff
     else !inDiff s n)
    && !breaksBank s (modesAfter s n mode)

/-! ### Check 3 -/

/-- Injection conditions for the flip mask (R480, R558, R559): memory faults are those of domain 7. -/
def meminjOk (s : State) : Bool :=
  match s.pw.dev with
  | .maint => true
  | .run =>
    let p := permitWord s
    bit p 7 && s.inj.runCnt.toNat < fld p 13 4 && ((heldAt s 7).isNone || bit p 12)
  | _ => false

/-- Pans that a PAN_CMD names. -/
def panCmdPan (v : Word) : Fin 16 := ⟨fld v 3 4, by unfold fld; omega⟩

/-- MI_TEST with RUN (R479): MAINTENANCE, no OPEN pan in a selected memory, the cask at rest. -/
def miTestOk (s : State) (v : Word) : Bool :=
  !bit v 16 ||
    (s.pw.dev == .maint && s.cask.st == .idle && s.cask.rack.isEmpty && s.cask.autoSlot.isNone
      && groups.all fun g => !bit v (2 + g.val) || (List.finRange 16).all fun p => (pan s g p).st != .opened)

/-- State rule that the owning chapter gives a write of `v` to a register. -/
def regStateRule (s : State) (r : Reg) (v : Word) : Bool :=
  let cm := inConfMaint s
  match r with
  | .portDcfg _ | .portDmap _ | .fltCfg _ | .tapCfg _ | .angIn | .wheel | .ztooth | .angOfs | .angRofs | .trkCfg | .spdMin
  | .spdMax | .tcor _ | .ch _ .calcfg | .grp _ .hrcfg | .smpCfg _ | .smpTimer | .miCfg | .miRefbase _ | .govCfg
  | .govGcfg _ | .mmpHdata _ => cm
  | .caskCfg | .caskPost | .caskGrp _ | .caskDisel _ | .caskRbase | .caskRcount => cm && s.cask.st == .idle
  | .mmpCfg | .mmpSel _ _ | .mmpWin _ _ => cm && !mmpBusy s
  | .seqCfg | .toff _ => isState s [.config, .run, .maint]
  | .bankCfg b | .bankPeriod b | .bankChkExp b => isState s [.config, .run, .maint] && !bankArmed s b
  | .entry b _ => !bankArmed s b
  | .ch n .pwmcfg => !patternRuns s n || fld v 0 2 == cfgFld s (.ch n .pwmcfg) 0 2
  | .ch n .pwmper | .ch n .pwmph => !patternRuns s n
  | .ch n .cfg => modeStateOk s n (fld v 0 4)
  | .trkCmd => !(bit v 1 || bit v 2) || s.trk.st == .revSync
  | .panCfg g p | .panRegion g p | .panDecim g p => !panBusy s g p
  | .panCmd => !bit v 9 || (panCmdGrps s (fld v 0 3)).all fun g => (pan s g (panCmdPan v)).st != .opened
  | .miTest => miTestOk s v
  | .meminj k => k = 2 || meminjOk s
  | _ => true

/-- State rule of a write (R154 check 3); during a replay no sealed item is written (R533). -/
def regStateOk (s : State) (r : Reg) (v : Word) : Bool :=
  !(s.cask.st == .replaying && r.isSealed && r.rw != 0) && regStateRule s r v

/-! ### Check 5 -/

/-- Regions of enabled pans of a group do not overlap and end within unit 1023 (R303). -/
def regionsOk (t : State) (g : Grp) : Bool :=
  let l := (List.finRange 16).filter (panEnabled t g)
  l.all fun p =>
    l.all fun q => p == q || panBase t g p + panSize t g p ≤ panBase t g q || panBase t g q + panSize t g q ≤ panBase t g p

def regionFits (t : State) (g : Grp) (p : Fin 16) : Bool := panBase t g p + panSize t g p ≤ 65536

/-- A PWM on-phase or off-phase is 0 or at least 5 µs, D ≤ P, P ≥ 50 µs, Φ < P (R332, R335). -/
def pwmOk (t : State) (n : Chan) : Bool :=
  let c := fun (r : ChReg) => cfgGet t (.ch n r)
  let u := pwmUnit (c .pwmcfg)
  let p := (c .pwmper).toNat * u
  let d := (c .pwmduty).toNat * u
  50 * us ≤ p && d ≤ p && (d == 0 || 5 * us ≤ d) && (d == p || 5 * us ≤ p - d) && (c .pwmph).toNat * u < p

/-- The opcodes that a tap may be bound to, and the blocks (R187). -/
def tapBindOk (kind value : Nat) : Bool :=
  match kind with
  | 0 => true
  | 1 =>
    let op : Op := BitVec.ofNat 8 value
    (opInfo op).isSome && !([Op.fetch, Op.hello, Op.status, Op.regRead, Op.chanGet, Op.trellisRead, Op.panRead,
      Op.caskRead, Op.tapTake, Op.tapRelease, Op.wdServe, Op.faultRead].contains op)
  | 2 => value ≤ 19 && value != 5
  | _ => false

/-- PRESENT on selects that R540 and R541 reserve, and SIZE where a device is fitted. -/
def selOk (t : State) (k : Fin 8) : Bool :=
  let c := cfgGet t (.mmpSel k 0)
  !bit c 0 || ((if cfgBit t .mmpCfg 1 then k.val < 2 else k.val < 7) && 16 ≤ fld c 1 5)

def wdRegsOk (cfg close timeout warn : Word) : Bool := fld cfg 6 2 != 3 && wdTests (fld cfg 0 4) close timeout warn

/-- Range rule of a write of `v` to a register (R20, R154 check 5). `t` holds the values that the write would leave. -/
def regRange (t : State) (r : Reg) (v : Word) : Bool :=
  match r with
  | .portDcfg _ => 3 ≤ fld v 0 5
  | .portDmap _ => (fld v 0 6 < 48 || fld v 0 6 == 63) && (fld v 6 6 < 48 || fld v 6 6 == 63)
  | .intCfg _ => fld v 6 5 ≤ 16 && !(fld v 0 4 == 0 && fld v 4 2 == 3)
  | .modCfg _ => !(fld v 0 10 == 0 && fld v 10 8 == 0)
  | .fltCfg _ => fld v 10 5 ≤ 20
  | .tapCfg k => fld v 0 4 != 0 && (k.val ≤ 6 || tapBindOk (fld v 4 2) (fld v 6 8))
  | .wheel =>
    12 ≤ fld v 0 11 && fld v 0 11 ≤ 1024 && fld v 13 2 != 3 && !(fld v 11 2 == 0 && !bit v 15) && !(fld v 13 2 == 2 && !bit v 17)
  | .ztooth => fld v 0 10 + 1 + wheelM t ≤ wheelN t
  | .trkCfg => 2 ≤ fld v 3 4 && fld v 12 3 != 0
  | .spdMin | .spdMax =>
    2 ≤ fld v 0 13 && fld v 0 13 ≤ 6000 && cfgFld t .spdMin 0 13 < cfgFld t .spdMax 0 13
  | .tcor k => fld v 0 12 == 0 || (k != 0 && k.val + wheelM t < wheelN t)
  | .trkCmd => !(bit v 1 && bit v 2)
  | .seqCfg => 4 ≤ fld v 0 8
  | .bankCfg _ => fld v 0 11 ≤ 1024
  | .smpCfg _ => fld v 0 2 ≤ 1 && fld v 2 2 != 3
  | .panCfg g p =>
    (!bit v 11 || (fld v 0 8 != 0 && fld v 8 3 != 0)) && (p.val % 2 = 0 || !bit v 14) && regionsOk t g
  | .panRegion g p => regionFits t g p && regionsOk t g
  | .panDecim _ _ => fld v 0 16 != 0
  | .panCmd => fld v 0 3 != 6 && b2n (bit v 7) + b2n (bit v 8) + b2n (bit v 9) ≤ 1
  | .panWin => fld v 0 3 ≤ 5
  | .ch n .cfg =>
    let m := fld v 0 4
    m ≤ 8 && !(m == mAiDiff && n.val % 2 == 1 && !inDiff t n)
  | .ch n .safe | .ch n .safeT =>
    cfgFld t (.ch n .safe) 0 2 != 3 && (cfgFld t (.ch n .safe) 0 2 != 1 || cfgGet t (.ch n .safeT) != 0)
  | .ch _ .safeV => v.toNat ≤ 0xEA600
  | .ch n .dicfg | .ch n .diag =>
    let d := cfgGet t (.ch n .dicfg)
    let g := cfgGet t (.ch n .diag)
    fld d 1 2 != 3 && !(bit d 11 && fld d 13 5 == 0) && fld g 6 4 != 0
      && (!bit d 12 || (10 ≤ fld g 0 6 && fld g 0 6 ≤ 36))
  | .ch _ .cntcfg => fld v 0 2 != 3
  | .ch _ .docfg => 5 ≤ fld v 0 6 && fld v 0 6 ≤ 60 && fld v 6 5 ≤ 20
  | .ch _ .retry => fld v 6 4 != 0
  | .ch n .pwmcfg | .ch n .pwmper | .ch n .pwmduty | .ch n .pwmph => pwmOk t n
  | .grp _ .lcfg => 20 ≤ fld v 0 17 && fld v 0 17 ≤ 100000
  | .grp _ .hrcfg => fld v 1 5 ≤ 18 && fld v 6 5 ≤ 18 && fld v 1 5 ≤ fld v 6 5
  | .govCfg => fld v 0 5 ≤ 19
  | .govGcfg _ => 10 ≤ fld v 0 6 && fld v 0 6 ≤ 60 && 18 ≤ fld v 6 6 && fld v 6 6 ≤ 36
  | .caskGrp _ => fld v 0 8 == 0 || fld v 8 12 != 0
  | .caskCfg | .caskRcount => !cfgBit t .caskCfg 1 || cfgGet t .caskRcount != 0
  | .mmpCfg => (List.finRange 8).all (selOk t)
  | .mmpSel k 0 => selOk t k
  | .mmpSel _ 3 => 4 ≤ fld v 0 4 && fld v 0 4 ≤ 12
  | .mmpWin w 0 => fld v 0 3 ≤ fld v 3 3 && (!bit v 8 || (w == 3 && !bit v 7))
  | .miTest => fld v 9 6 == 0
  | .wdCfg => fld v 6 2 != 3 && fld v 0 4 ≤ 10
  | .wdTimeout => 2 ≤ v.toNat
  | _ => true

/-! ### Checks 6 and 7 -/

/-- Taps that a REG_WRITE to an address needs are free of the other port (R185 to R187, R192). -/
def addrFree (s : State) (p : Port) (a : Nat) : Bool :=
  let blk := blockOf a
  let fixed : Option (Fin 32) :=
    if 7 ≤ blk ∧ blk ≤ 9 then some 0
    else if h : 0x6000 ≤ a ∧ a < 0x6C00 then some ⟨(a - 0x6000) / 512 + 1, by omega⟩
    else if h : 0x7000 ≤ a ∧ a < 0x7180 then some ⟨(a - 0x7000) / 64 + 1, by omega⟩
    else none
  let own := match Reg.ofAddr a with | some (.tapCfg k) => tapHeld s p k | _ => false
  !(fixed.any (tapHeld s p)) && !boundHeld s p 2 blk && !own

/-- A sealed item keeps its value while the seal is enabled (R155, R494). -/
def sealHolds (s : State) (r : Reg) : Bool := isOwned s && r.isSealed && r.rw != 0

/-! ### Writable words -/

/-- Bits of a register that a write can act on: RW, WO and W1T fields (R18). -/
def Reg.wmask : Reg → Nat
  | .resetCause | .wakeCause | .tbLock => 0x80000
  | .portClr _ => 0x3
  | .irqBell | .seqClr | .smpCmd | .smpClr | .govClr | .miClr | .secCtl | .injCtl => 0x1
  | .trkCmd => 0x1F
  | .panCmd => 0x3FF
  | .ch _ .dctl => 0x1FFF
  | .ch _ .actl => 0x1F
  | .grp _ .ctl => 0x1FF
  | .caskCtl | .mmpClr => 0x3
  | .miTest => 0x1FFFF
  | .meminj k => (match k with | 0 => 0x1FFFF | 1 => 0x3F | 2 => 0)
  | r => r.rw

/-- The bits of a written word that matter (R18, R19). -/
def maskW (r : Reg) (v : Word) : Word := v &&& BitVec.ofNat 20 r.wmask

/-- A register's RW fields take the written bits; its RO bits stay (R18). -/
def mergeW (r : Reg) (old v : Word) : Word := (old &&& ~~~(BitVec.ofNat 20 r.rw)) ||| (v &&& BitVec.ofNat 20 r.rw)

/-- The values that a write would leave in the configuration registers, for rules that compare fields. -/
def afterWrite (r : Reg) (v : Word) (s : State) : State :=
  if r.rw = 0 then s
  else match r with
    | .ch n .cfg =>
      let m := fld v 0 4
      let t := cfgSet (.ch n .cfg) (BitVec.ofNat 20 m) s
      if n.val % 2 = 0 ∧ (m = mAiDiff ∨ chMode s n = mAiDiff) then
        cfgSet (.ch (pairOf n) .cfg) (BitVec.ofNat 20 (modesAfter s n m (pairOf n))) t
      else t
    | r => cfgSet r (mergeW r (cfgGet s r) v) s

/-- Words that name no defined register, or only RO fields, change nothing (R18, R19). -/
def targetOf (a : Nat) : Option Reg :=
  match Reg.ofAddr a with
  | some r => if r.wmask = 0 then none else some r
  | none => none

/-- Judge the writes of one unit, addresses and words, against checks 3, 5, 6 and 7 in that order (R154, R310). -/
def judgeUnit (op : Op) (p : Port) (l : List (Nat × Word)) (s : State) : Option Status :=
  let rs := l.filterMap fun x => (targetOf x.1).map fun r => (r, maskW r x.2)
  let t := rs.foldl (fun t x => afterWrite x.1 x.2 t) s
  if !rs.all (fun x => regStateOk s x.1 x.2) then some stState
  else if !rs.all (fun x => regRange t x.1 x.2) then some stRange
  else if opHeld s p op || !l.all (fun x => addrFree s p x.1) then some stTap
  else if rs.any (fun x => sealHolds s x.1) then some stDenied
  else none

end Sys2Proof.Machine
end

