-- ==== Sys2Proof/Machine/RegRead.lean ====
section
/-! DEFINITION. What every register reads as (the register tables of all chapters), and the snapshot latches
(06_registers_taps R179 to R181). -/

namespace Sys2Proof.Machine

/-- Word `k` of a wide value. -/
def wordAt {n : Nat} (x : BitVec n) (k : Nat) : Word := BitVec.ofNat 20 (x.toNat >>> (20 * k))

/-! ### Host ports (R140) -/

def portStatWord (s : State) (p : Port) : Word :=
  let x := prt s p
  pack [(0, b2n x.daisy), (1, x.vintage.toNat), (3, b2n x.awake), (4, b2n x.selected), (5, cmdFree s x)]

def portDstat2Word (x : PortSt) : Word :=
  pack [(0, x.crcRej.toNat), (10, x.lastFrame.toNat), (12, b2n x.timedOut), (13, b2n x.refused)]

def pair10 (lo hi : BitVec 10) : Word := pack [(0, lo.toNat), (10, hi.toNat)]

def portErrWord (x : PortSt) (k : Fin 3) : Word :=
  match k with
  | 0 => pair10 x.frag x.tail
  | 1 => pair10 x.hdrBad x.aborted
  | 2 => pair10 x.overrun x.discard

/-! ### Channels and groups (R345, R373, R399, R400) -/

/-- CHn.CALSTAT (R373). -/
def calStatWord (s : State) (n : Chan) : Word :=
  let c := s.cal
  let arm := match c.arm with | some a => if a.n = n then some a else none | none => none
  let mine := fun (t : Trims) => t.filter fun x => x.1 / 6 = n.val
  pack ((match arm with
      | some a => [(0, 1), (1, (pidx a.who.port).val), (2, a.set.val)]
      | none => [])
    ++ [(5, b2n (mine c.trims == mine c.copies[if c.cur then (1 : Fin 2) else 0].trims)), (6, b2n (bit c.want n.val || bit c.wantNext n.val)),
      (7, b2n c.nominal), (8, b2n (!(mine c.trims).isEmpty))])

def chWord (s : State) (n : Chan) (r : ChReg) : Word :=
  let m := mir s n
  let c := m.rep
  match r with
  | .safe => cfgGet s (.ch n .safe) ||| pack [(2, b2n c.safeActive), (3, b2n c.safeHolding)]
  | .dstat => c.dstat
  | .evt => m.evt.setWidth 20
  | .dctl | .actl => 0
  | .cnt k => wordAt c.cnt k.val
  | .fper k => wordAt c.fper k.val
  | .fedg => c.fedg
  | .lstate => c.lstate.setWidth 20
  | .lcnt k => wordAt c.lcnt k.val
  | .lstamp k => wordAt c.lstamp k.val
  | .astat => c.astat.setWidth 20
  | .aevt => m.aevt.setWidth 20
  | .aocode => c.aocode
  | .amon => c.amon
  | .tzero k => (trimOf s n k).1.setWidth 20
  | .tgain k => (trimOf s n k).2
  | .calstat => calStatWord s n
  | r => cfgGet s (.ch n r)

def supplyCode : Supply → Nat
  | .good => 0 | .low => 1 | .missing => 2
def linkCode : LinkState → Nat
  | .down => 0 | .ranging => 1 | .up => 2

def grpWord (s : State) (g : Grp) (r : GrpReg) : Word :=
  let l := lnk s g
  match r with
  | .lstat => pack [(0, linkCode l.st), (2, l.cause.toNat),
      (5, b2n (lidxs.any fun k => (mir s (chanOf g k)).rep.safeActive)), (6, b2n l.wdExp), (7, b2n l.parked),
      (8, supplyCode l.supply), (10, l.vintage.toNat)]
  | .sup => pack [(0, l.vfg.toNat), (8, l.vmin.toNat)]
  | .lerr0 => pair10 l.dnCrc l.upCrc
  | .lerr1 => pair10 l.resent l.losses
  | .evt => l.evt.setWidth 20
  | .ctl => 0
  | .hrstat => l.hrStat
  | .hrdrv => l.hrDrv
  | .lcfg | .evtEn | .hrcfg => cfgGet s (.grp g r)

/-! ### Interrupts, faults, watchdog, taps -/

def bits20 {n : Nat} (x : BitVec n) (k : Nat) : Word := BitVec.ofNat 20 (x.toNat >>> (20 * k))

def modStatWord (s : State) (m : Fin 16) : Word :=
  let x := s.irq.mods[m]
  pack [(0, x.count.toNat), (10, b2n (modHeld s m)), (11, b2n x.timer.isSome)]

def wdStatWord (s : State) : Word :=
  pack [(0, b2n s.wd.running), (1, b2n s.wd.clkNow), (2, b2n s.wd.failover), (3, b2n s.wd.monLost), (4, s.wd.last.toNat)]

/-- Taps that a port holds, by number. -/
def heldTaps (s : State) (p : Port) : BitVec 32 :=
  (List.finRange 32).foldl (fun w k => if s.taps[k].holder = some p then setBit w k.val true else w) 0

/-! ### Timebase, cask, memory port, security, injection -/

def tbLockWord (s : State) : Word :=
  pack (groups.map (fun g => (g.val, b2n (lnk s g).tbLock)) ++ groups.map (fun g => (6 + g.val, b2n (lnk s g).stepped)))

def caskStatWord (s : State) : Word :=
  let st := match s.cask.st with | .idle => 0 | .recording => 1 | .freezing => 2 | .replaying => 3
  pack [(0, st), (2, s.cask.slot), (10, s.cask.closed.length), (19, b2n s.cask.autoStop)]

def rpStatWord (s : State) : Word :=
  pack [(0, b2n (s.cask.st == .replaying)), (1, s.cask.rpRes.toNat), (4, s.cask.rpMatch.toNat), (8, b2n s.cask.rpTrunc)]

def mmpStatWord (s : State) : Word :=
  let user := match s.mmp.bus with | some (u, _) => mmpCode u | none => 0
  pack [(0, b2n (mmpBusy s)), (1, user), (4, s.mmp.lastKind.toNat)]

/-- The current copy of the configuration: the valid one with the higher sequence number (R506, R369). -/
def confSeq (s : State) (k : Fin 2) : Nat :=
  let c := s.sec.confs[k]
  if c.good then (match c.seq with | some q => q.toNat + 1 | none => 0) else 0
def curConf (s : State) : Fin 2 := if confSeq s 0 < confSeq s 1 then 1 else 0

/-- SHA-256 of an owner key (R491, R492). -/
def keyHash (x y : Nat) : Nat := shaOf (word256 x ++ word256 y)

/-- The owner's public key, when the stored record is that of the current slot (R492). -/
def ownerKey (s : State) : Option (Nat × Nat) :=
  match curSlot s, s.sec.confs[curConf s].key with
  | some k, some (x, y) => if s.sec.cellar.slots[k].hash = some (keyHash x y) then some (x, y) else none
  | _, _ => none

/-- Cells of the anti-rollback counter that are programmed (R482). -/
def rbCount (s : State) : Nat := ((List.range 64).filter fun i => bit s.sec.cellar.cells i).length

def slotsUsed (s : State) : Nat := (s.sec.cellar.slots.toList.filter fun x => x.hash.isSome).length

def secStatWord (s : State) : Word :=
  let slot := match curSlot s with | some k => k.val | none => 0
  pack [(0, b2n (isOwned s)), (1, slot), (3, slotsUsed s), (6, b2n (s.sec.bundle.isSome && isOwned s)), (7, b2n s.sec.pending.isSome),
    (8, b2n (ownerKey s).isSome), (9, b2n s.sec.cellarOk), (10, b2n (s.pw.dev == .lockdown))]

def bundleSeq (o : Option Bundle) : Word := match o with | some b => b.seq | none => 0

def updStatWord (s : State) : Word :=
  pack ((match s.sec.sess with
      | some u => [(0, match u.phase with | .erasing => 1 | .opened => 2 | .committing => 3), (2, b2n u.conf), (3, (pidx u.port).val)]
      | none => [])
    ++ [(4, s.aon.updLast.toNat)])

def injStatWord (s : State) : Word :=
  pack [(0, b2n s.inj.armed.isSome), (1, b2n s.inj.done), (2, s.inj.last.toNat), (4, s.inj.num.toNat), (14, s.inj.runCnt.toNat)]

/-! ### All registers -/

/-- The present value of a register, protected memories, the host data window and the snapshot latches apart. -/
def regWord (s : State) (p : Port) (r : Reg) : Word :=
  match r with
  | .partId => 0x04860
  | .fwVer => fwVer s
  | .vintages => vintagesWord s
  | .stepping => Config.stepping.setWidth 20
  | .devState => devStateWord s
  | .resetCause => s.aon.resetCause.setWidth 20
  | .wakeCause => s.aon.wakeCause.setWidth 20
  | .bootStat => pack [(0, b2n s.pw.bank), (1, b2n s.pw.fallback), (2, b2n s.pw.patternFail), (3, b2n s.pw.calFallback),
      (4, s.pw.bootMs.toNat), (12, b2n s.pw.nvDefault)]
  | .grpUp => grpUpWord s
  | .portStat x => portStatWord s x
  | .portErr x k => portErrWord (prt s x) k
  | .portDstat x => pair10 (prt s x).accepted (prt s x).lenRej
  | .portDstat2 x => portDstat2Word (prt s x)
  | .intCfg n => cfgGet s (.intCfg n) ||| pack [(11, intState s n)]
  | .ipend k => bits20 s.irq.pend k.val
  | .iactA k => bits20 s.irq.actA k.val
  | .iactB k => bits20 s.irq.actB k.val
  | .ivec x => ivecWord s x
  | .modStat m => modStatWord s m
  | .bellAB => s.irq.bellAB
  | .bellBA => s.irq.bellBA
  | .fltStat => fltStat s
  | .fltSeq => s.flt.seq
  | .frec k => (frecWords s).getD k.val 0
  | .fltDom d => fltDomWord s d
  | .fltCnt d c => fltCntWord s d c
  | .wdCfg => wdCfgWord s
  | .wdClose => s.wd.close
  | .wdTimeout => s.wd.timeout
  | .wdWarn => s.wd.warn
  | .wdStat => wdStatWord s
  | .wdCount => BitVec.ofNat 20 (min (wdCount s) 0xFFFFF)
  | .wdToken => s.wd.token
  | .wdErr k => if k = 0 then pair10 s.wd.early s.wd.wrong else pair10 s.wd.foreign s.wd.mon
  | .tapStat k => pack [(0, holderCode s.taps[k].holder), (2, s.taps[k].lastRel.toNat)]
  | .tapSum k => wordAt (heldTaps s (if k.val < 2 then .a else .b)) (k.val % 2)
  | .tb k => BitVec.ofNat 20 (tbNow s >>> (20 * k.val))
  | .tbLock => tbLockWord s
  | .tbErr g => (lnk s g).tbErr.setWidth 20
  | .ang k => (angWords s).getD k.val 0
  | .trkCnt 0 => pair10 s.trk.missed s.trk.extra
  | .trkCnt 1 => pair10 s.trk.losses s.trk.indexErr
  | .trkCnt 2 => pair10 s.trk.camErr s.trk.dirChg
  | .seqStat => seqStat s
  | .bankCfg b => bankCfgWord s b
  | .bankCheck b => (bnk s b).check.setWidth 20
  | .bankStat b => bankStat s b
  | .seqCnt 0 => pair10 s.seq.late s.seq.skew
  | .seqCnt 1 => pair10 s.seq.dropped s.seq.deferred
  | .seqCnt 2 => pair10 s.seq.withdraw 0
  | .seqSkmax => s.seq.skMax
  | .mark k => s.seq.marks[k]
  | .ch n r => chWord s n r
  | .grp g r => grpWord s g r
  | .smpT k => BitVec.ofNat 20 (s.smp.cmdT >>> (20 * k.val))
  | .smpCnt g => pair10 s.smp.busy[g] s.smp.lost[g]
  | .smpLast n k =>
    let x := s.smp.last[n]
    (match k with
      | 0 => x.word
      | 1 => pack [(0, x.flags.toNat), (4, b2n x.unlocked), (5, x.src.toNat)]
      | k => BitVec.ofNat 20 (x.stamp >>> (20 * (k.val - 2))))
  | .panStat g q => panStatWord s g q
  | .panWin => (prt s p).panWin
  | .panSkip g => pair10 s.smp.skipped[g] s.smp.overwritten[g]
  | .caskStat => caskStatWord s
  | .caskSeg k => BitVec.ofNat 20 (s.cask.seg >>> (20 * k.val))
  | .caskSess => s.aon.caskSess
  | .caskRnext => s.cask.rnext
  | .caskLoss k => if k = 0 then pair10 s.cask.lossAdc s.cask.lossDi else pair10 s.cask.lossOther s.cask.overwrite
  | .caskRpstat => rpStatWord s
  | .caskRpofs k => wordAt s.cask.rpOfs k.val
  | .mmpStat => mmpStatWord s
  | .mmpErr k => (match k with | 0 => s.mmp.err0 | 1 => s.mmp.err1 | 2 => s.mmp.err2)
  | .mmpCnt => pair10 s.mmp.errors s.mmp.pollTo
  | .mmpHacc => (prt s p).mmpHacc
  | .mmpHaddr => (prt s p).mmpHaddr
  | .secStat => secStatWord s
  | .secRb => pack [(0, rbCount s), (7, (runBank s).rollback)]
  | .secSeq => if isOwned s then bundleSeq s.sec.bundle else 0
  | .secPseq => bundleSeq s.sec.pending
  | .secSer k => if k = 0 then s.sec.cellar.serial.extractLsb' 20 20 else s.sec.cellar.serial.extractLsb' 0 20
  | .secCseq => s.sec.cfgSeq
  | .updStat => updStatWord s
  | .updOfs => (match s.sec.sess with | some u => BitVec.ofNat 20 u.data.length | none => 0)
  | .updLen => (match s.sec.sess with | some u => BitVec.ofNat 20 u.length | none => 0)
  | .secCnt => pair10 s.sec.refused s.sec.attests
  | .miStat => miStatWord s
  | .miPass => s.mi.pass
  | .miTest => s.mi.testSel.setWidth 20
  | .meminj k => (match k with | 0 => s.mi.flip.setWidth 20 | 1 => meminj1Word s | 2 => s.mi.fAddr)
  | .miCnt m => miCntWord s m
  | .miLcor m => s.mi.cnt[m].lcor
  | .miLbad m => s.mi.cnt[m].lbad
  | .injStat => injStatWord s
  | .injPoint => s.inj.point
  | .injArg => s.inj.arg
  | .injLseq => s.inj.lseq
  | .injPermit => permitWord s
  | .govStat => govStatWord s
  | .govBudget => BitVec.ofNat 20 s.gov.budget
  | .govEst => BitVec.ofNat 20 (min (mW (estModule s)) 0x7FFF)
  | .govResv => BitVec.ofNat 20 (min (mW (resvOf s)) 0x3FFF)
  | .govGstat g => govGstatWord s g
  | .govGpwr g => BitVec.ofNat 20 (min (mW (estGroup s g)) 0x3FFF)
  | .govDefer k => wordAt (deferBits s) k.val
  | .govCnt k => if k = 0 then pair10 s.gov.cntDef s.gov.cntStag else pair10 s.gov.cntDrop s.gov.cntOver
  -- commands read 0 (R18)
  | .portClr _ | .irqBell | .trkCmd | .seqClr | .smpCmd | .smpClr | .panCmd | .caskCtl | .mmpClr | .secCtl | .miClr | .injCtl
  | .govClr => 0
  -- read elsewhere
  | .tcor _ | .entry _ _ | .panWindow _ | .mmpHdata _ => 0
  -- configuration registers
  | r => cfgGet s r

/-! ### Snapshots -/

/-- Higher words of the snapshot value whose lowest word a register is; none for other registers (R179). -/
def snapHigher : Reg → List Reg
  | .tb 0 => [.tb 1, .tb 2]
  | .tapSum 0 => [.tapSum 1, .tapSum 2, .tapSum 3]
  | .ang 0 => [.ang 1, .ang 2, .ang 3, .ang 4, .ang 5, .ang 6, .ang 7, .ang 8, .ang 9]
  | .ch n (.cnt 0) => [.ch n (.cnt 1)]
  | .ch n (.fper 0) => [.ch n (.fper 1), .ch n .fedg]
  | .ch n .lstate => [.ch n (.lcnt 0), .ch n (.lcnt 1), .ch n (.lstamp 0), .ch n (.lstamp 1), .ch n (.lstamp 2)]
  | .smpT 0 => [.smpT 1, .smpT 2]
  | .smpLast n 0 => [.smpLast n 1, .smpLast n 2, .smpLast n 3, .smpLast n 4]
  | .govStat => [.govBudget, .govEst, .govResv]
  | .frec 0 => [.frec 1, .frec 2, .frec 3, .frec 4, .frec 5, .frec 6]
  | .caskStat => [.caskSeg 0, .caskSeg 1]
  | .caskRpofs 0 => [.caskRpofs 1, .caskRpofs 2]
  | .mmpErr 0 => [.mmpErr 1, .mmpErr 2]
  | .miCnt m => [.miLcor m, .miLbad m]
  | _ => []

/-- A register is a higher word of a snapshot value. -/
def isHigher : Reg → Bool
  | .tb k => k != 0
  | .tapSum k => k != 0
  | .ang k => k != 0
  | .ch _ (.cnt k) => k != 0
  | .ch _ (.fper k) => k != 0
  | .ch _ .fedg => true
  | .ch _ (.lcnt _) | .ch _ (.lstamp _) => true
  | .smpT k => k != 0
  | .smpLast _ k => k != 0
  | .govBudget | .govEst | .govResv => true
  | .frec k => k != 0
  | .caskSeg _ => true
  | .caskRpofs k => k != 0
  | .mmpErr k => k != 0
  | .miLcor _ | .miLbad _ => true
  | _ => false

/-- A read of a lowest word fills the port's latch (R179). -/
def fillLatch (p : Port) (r : Reg) (s : State) : State :=
  foldSt (snapHigher r) (fun h t =>
    let w := regWord s p h
    modPort p (fun x => { x with latch := insertKey h.addr w (w != 0) x.latch }) t) s

/-- Protected memory and word address behind a register of the entry, correction and pan windows (R237, R246, R299). -/
def memBehind (s : State) (p : Port) : Reg → Option (Fin 16 × Nat)
  | .tcor k => some (15, k.val)
  | .entry b i => some (bankIx b, i.val)
  | .panWindow i =>
    let w := (prt s p).panWin
    if h : fld w 0 3 < 6 then some (panM ⟨fld w 0 3, h⟩, 16384 * fld w 3 2 + i.val) else none
  | _ => none

/-- One word read by a port through REG_READ. The flag tells that a protected memory lost it (R472). -/
def readAddr (p : Port) (a : Nat) (s : State) : (Word × Bool) × State :=
  match Reg.ofAddr a with
  | none => ((0, false), s)
  | some r =>
    match memBehind s p r with
    | some (m, i) => if underTest s m then ((0, true), s) else memRead .host m i s
    | none =>
      if isHigher r then ((lookupD 0 a (prt s p).latch, false), s)
      else ((regWord s p r, false), fillLatch p r s)

end Sys2Proof.Machine
end

