-- ==== Sys2Proof/Machine/RegWrite.lean ====
section
/-! DEFINITION. What a judged write does to each register (the register tables of all chapters), the write stages
(06_registers_taps R182), REG_READ and REG_WRITE (05_packet_protocol R165, R166, R169 to R174), host access to external
memory (19 R552, R553). -/

namespace Sys2Proof.Machine

/-! ### The effect of one write -/

/-- PORTx.CLR (R140). -/
def portErrClear (x : Port) (s : State) : State :=
  modPort x (fun q => { q with frag := 0, tail := 0, hdrBad := 0, aborted := 0, overrun := 0, discard := 0 }) s
def portDaisyClear (x : Port) (s : State) : State :=
  modPort x (fun q => { q with accepted := 0, lenRej := 0, crcRej := 0, lastFrame := 0, timedOut := false, refused := false }) s

/-- IPENDk (R415): a bit that goes from 0 to 1 raises its source, a bit written 0 is cleared. -/
def ipendWrite (k : Fin 5) (v : Word) (s : State) : State :=
  let mine := sources.filter fun n => n.val / 20 == k.val
  let s := foldSt (mine.filter fun n => !bit v (n.val % 20)) (fun n s => setReleased n false (setPend n false s)) s
  foldSt (mine.filter fun n => bit v (n.val % 20) && !isPend s n) raise s

/-- INTs.CFG (R425). -/
def intCfgWrite (n : Fin 96) (v : Word) (s : State) : State :=
  let old := intRoute s n
  deliver (syncMods (reroute n old (cfgSet (.intCfg n) v s)))

/-- The retained fields of a register, and a write's new word. -/
def newWord (s : State) (r : Reg) (v : Word) : Word := mergeW r (cfgGet s r) v

/-- CHn.CFG (R307, R350): a change of MODE 8 takes the odd channel of the pair along. -/
def modeWrite (n : Chan) (v : Word) (s : State) : State :=
  let m := fld v 0 4
  if m = chMode s n then putReg (.ch n .cfg) (BitVec.ofNat 20 m) s
  else
    let k := pairOf n
    let mk := modesAfter s n m k
    let s := if n.val % 2 = 0 ∧ mk ≠ chMode s k then putReg (.ch k .cfg) (BitVec.ofNat 20 mk) s else s
    putReg (.ch n .cfg) (BitVec.ofNat 20 m) s

/-- GRPg.CTL (R400). -/
def grpCtlWrite (g : Grp) (v : Word) (s : State) : State :=
  modLink g (fun l => { l with evt := l.evt &&& ~~~(v.extractLsb' 1 8) }) (whenSt (bit v 0) (grpClrCnt g) s)

/-- A bank's table or its configuration has changed: VALID clears (R246). -/
def clearValid (b : Fin 2) (s : State) : State := modBank b (fun k => { k with valid := false }) s

def trkCmdWrite (v : Word) (s : State) : State :=
  let s := whenSt (bit v 0) trkCmdReseek s
  let s := whenSt (bit v 1) (trkCmdPhase false) s
  let s := whenSt (bit v 2) (trkCmdPhase true) s
  whenSt (bit v 4) trkCmdClrCnt (whenSt (bit v 3) trkCmdClrLearn s)

def seqClear (s : State) : State :=
  modSeq (fun q => { q with late := 0, skew := 0, dropped := 0, deferred := 0, withdraw := 0, skMax := 0 }) s

def smpClear (s : State) : State :=
  modSmp (fun m => { m with
    busy := Vector.replicate 6 0, lost := Vector.replicate 6 0, skipped := Vector.replicate 6 0
    overwritten := Vector.replicate 6 0 }) s

def panCmdWrite (v : Word) (s : State) : State :=
  let g := fld v 0 3
  let p := panCmdPan v
  let s := whenSt (bit v 7) (panCmdEv true g p) s
  let s := whenSt (bit v 8) (panCmdEv false g p) s
  whenSt (bit v 9) (foldSt (panCmdGrps s g) fun g => panRelease g p) s

def caskCtlWrite (v : Word) (s : State) : State :=
  let s := whenSt (bit v 0) (modCask fun k => { k with lossAdc := 0, lossDi := 0, lossOther := 0, overwrite := 0 }) s
  whenSt (bit v 1) (fun s => autoKick (modCask (fun k => { k with autoStop := false, tries := 0 }) s)) s

def mmpClrWrite (v : Word) (s : State) : State :=
  let s := whenSt (bit v 0) (modMmp fun m => { m with errors := 0, pollTo := 0 }) s
  whenSt (bit v 1) (modMmp fun m => { m with err0 := 0, err1 := 0, err2 := 0, lastKind := 0 }) s

/-- MI_TEST (R479). -/
def miTestWrite (v : Word) (s : State) : State :=
  if bit v 16 then miTestStart (v.extractLsb' 0 16) s else modMi (fun x => { x with testSel := v.extractLsb' 0 16 }) s

/-- The effect of an accepted write of `v`, by a port, on one register. -/
def regEffect (p : Port) (r : Reg) (v : Word) (s : State) : State :=
  match r with
  | .resetCause => whenSt (bit v 19) (modAon fun a => { a with resetCause := 0 }) s
  | .wakeCause => whenSt (bit v 19) (modAon fun a => { a with wakeCause := 0 }) s
  | .tbLock => whenSt (bit v 19) (modLinks fun l => { l with stepped := false }) s
  | .portPrio _ => deliver (cfgSet r v s)
  | .portClr x => whenSt (bit v 1) (portDaisyClear x) (whenSt (bit v 0) (portErrClear x) s)
  | .intCfg n => intCfgWrite n v s
  | .ipend k => ipendWrite k v s
  | .ien _ => deliver (cfgSet r v s)
  | .modCfg _ => deliver (syncMods (cfgSet r v s))
  | .irqBell => whenSt (bit v 0) (raise (match p with | .a => 91 | .b => 92)) s
  | .bellAB => modIrq (fun x => { x with bellAB := v }) s
  | .bellBA => modIrq (fun x => { x with bellBA := v }) s
  | .angIn | .wheel | .ztooth | .trkCfg => trkRestart (putReg r v s)
  | .trkCmd => trkCmdWrite v s
  | .tcor k => memPut 15 k.val v s
  | .bankCfg b | .bankPeriod b => clearValid b (cfgSet r v s)
  | .seqClr => whenSt (bit v 0) seqClear s
  | .entry b i => clearValid b (memPut (bankIx b) i.val v s)
  | .ch n .cfg => modeWrite n v s
  | .ch n .dctl => ctlWrite n v 0 s
  | .ch n .actl => ctlWrite n 0 v s
  | .grp g .ctl => grpCtlWrite g v s
  | .smpCmd => whenSt (bit v 0) smpFire s
  | .smpClr => whenSt (bit v 0) smpClear s
  | .panCmd => panCmdWrite v s
  | .panWin => modPort p (fun x => { x with panWin := v }) s
  | .caskCtl => caskCtlWrite v s
  | .mmpHacc => modPort p (fun x => { x with mmpHacc := v }) s
  | .mmpHaddr => modPort p (fun x => { x with mmpHaddr := v }) s
  | .mmpClr => mmpClrWrite v s
  | .secCtl => whenSt (bit v 0) (modSec fun x => { x with refused := 0, attests := 0 }) s
  | .miTest => miTestWrite v s
  | .miClr => whenSt (bit v 0) miClearCounts s
  | .meminj k => (match k with
    | 0 => modMi (fun x => { x with flip := v.extractLsb' 0 17 }) s
    | 1 => meminjWrite v s
    | 2 => s)
  | .injCtl => whenSt (bit v 0) injCancel s
  | .govClr => whenSt (bit v 0) (modGov fun g => { g with cntDef := 0, cntStag := 0, cntDrop := 0, cntOver := 0 }) s
  | .mmpHdata _ => s
  | r => if r.rw = 0 then s else putReg r (newWord s r v) s

/-! ### Write stages (R182) -/

/-- Write a word to a register, as judged (R18, R182): a higher word of a value of several words goes into the port's stage; a
write to the lowest word takes effect, and the stage holds the value in force again. Every register of one word is written
at once (log entry 19). -/
def regWriteBy (p : Port) (r : Reg) (v : Word) (s : State) : State :=
  if isHigher r then modPort p (fun x => { x with stage := insertKey r.addr v true x.stage }) s
  else
    let hs := snapHigher r
    let s := if hs.isEmpty then s else
      modPort p (fun x => { x with stage := x.stage.filter fun e => !hs.any fun h => h.addr == e.1 }) s
    if r.wmask = 0 then s else regEffect p r (maskW r v) s

/-- Write a word to an address, as judged (R18, R19). -/
def writeAddr (p : Port) (a : Nat) (v : Word) (s : State) : State :=
  match Reg.ofAddr a with
  | some r => regWriteBy p r v s
  | none => s

/-! ### Host data window (R552, R553) -/

/-- Index of a host data address. -/
def hdataIx (a : Nat) : Option Nat := if 0x8600 ≤ a ∧ a < 0x8800 then some (a - 0x8600) else none

def hostWin (s : State) (p : Port) : Fin 4 := ⟨fld (prt s p).mmpHacc 0 2, by unfold fld; omega⟩
def hostWord (s : State) (p : Port) (i : Nat) : Nat := (prt s p).mmpHaddr.toNat + i

/-- A host data address lies in its window (check 5), and the window takes writes where one is meant (R544, R546). -/
def hdataOk (s : State) (p : Port) (write : Bool) (i : Nat) : Bool :=
  let w := hostWin s p
  inWindowW s w (hostWord s p i) 1 && (!write || cfgBit s (.mmpWin w 0) 7)

/-- Judge one address–value pair of REG_WRITE (R166): checks 3, 5, 6, 7. -/
def judgePair (op : Op) (p : Port) (x : Word × Word) (s : State) : Option Status :=
  if fld x.1 16 4 ≠ 0 then some stRange
  else
    match judgeUnit op p [(x.1.toNat, x.2)] s with
    | some st =>
      if st = stState then some st
      else (match hdataIx x.1.toNat with | some i => if hdataOk s p true i then some st else some stRange | none => some st)
    | none =>
      match hdataIx x.1.toNat with
      | some i => if hdataOk s p true i then none else some stRange
      | none => none

/-- The longest run of ascending consecutive data addresses at the head of pairs that pass their checks (R553). -/
def headRun (op : Op) (p : Port) (s : State) : List (Word × Word) → Nat → List Word
  | [], _ => []
  | x :: l, i =>
    if hdataIx x.1.toNat = some i ∧ judgePair op p x s = none then x.2 :: headRun op p s l (i + 1) else []

/-- Issue the memory master port request of a run. -/
def issueRun (write : Bool) (r : RegRun) (s : State) : State :=
  mmpSubmit (mkReq .host r.win write r.word r.data.length (if write then wordsToBytes r.data else []) none) s

/-! ### REG_WRITE -/

/-- The reply of a split command whose units are address–value pairs (R170, R171). -/
def pairReply (done : Nat) (fail : Option (Status × Word)) : Status × List Word :=
  match fail with
  | none => (stOk, splitReply done stOk 0 0 false)
  | some (st, a) => (if done = 0 then st else stPartial, splitReply done st a 0 false)

/-- Units of an unstaged REG_WRITE, each checked and then done (R170). A run of data addresses waits for the port. -/
def writeUnits (p : Port) (cmd : Option Deferred) : List (Word × Word) → Nat → State → (Option (Status × List Word)) × State
  | [], n, s => (some (pairReply n none), s)
  | x :: l, n, s =>
    match judgePair Op.regWrite p x s with
    | some st => (some (pairReply n (some (st, x.1))), s)
    | none =>
      match hdataIx x.1.toNat with
      | none => writeUnits p cmd l (n + 1) (writeAddr p x.1.toNat x.2 s)
      | some i =>
        let ws := headRun Op.regWrite p s (x :: l) i
        let r : RegRun := { ref := x.1.toNat, win := hostWin s p, word := hostWord s p i, data := ws }
        let j : RegJob :=
          { cmd := cmd, port := p, write := true, staged := false, words := [], runs := [r], pairs := l.drop (ws.length - 1)
            done := n, bad := false }
        (none, issueRun true r (setRegJob (some j) s))

/-- Staging phase (R173): every unit is judged as the earlier ones would leave the registers. -/
def judgePairs (op : Op) (p : Port) : List (Word × Word) → State → Option (Status × Word)
  | [], _ => none
  | x :: l, t =>
    match judgePair op p x t with
    | some st => some (st, x.1)
    | none =>
      judgePairs op p l (match targetOf x.1.toNat with
        | some .mmpHacc => modPort p (fun y => { y with mmpHacc := maskW .mmpHacc x.2 }) t
        | some .mmpHaddr => modPort p (fun y => { y with mmpHaddr := x.2 }) t
        | some r => afterWrite r (maskW r x.2) t
        | none => t)

/-- Commit phase (R173, R553): register units in payload order in one clock; runs of data addresses in payload order. -/
def commitPairs (p : Port) : List (Word × Word) → List RegRun → State → List RegRun × State
  | [], runs, s => (runs, s)
  | x :: l, runs, s =>
    match hdataIx x.1.toNat with
    | none => commitPairs p l runs (writeAddr p x.1.toNat x.2 s)
    | some i =>
      let w := hostWord s p i
      let new : RegRun := { ref := x.1.toNat, win := hostWin s p, word := w, data := [x.2] }
      let runs := match runs.getLast? with
        | some r =>
          if r.ref + r.data.length = x.1.toNat ∧ r.word + r.data.length = w ∧ r.win = new.win then
            runs.dropLast ++ [{ r with data := r.data ++ [x.2] }]
          else runs ++ [new]
        | none => [new]
      commitPairs p l runs s

/-- Execution of REG_WRITE; none while a run waits for the memory master port. -/
def regWriteGo (p : Port) (cmd : Option Deferred) (stage : Bool) (l : List (Word × Word)) (s : State) :
    (Option (Status × List Word)) × State :=
  if stage then
    match judgePairs Op.regWrite p l s with
    | some (st, a) => (some (st, splitReply 0 st a 0 false), s)
    | none =>
      let (runs, s) := commitPairs p l [] s
      let regs := l.length - (runs.map fun r => r.data.length).foldl (· + ·) 0
      match runs with
      | [] => (some (pairReply l.length none), s)
      | r :: _ =>
        let j : RegJob :=
          { cmd := cmd, port := p, write := true, staged := true, words := [], runs := runs, pairs := [], done := regs, bad := false }
        (none, issueRun true r (setRegJob (some j) s))
  else writeUnits p cmd l 0 s

def ansOf (r : Option (Status × List Word) × State) : Ans × State :=
  match r.1 with
  | some (st, ws) => (.reply st ws, r.2)
  | none => (.later, r.2)

def regWriteH : Handler where
  shape := fun m => m.words.length % 2 == 1
  range := stageOk
  perUnit := true
  run := fun m s => ansOf (regWriteGo m.port (some (defOf Op.regWrite m)) (staged m) (pairsOf (m.words.drop 1)) s)

/-- REG_WRITE (R166). -/
def execRegWrite (m : Msg) (s : State) : Res := interp Op.regWrite regWriteH m s

/-! ### REG_READ -/

/-- Runs of data addresses in a list of addresses (R552), with their places in the reply. -/
def readRuns (s : State) (p : Port) : List Word → Nat → List RegRun → List RegRun
  | [], _, runs => runs
  | a :: l, k, runs =>
    match hdataIx a.toNat with
    | none => readRuns s p l (k + 1) runs
    | some i =>
      let w := hostWord s p i
      let new : RegRun := { ref := k, win := hostWin s p, word := w, data := [0] }
      let runs := match runs.getLast? with
        | some r =>
          if r.ref + r.data.length = k ∧ r.word + r.data.length = w then runs.dropLast ++ [{ r with data := r.data ++ [0] }]
          else runs ++ [new]
        | none => [new]
      readRuns s p l (k + 1) runs

/-- Read addresses in payload order (R165, R181). -/
def readAll (p : Port) (l : List Word) (s : State) : (List Word × Bool) × State :=
  l.foldl (fun r a =>
    let x := readAddr p a.toNat r.2
    ((r.1.1 ++ [x.1.1], r.1.2 || x.1.2), x.2)) (([], false), s)

def regReadGo (p : Port) (cmd : Option Deferred) (l : List Word) (s : State) : (Option (Status × List Word)) × State :=
  let ((ws, bad), s) := readAll p l s
  match readRuns s p l 0 [] with
  | [] => (some (if bad then stFault else stOk, ws), s)
  | r :: runs =>
    let j : RegJob :=
      { cmd := cmd, port := p, write := false, staged := false, words := ws, runs := r :: runs, pairs := [], done := 0, bad := bad }
    (none, issueRun false r (setRegJob (some j) s))

def regReadH : Handler where
  range := fun s m => m.words.all fun a =>
    fld a 16 4 == 0 && (match hdataIx a.toNat with | some i => hdataOk s m.port false i | none => true)
  run := fun m s => ansOf (regReadGo m.port (some (defOf Op.regRead m)) m.words s)

/-- REG_READ (R165). -/
def execRegRead (m : Msg) (s : State) : Res := interp Op.regRead regReadH m s

/-! ### A run ends -/

/-- Answer the packet of a job. -/
def jobReply (j : RegJob) (r : Status × List Word) (s : State) : State :=
  let s := setRegJob none s
  match j.cmd with
  | some d => queueReply d.port r.1 d.tag d.wake r.2 s
  | none => s

/-- Put words into a list from a place on. -/
def putAt (k : Nat) (ws l : List Word) : List Word := l.take k ++ ws ++ l.drop (k + ws.length)

/-- A host request has ended (R550, R552, R553): `got` are the words read, or how many pairs lie before the failed chunk. -/
def regRunEnd (ok : Bool) (got : List Word) (n : Nat) (s : State) : State :=
  match s.regJob with
  | none => s
  | some j =>
    match j.runs with
    | [] => s
    | r :: rest =>
      if !j.write then
        let j := { j with words := putAt r.ref got j.words, runs := rest }
        if !ok then jobReply j (stFault, j.words) s
        else match rest with
          | [] => jobReply j (if j.bad then stFault else stOk, j.words) s
          | r :: _ => issueRun false r (setRegJob (some j) s)
      else if !ok then
        let at_ : Word := BitVec.ofNat 20 (r.ref + n)
        if j.staged then jobReply j (stFault, splitReply (j.done + n) stFault at_ 0 false) s
        else jobReply j (pairReply (j.done + n) (some (stFault, at_))) s
      else
        let j := { j with done := j.done + r.data.length, runs := rest }
        match rest with
        | r :: _ => issueRun true r (setRegJob (some j) s)
        | [] =>
          if j.staged then jobReply j (pairReply j.done none) s
          else
            match writeUnits j.port j.cmd j.pairs j.done (setRegJob none s) with
            | (some x, s) => jobReply j x s
            | (none, s) => s

end Sys2Proof.Machine
end

