-- ==== Sys2Proof/Machine/RegCmds.lean ====
section
/-! DEFINITION. The commands that are single register accesses (the register tables of all chapters): each is one unit of a
REG_WRITE, or one address of a REG_READ, from a port, judged as such and unanswered (log entry 14). -/

namespace Sys2Proof.Machine

/-- A port can bring a register access now: packet mode, the interpreter free, the state permitting it (R94, R153). -/
def rowOpen (op : Op) (p : Port) (s : State) : Bool :=
  portOpen s && !(prt s p).daisy && !interpBusy s && opPermitted op s.pw.dev

/-- One unit of a REG_WRITE to a register (R166). -/
def regRow (p : Port) (r : Reg) (v : Word) (s : State) : Res :=
  if rowOpen Op.regWrite p s then .next (writeUnits p none [(BitVec.ofNat 20 r.addr, v)] 0 (cfgWait s)).2 else .next s

/-- RESET_CAUSE.CLEAR (R106). -/
def execResetCauseClear (p : Port) (s : State) : Res := regRow p .resetCause 0x80000 s

/-- WAKE_CAUSE.CLEAR (R107). -/
def execWakeCauseClear (p : Port) (s : State) : Res := regRow p .wakeCause 0x80000 s

/-- PORTx.CLR.ERR (R140). -/
def execPortErrClear (p x : Port) (s : State) : Res := regRow p (.portClr x) 1 s

/-- PORTx.CLR.DAISY (R140). -/
def execPortDaisyClear (p x : Port) (s : State) : Res := regRow p (.portClr x) 2 s

/-- TB_LOCK.CLEAR (R200). -/
def execTbLockClear (p : Port) (s : State) : Res := regRow p .tbLock 0x80000 s

/-- The register that TRACKER_CONFIG_WRITE names. -/
def trkReg : TrkReg → Reg
  | .angIn => .angIn | .wheel => .wheel | .ztooth => .ztooth | .angOfs => .angOfs | .angRofs => .angRofs
  | .trkCfg => .trkCfg | .spdMin => .spdMin | .spdMax => .spdMax | .tcor k => .tcor k

/-- TRACKER_CONFIG_WRITE (R221, R232, R237). -/
def execTrackerConfigWrite (p : Port) (r : TrkReg) (v : Word) (s : State) : Res := regRow p (trkReg r) v s

/-- TRK_CMD.RESEEK (R234). -/
def execTrkReseek (p : Port) (s : State) : Res := regRow p .trkCmd 1 s

/-- TRK_CMD.PHASE0 (R234). -/
def execTrkPhase0 (p : Port) (s : State) : Res := regRow p .trkCmd 2 s

/-- TRK_CMD.PHASE1 (R234). -/
def execTrkPhase1 (p : Port) (s : State) : Res := regRow p .trkCmd 4 s

/-- TRK_CMD.CLR_LEARN (R234). -/
def execTrkClrLearn (p : Port) (s : State) : Res := regRow p .trkCmd 8 s

/-- TRK_CMD.CLR_CNT (R234). -/
def execTrkClrCnt (p : Port) (s : State) : Res := regRow p .trkCmd 16 s

/-- SEQ_CLR.CNT (R271). -/
def execSeqClrCnt (p : Port) (s : State) : Res := regRow p .seqClr 1 s

/-- SMP_CMD.FIRE (R279). -/
def execSmpFire (p : Port) (s : State) : Res := regRow p .smpCmd 1 s

/-- SMP_CLR.CNT (R301). -/
def execSmpClrCnt (p : Port) (s : State) : Res := regRow p .smpClr 1 s

/-- The word of a PAN_CMD write (R304). -/
def panCmdWord (g : BitVec 3) (q : BitVec 4) (op : Nat) : Word := pack [(0, g.toNat), (3, q.toNat), (op, 1)]

/-- PAN_CMD.OPEN (R304). -/
def execPanCmdOpen (p : Port) (g : BitVec 3) (q : BitVec 4) (s : State) : Res := regRow p .panCmd (panCmdWord g q 7) s

/-- PAN_CMD.CLOSE (R304). -/
def execPanCmdClose (p : Port) (g : BitVec 3) (q : BitVec 4) (s : State) : Res := regRow p .panCmd (panCmdWord g q 8) s

/-- PAN_CMD.RELEASE (R304). -/
def execPanCmdRelease (p : Port) (g : BitVec 3) (q : BitVec 4) (s : State) : Res := regRow p .panCmd (panCmdWord g q 9) s

/-- A write of CHn.CFG (R307, R308, R350). -/
def execModeChange (p : Port) (n : Chan) (v : Word) (s : State) : Res := regRow p (.ch n .cfg) v s

/-- CHn.DCTL.CLR_LATCH (R329). -/
def execDctlClrLatch (p : Port) (n : Chan) (s : State) : Res := regRow p (.ch n .dctl) 1 s

/-- CHn.DCTL.CLR_CNT (R320). -/
def execDctlClrCnt (p : Port) (n : Chan) (s : State) : Res := regRow p (.ch n .dctl) 2 s

/-- CHn.DCTL.CLR_EVT (R344). -/
def execDctlClrEvt (p : Port) (n : Chan) (mask : BitVec 11) (s : State) : Res :=
  regRow p (.ch n .dctl) (pack [(2, mask.toNat)]) s

/-- CHn.ACTL.CLR_EVT (R371). -/
def execActlClrEvt (p : Port) (n : Chan) (mask : BitVec 5) (s : State) : Res := regRow p (.ch n .actl) (mask.setWidth 20) s

/-- GRPg.CTL.CLR_CNT (R400). -/
def execGrpClrCnt (p : Port) (g : Grp) (s : State) : Res := regRow p (.grp g .ctl) 1 s

/-- GRPg.CTL.CLR_EVT (R400). -/
def execGrpClrEvt (p : Port) (g : Grp) (mask : BitVec 8) (s : State) : Res := regRow p (.grp g .ctl) (pack [(1, mask.toNat)]) s

/-- GOV_CLR.CNT (R413). -/
def execGovClrCnt (p : Port) (s : State) : Res := regRow p .govClr 1 s

/-- A write of IPENDk (R415). -/
def execIpendWrite (p : Port) (k : Fin 5) (v : Word) (s : State) : Res := regRow p (.ipend k) v s

/-- A write of IENk (R416). -/
def execIenWrite (p : Port) (k : Fin 5) (v : Word) (s : State) : Res := regRow p (.ien k) v s

/-- A write of INTs.CFG (R425). -/
def execIntCfgWrite (p : Port) (n : Fin 96) (v : Word) (s : State) : Res := regRow p (.intCfg n) v s

/-- A write of PORTx.PRIO (R419). -/
def execPortPrioWrite (p x : Port) (v : Word) (s : State) : Res := regRow p (.portPrio x) v s

/-- A write of MODm.CFG (R421, R423). -/
def execModCfgWrite (p : Port) (m : Fin 16) (v : Word) (s : State) : Res := regRow p (.modCfg m) v s

/-- IRQ_BELL.RING (R434). -/
def execIrqBellRing (p : Port) (s : State) : Res := regRow p .irqBell 1 s

/-- MI_TEST.RUN (R479). -/
def execMiTestRun (p : Port) (sel : BitVec 16) (s : State) : Res := regRow p .miTest (pack [(0, sel.toNat), (16, 1)]) s

/-- MI_CLR.CNT (R481). -/
def execMiClrCnt (p : Port) (s : State) : Res := regRow p .miClr 1 s

/-- MEMINJ1.ARM (R480). -/
def execMeminjArm (p : Port) (mem : BitVec 4) (half : Bool) (s : State) : Res :=
  regRow p (.meminj 1) (pack [(0, mem.toNat), (4, b2n half), (5, 1)]) s

/-- SEC_CTL.CLR_CNT (R508). -/
def execSecClrCnt (p : Port) (s : State) : Res := regRow p .secCtl 1 s

/-- CASK_CTL.CLR_LOSS (R536). -/
def execCaskClrLoss (p : Port) (s : State) : Res := regRow p .caskCtl 1 s

/-- CASK_CTL.AUTO_RESUME (R528). -/
def execCaskAutoResume (p : Port) (s : State) : Res := regRow p .caskCtl 2 s

/-- MMP_CLR.CNT (R554). -/
def execMmpClrCnt (p : Port) (s : State) : Res := regRow p .mmpClr 1 s

/-- MMP_CLR.ERR (R554). -/
def execMmpClrErr (p : Port) (s : State) : Res := regRow p .mmpClr 2 s

/-- INJ_CTL.CANCEL (R561). -/
def execInjCancel (p : Port) (s : State) : Res := regRow p .injCtl 1 s

/-- A read of host data word `i` (R552): the request to the memory master port, unless the window refuses it at check 5. -/
def execMmpHostRead (p : Port) (i : Fin 512) (s : State) : Res :=
  if rowOpen Op.regRead p s ∧ hdataOk s p false i.val then
    .next (regReadGo p none [BitVec.ofNat 20 (Reg.addr (.mmpHdata i))] (cfgWait s)).2
  else .next s

/-- A write of host data word `i` (R553). -/
def execMmpHostWrite (p : Port) (i : Fin 512) (v : Word) (s : State) : Res := regRow p (.mmpHdata i) v s

/-- SNAPSHOT_READ (R179): a read of one address; a lowest word fills the port's latch. -/
def execSnapshotRead (p : Port) (a : BitVec 16) (s : State) : Res :=
  if rowOpen Op.regRead p s then .next (readAddr p a.toNat (cfgWait s)).2 else .next s

/-- STAGED_WORD_WRITE (R182): a write to one address; a higher word waits in the port's stage. -/
def execStagedWordWrite (p : Port) (a : BitVec 16) (v : Word) (s : State) : Res :=
  if rowOpen Op.regWrite p s then .next (writeUnits p none [(a.setWidth 20, v)] 0 (cfgWait s)).2 else .next s

end Sys2Proof.Machine
end

