-- ==== Sys2Proof/Machine/Trellis.lean ====
section
/-! DEFINITION. The trellis commands (08_trellis_sequencer R246 to R255): TRELLIS_LOAD, TRELLIS_ARM with its validation,
TRELLIS_READ. -/

namespace Sys2Proof.Machine

def bankOf (w : Word) : Fin 2 := if bit w 0 then 1 else 0

/-! ### TRELLIS_LOAD -/

def setCount (b : Fin 2) (n : Nat) (s : State) : State :=
  cfgSet (.bankCfg b) ((cfgGet s (.bankCfg b) &&& 0x3800#20) ||| BitVec.ofNat 20 n) s

/-- Lines of a bank that hold a listed word. -/
def listedLines (s : State) (b : Fin 2) : List Nat := ((s.mems[bankIx b]).map fun e => e.1 / 8).eraseDups

/-- A bank's words are stored with line checks from now on (R250, R474). -/
def toLineCheck (b : Fin 2) (s : State) : State :=
  if (bnk s b).lineChk then s
  else
    let m := bankIx b
    let s := foldSt ((s.mems[m]).map (·.1)) (fun a s =>
      let r := memRead .host m a s
      memSet m a (plainCell r.1.1) r.2) s
    let s := modBank b (fun k => { k with lineChk := true }) s
    let s := modMi (fun x => { x with lineCrc := x.lineCrc.filter fun e => e.1 / 384 != b.val }) s
    foldSt (listedLines s b) (fun j s => setLineCrc b j (crc16 (lineWords s m j)) s) s

/-- A bank's words are encoded with the half-word code again; a line that fails its check is zeroed and reported (R474). -/
def toCode (b : Fin 2) (s : State) : State :=
  if !(bnk s b).lineChk then s
  else
    let m := bankIx b
    let s := foldSt (List.range 384) (fun j s =>
      if crc16 (lineWords s m j) = lineCrcOf s b j then s
      else report 7 4 b.val (memClearRange m (8 * j) 8 s)) s
    let s := modBank b (fun k => { k with lineChk := false }) s
    foldSt (s.mems[m]) (fun e s => memSet m e.1 (encWord (cellData e.2)) s) s

/-- CRC-16 over the entries in use (R249, R253). -/
def bankCrc (s : State) (b : Fin 2) : BitVec 16 := crc16 (bankWords s b (bankCount s b))

def trellisLoadGo (m : Msg) (s : State) : Ans × State :=
  let w := pword m 0
  let b := bankOf w
  let first := fld w 1 10
  let ws := m.words.drop 1
  let v1 := portVintage s m.port == 1
  let s := modBank b (fun k => { k with loaded := false, valid := false }) (setCount b 0 s)
  let s := if v1 then s else toCode b s
  let s := memPuts (bankIx b) (3 * first) ws s
  let s := if bit w 11 then
      let s := if v1 then toLineCheck b (cfgSet (.bankCfg b) (setBit (cfgGet s (.bankCfg b)) 13 true) s) else s
      let s := setCount b (first + ws.length / 3) s
      modBank b (fun k => { k with loaded := true, check := bankCrc s b }) s
    else s
  (.reply stOk [BitVec.ofNat 20 (bankCount s b)], s)

/-- A load cut short leaves its bank not loaded, with entry count 0 (R148); an armed bank is out of its reach (R246). -/
def trellisBroken (m : Msg) (s : State) : State :=
  match m.words with
  | w :: _ =>
    let b := bankOf w
    if bankArmed s b then s else modBank b (fun k => { k with loaded := false, valid := false }) (setCount b 0 s)
  | [] => s

def trellisLoadH : Handler where
  stateOk := fun s m => !replaying s && (m.words.isEmpty || !bankArmed s (bankOf (pword m 0)))
  shape := fun m => m.words.length % 3 == 1
  range := fun _ m => fld (pword m 0) 12 8 == 0 && fld (pword m 0) 1 10 + m.words.length / 3 ≤ 1024
  free := fun s m => !tapHeld s m.port 0
  broken := trellisBroken
  run := trellisLoadGo

/-- TRELLIS_LOAD (R248 to R250). -/
def execTrellisLoad (m : Msg) (s : State) : Res := interp Op.trellisLoad trellisLoadH m s

/-! ### Arm validation (R253) -/

/-- Check 3 of one entry. -/
def actionOk (timeBank : Bool) (e : Entry) : Bool :=
  let a := entAction e.2.1
  a ≤ aDiLatch && !(timeBank && a == aPulseA)

/-- Check 4 of one entry (R238, R239). -/
def targetOk (e : Entry) : Bool :=
  let a := entAction e.2.1
  let t := entTarget e.2.1
  if a = aNop ∨ a = aMark then t == 0
  else if a = aSample ∨ a = aPanOpen ∨ a = aPanClose then (48 ≤ t && t ≤ 53) || t == 63
  else t ≤ 53 || t == 63

/-- Check 5 of one entry (R239, R289, R354). -/
def argOk (e : Entry) : Bool :=
  let a := entAction e.2.1
  let x := entArgA e.2.1
  let y := e.2.2
  if a = aPulseT then x ≤ 2 && y != 0
  else if a = aPulseA then x == 0 && y != e.1
  else if a = aAoSet then x == 0 && y.toNat ≤ 0xEA600
  else if a = aSample then x % 256 != 0 && x < 256 && y == 0
  else if a = aPanOpen then x ≤ 15 && fld y 0 16 != 0 && fld y 17 3 == 0
  else if a = aPanClose then x ≤ 15 && y == 0
  else if a = aMark then x ≤ 7 && y == 0
  else x == 0 && y == 0

/-- Check 6 of one entry: as R270, and every masked SAMPLE channel in a permitted mode. -/
def modesOk (s : State) (e : Entry) : Bool :=
  entryFits s (chMode s) e &&
    (entAction e.2.1 != aSample || (targetGrps (entTarget e.2.1)).all fun g =>
      (maskLidxs (entArgA e.2.1)).all fun l =>
        let n := chanOf g l
        actsOn aSample (chMode s n) && !(chMode s n == mAiDiff && n.val % 2 == 1))

/-- First index whose entry fails a test. -/
def firstBad (l : List Entry) (ok : Entry → Bool) : Option Nat := l.findIdx? fun e => !ok e

/-- First entry whose angle descends (check 2). -/
def firstDescent (l : List Entry) : Option Nat :=
  ((l.zip (l.drop 1)).findIdx? fun p => decide (p.2.1 < p.1.1)).map (· + 1)

/-- An entry counts for a group (R254). -/
def countsFor (g : Grp) (e : Entry) : Bool :=
  let a := entAction e.2.1
  a != aNop && a != aMark && (targetGrps (entTarget e.2.1)).contains g

/-- More than eight angles, of one cycle, within a closed span that starts at one of them: the place of that one (R254). -/
def crowded (cyc span : Nat) (l : List (Nat × Nat)) : Option Nat :=
  (l.find? fun x => decide (8 < (l.filter fun y => decide (cyc ≤ span) || decide ((y.2 + cyc - x.2) % cyc ≤ span)).length)).map (·.1)

/-- More than 64 slots held at the start of one of the holds: the place of that one (R254). Holds are (index, start,
length), closed at both ends. -/
def slotsOver (cyc : Nat) (l : List (Nat × Nat × Nat)) : Option Nat :=
  (l.find? fun x =>
    decide (64 < (l.filter fun y => decide (cyc ≤ y.2.2) || decide ((x.2.1 + cyc - y.2.1) % cyc ≤ y.2.2)).length)).map (·.1)

/-- Check 8: the first group, and the entry of it, where the links or the slots do not suffice (R254). -/
def capacity (s : State) (b : Fin 2) (l : List Entry) : Option (Nat × Grp) :=
  let cyc := bankCycle s b
  let wmax := cfgFld s .spdMax 0 13
  let wmin := cfgFld s .spdMin 0 13
  let span := omegaCeil s b wmax 1000
  let lead := omegaCeil s b wmax (1000 * (cfgFld s .seqCfg 0 8 + 1))
  let ix := (List.range l.length).zip l
  groups.findSome? fun g =>
    let mine := ix.filter fun x => countsFor g x.2
    let r := match crowded cyc span (mine.map fun x => (x.1, x.2.1.toNat)) with
      | some e => some e
      | none => slotsOver cyc (mine.map fun (x : Nat × Entry) =>
        let w0 := x.2.1.toNat
        let tail := if entAction x.2.2.1 = aPulseA then (x.2.2.2.toNat + cyc - w0) % cyc
          else if entAction x.2.2.1 = aPulseT then omegaCeil s b wmin (pulseNs x.2.2.1 x.2.2.2) else 0
        (x.1, (w0 + cyc - lead % cyc) % cyc, lead + tail))
    r.map fun e => (e, g)

/-- Check 7. -/
def baseBad (s : State) (b : Fin 2) (l : List Entry) : Option Nat :=
  if bankTime s b then
    let p := (cfgGet s (.bankPeriod b)).toNat
    if p < 10 then some 0 else firstBad l fun e => decide (e.1.toNat < p)
  else if cfgBit s (.bankCfg b) 12 = cfgBit s .wheel 17 then none else some 0

/-- Check 1. -/
def bankLoaded (s : State) (b : Fin 2) : Bool :=
  (bnk s b).loaded && 1 ≤ bankCount s b && bankCount s b ≤ 1024

/-- The result of a validation: reason, entry, group. -/
structure ArmRes where
  reason : Nat
  entry : Nat := 0
  grp : Nat := 7

def armWord (r : ArmRes) : Word := pack [(0, r.reason), (4, r.entry), (14, r.grp)]

/-- Validation of a bank with its worst case and its entries (R253, R254, R409). -/
def validate (s : State) (b : Fin 2) : ArmRes × Nat × List Entry :=
  let l := bankEntries s b
  let (w, loads) := bankWorst s b l
  let r : ArmRes :=
    if !bankLoaded s b then { reason := 1 }
    else match firstDescent l with
    | some e => { reason := 2, entry := e }
    | none => match firstBad l (actionOk (bankTime s b)) with
    | some e => { reason := 3, entry := e }
    | none => match firstBad l targetOk with
    | some e => { reason := 4, entry := e }
    | none => match firstBad l argOk with
    | some e => { reason := 5, entry := e }
    | none => match firstBad l (modesOk s) with
    | some e => { reason := 6, entry := e }
    | none => match baseBad s b l with
    | some e => { reason := 7, entry := e }
    | none => match capacity s b l with
    | some (e, g) => { reason := 8, entry := e, grp := g.val }
    | none => match overCurrent s l loads with
    | some g => { reason := 9, grp := g.val }
    | none =>
      if overPower s l w then { reason := 10 }
      else if cfgBit s (.bankChkExp b) 16 ∧ cfgFld s (.bankChkExp b) 0 16 ≠ (bankCrc s b).toNat then { reason := 11 }
      else if isOwned s ∧ !(match s.sec.bundle with | some x => x.digests.contains (bankDigest s b) | none => false) then
        { reason := 12 }
      else { reason := 0 }
  (r, w, l)

/-- Status of a validation's refusal. -/
def armStatus (reason : Nat) : Status :=
  match reason with
  | 0 => stOk
  | 1 => stState
  | 11 => stCheck
  | 12 => stDenied
  | _ => stRange

/-- BANKb.STAT keeps the result of the last ARM (R252). -/
def keepArm (b : Fin 2) (r : ArmRes) (s : State) : State :=
  modBank b (fun k => { k with reason := BitVec.ofNat 4 r.reason, failEntry := BitVec.ofNat 10 r.entry }) s

/-- A refused ARM (R253): VALID is 0, and a WAITING bank is no longer armed. -/
def refuseArm (b : Fin 2) (r : ArmRes) (s : State) : State :=
  let s := modBank b (fun k => { k with valid := false }) (keepArm b r s)
  syncWait (if isWaiting s b then setBank b .unarmed s else s)

/-- ARM of the ACTIVE bank cancels a pending swap (R255). -/
def cancelSwap (b : Fin 2) (s : State) : State :=
  let o : Fin 2 := if b = 0 then 1 else 0
  let pend := isWaiting s o && (bankTime s b || bankTime s o || bankRev s b == bankRev s o)
  syncWait (keepArm b { reason := 0 } (if pend then setBank o .unarmed s else s))

/-- ARM (R253, R255, R256, R410). -/
def armGo (b : Fin 2) (s : State) : Ans × State :=
  if (bnk s b).st = .active then (.reply stOk [armWord { reason := 0 }], cancelSwap b s)
  else
    let (r, w, l) := validate s b
    let s := if r.reason = 0 ∨ 11 ≤ r.reason then modBank b (fun k => { k with check := bankCrc s b }) s else s
    if r.reason ≠ 0 then (.reply (armStatus r.reason) [armWord r], refuseArm b r s)
    else
      let n := s.seq.arms + 1
      let s := modBank b (fun k => { k with
        st := .waiting, valid := true, stopPend := false, order := n, armedAt := tbNow s, worst := w, period0 := tbNow s
        targets := targetsOf l }) (keepArm b r s)
      (.reply stOk [armWord r], syncWait (modSeq (fun q => { q with arms := n }) s))

/-- STOP (R255): a WAITING bank is no longer armed, the ACTIVE one stops at the next boundary. -/
def stopGo (b : Fin 2) (s : State) : Ans × State :=
  let s := match (bnk s b).st with
    | .unarmed => s
    | .waiting => setBank b .unarmed s
    | .active => modBank b (fun k => { k with stopPend := true }) s
  (.reply stOk [armWord { reason := 0 }], syncWait s)

def armOp (m : Msg) : Nat := fld (pword m 0) 1 2

/-- Check 1 of the validation is a state rule, judged at check 3 (R154, R253). -/
def armLoaded (s : State) (m : Msg) : Bool :=
  m.words.isEmpty || armOp m != 0 || (bnk s (bankOf (pword m 0))).st == .active || bankLoaded s (bankOf (pword m 0))

/-- The refusal is that of validation check 1. -/
def armRefusal (op : Op) (st : Status) (s : State) (m : Msg) : Bool :=
  st == stState && opPermitted op s.pw.dev && !replaying s && !armLoaded s m

/-- BANK record of an accepted operation (R509, R517). -/
def recBank (op : Nat) (b : Fin 2) (a : Ans) (s : State) : State :=
  match a with
  | .reply st _ => whenSt (st == stOk) (recNow 0x0A (op + 4 * b.val) []) s
  | .later => s

def trellisArmH : Handler where
  stateOk := fun s m => !replaying s && armLoaded s m
  range := fun _ m => fld (pword m 0) 3 17 == 0 && armOp m != 3
  free := fun s m => !tapHeld s m.port 0
  refused := fun st m s =>
    if armRefusal Op.trellisArm st s m then refuseArm (bankOf (pword m 0)) { reason := 1 } s else s
  words := fun op st s m => if armRefusal op st s m then [armWord { reason := 1 }] else refusalWords op st (devStateWord s)
  run := fun m s =>
    let b := bankOf (pword m 0)
    let r := match armOp m with
      | 0 => armGo b s
      | 1 => stopGo b s
      | _ => (.reply stOk [armWord { reason := 0 }], syncWait (haltBanks s))
    (r.1, recBank (armOp m) b r.1 r.2)

/-- TRELLIS_ARM with OP ARM (R253, R255). -/
def execTrellisArm (m : Msg) (s : State) : Res := interp Op.trellisArm trellisArmH m s

/-- TRELLIS_ARM with OP STOP (R255). -/
def execTrellisStop (m : Msg) (s : State) : Res := interp Op.trellisArm trellisArmH m s

/-- TRELLIS_ARM with OP HALT (R255). -/
def execTrellisHalt (m : Msg) (s : State) : Res := interp Op.trellisArm trellisArmH m s

/-! ### TRELLIS_READ -/

/-- A host read of consecutive words (R473): FAULT with the words as they stand where one could not be mended; a memory under
test cannot be read (R479). -/
def hostRead (m : Fin 16) (a n : Nat) (s : State) : Status × List Word × State :=
  if underTest s m then (stFault, List.replicate n 0, s)
  else
    let ((ws, bad), s) := memReads .host m a n s
    (if bad then stFault else stOk, ws, s)

def trellisReadH : Handler where
  range := fun _ m =>
    let w := pword m 1
    let n := fld w 10 10
    fld (pword m 0) 1 19 == 0 && 1 ≤ n && n ≤ 682 && fld w 0 10 + n ≤ 1024
  run := fun m s =>
    let w := pword m 1
    let (st, ws, s) := hostRead (bankIx (bankOf (pword m 0))) (3 * fld w 0 10) (3 * fld w 10 10) s
    (.reply st ws, s)

/-- TRELLIS_READ (R251). -/
def execTrellisRead (m : Msg) (s : State) : Res := interp Op.trellisRead trellisReadH m s

end Sys2Proof.Machine
end

