-- ==== Sys2Proof/Machine/ChanCmds.lean ====
section
/-! DEFINITION. The channel commands (10_channels_digital R309 to R314, 11 R372): CHAN_CONFIG, CHAN_SET, CHAN_GET. -/

namespace Sys2Proof.Machine

/-! ### CHAN_CONFIG -/

def msgChans (m : Msg) : List Chan := maskChans (pword m 1) (pword m 2) (pword m 3)

/-- The blocks of a payload; none when they do not end with it (R310). -/
def msgBlocks (m : Msg) : Option (List CfgBlock) := parseBlocks m.words.length (m.words.drop 4)

def cfgShape (m : Msg) : Bool :=
  match msgBlocks m with
  | some l => l.length == 1 || (l.length != 0 && l.length == (msgChans m).length)
  | none => false

def cfgRange (s : State) (m : Msg) : Bool :=
  stageOk s m && !maskBad (pword m 1) (pword m 2) (pword m 3) && ((msgBlocks m).getD []).all CfgBlock.ok

/-- Each masked channel with the addresses and words of its block (R309, R310). -/
def cfgUnits (m : Msg) : List (Chan × List (Nat × Word)) :=
  let l := (msgBlocks m).getD []
  let cs := msgChans m
  let bs := if l.length = 1 then List.replicate cs.length (l.headD { head := 0, data := [] }) else l
  (cs.zip bs).map fun x =>
    (x.1, ((List.range x.2.data.length).zip x.2.data).map fun d => (0x6000 + 64 * x.1.val + x.2.first + d.1, d.2))

/-- Register values that one word of a unit leaves (R307, R308, R350). -/
def unitSet (s : State) (a : Nat) (v : Word) : List (Nat × Word) :=
  match targetOf a with
  | some (.ch n .cfg) =>
    let m := fld v 0 4
    let k := pairOf n
    let here := [((Reg.ch n .cfg).addr, BitVec.ofNat 20 m)]
    if m ≠ chMode s n ∧ n.val % 2 = 0 ∧ modesAfter s n m k ≠ chMode s k then
      ((Reg.ch k .cfg).addr, BitVec.ofNat 20 (modesAfter s n m k)) :: here
    else here
  | some r => if r.rw = 0 then [] else [(r.addr, newWord s r (maskW r v))]
  | none => []

/-- The word that a unit writes to a register without RW fields. -/
def unitCtl (n : Chan) (r : ChReg) (ws : List (Nat × Word)) : Word :=
  match ws.find? fun x => x.1 = (Reg.ch n r).addr with
  | some x => maskW (.ch n r) x.2
  | none => 0

/-- A unit as it takes effect: register values, and the words of DCTL and ACTL. -/
def unitEffect (s : State) (n : Chan) (ws : List (Nat × Word)) : Chan × List (Nat × Word) × Word × Word :=
  (n, ws.flatMap fun x => unitSet s x.1 x.2, unitCtl n .dctl ws, unitCtl n .actl ws)

/-- Those register values that the field die holds. -/
def dieValues (l : List (Nat × Word)) : List (Nat × Word) :=
  l.filter fun x => match Reg.ofAddr x.1 with | some r => !(regGroups r).isEmpty | none => false

/-- A unit that is not staged takes effect: one message to the field die (R310). -/
def unitWrite (n : Chan) (ws : List (Nat × Word)) (s : State) : State :=
  let (_, sets, d, a) := unitEffect s n ws
  let s := foldSt sets (fun w s => match Reg.ofAddr w.1 with | some r => cfgSet r w.2 s | none => s) s
  let l := dieValues sets
  ctlWrite n d a (if l.isEmpty then s else sendConf (chanGrp n) (.regs l none) s)

/-- The reply of CHAN_CONFIG (R171). -/
def cfgReply (done : List Chan) (fail : Option (Status × Word)) : Ans :=
  let map := done.foldl (fun m n => m ||| 2 ^ n.val) 0
  match fail with
  | none => .reply stOk (splitReply done.length stOk 0 map false)
  | some (st, n) => .reply (if done.isEmpty then st else stPartial) (splitReply done.length st n map false)

/-- Unstaged units, each judged and then done (R170). -/
def cfgGo (p : Port) : List (Chan × List (Nat × Word)) → List Chan → State → Ans × State
  | [], done, s => (cfgReply done none, s)
  | (n, ws) :: l, done, s =>
    match judgeUnit Op.chanConfig p ws s with
    | some st => (cfgReply done (some (st, BitVec.ofNat 20 n.val)), s)
    | none => cfgGo p l (done ++ [n]) (unitWrite n ws s)

/-- Staging: each unit is judged as the earlier ones would leave the registers (R173, R350). The units as they will take
effect, or the first that fails. -/
def cfgStage (p : Port) : List (Chan × List (Nat × Word)) → State →
    Except (Status × Chan) (List (Chan × List (Nat × Word) × Word × Word))
  | [], _ => .ok []
  | (n, ws) :: l, t =>
    match judgeUnit Op.chanConfig p ws t with
    | some st => .error (st, n)
    | none =>
      let t' := ws.foldl (fun t x => match targetOf x.1 with | some r => afterWrite r (maskW r x.2) t | none => t) t
      match cfgStage p l t' with
      | .ok us => .ok (unitEffect t n ws :: us)
      | .error e => .error e

/-- The commit phase (R173, R174): every unit is sent for one common instant; the reply follows at that instant. -/
def cfgCommit (d : Deferred) (us : List (Chan × List (Nat × Word) × Word × Word)) (s : State) : State :=
  let t := cmdStamp s
  let down := groups.foldl (fun (w : BitVec 6) g => setBit w g.val ((lnk s g).st != .up)) 0
  let s := foldSt us (fun u s =>
    let l := dieValues u.2.1
    if l.isEmpty then s else sendConf (chanGrp u.1) (.regs l (some t)) s) s
  setCfgJob (some { cmd := d, at_ := t, units := us, lost := down }) s

def chanConfigH : Handler where
  shape := cfgShape
  range := cfgRange
  perUnit := true
  run := fun m s =>
    if staged m then
      match cfgStage m.port (cfgUnits m) s with
      | .error (st, n) => (.reply st (splitReply 0 st (BitVec.ofNat 20 n.val) 0 false), s)
      | .ok us => (.later, cfgCommit (defOf Op.chanConfig m) us s)
    else cfgGo m.port (cfgUnits m) [] s

/-- CHAN_CONFIG (R309, R310). -/
def execChanConfig (m : Msg) (s : State) : Res := interp Op.chanConfig chanConfigH m s

/-! ### CHAN_SET -/

/-- States in which an op may be sent (R311); reserved ops have no state rule. -/
def itemStateOk (s : State) (i : SetItem) : Bool :=
  match i.op with
  | 0 | 1 | 2 | 3 | 5 => s.pw.dev == .run
  | 4 | 6 | 7 => isState s [.config, .run, .maint]
  | _ => true

def itemChan (i : SetItem) : Chan := if h : i.ch < 48 then ⟨i.ch, h⟩ else 0

/-- Range of an item: channel, op, reserved bits, mode, value (R311, R312, R335, R354). -/
def itemRangeOk (s : State) (i : SetItem) : Bool :=
  let n := itemChan i
  let m := chMode s n
  fld i.cmd 10 10 == 0 && i.ch < 48 &&
    match i.op with
    | 0 | 1 => m == mDo
    | 2 | 3 => m == mDoPwm
    | 4 => m == mDoPwm && pwmOk (cfgSet (.ch n .pwmduty) i.val s) n
    | 5 => m == mAoI && i.val.toNat ≤ 0xEA600
    | 6 => m == mDiCount
    | 7 => isSwitch m
    | _ => false

/-- Checks 3, 5 and 6 of one item (R312). -/
def judgeItem (p : Port) (s : State) (i : SetItem) : Option Status :=
  if !itemStateOk s i then some stState
  else if !itemRangeOk s i then some stRange
  else if opHeld s p Op.chanSet then some stTap
  else none

/-- The first item refused, with its index. -/
def firstRefused (p : Port) (s : State) : List SetItem → Nat → Option (Status × Nat)
  | [], _ => none
  | i :: l, k =>
    match judgeItem p s i with
    | some st => some (st, k)
    | none => firstRefused p s l (k + 1)

/-- An item takes effect (R311, R313). -/
def applyItem (i : SetItem) (s : State) : State :=
  let n := itemChan i
  match i.op with
  | 0 => hostValue n .off s
  | 1 => hostValue n .on s
  | 2 => hostValue n .pwmOff s
  | 3 => hostValue n (.pwmOn 0) s
  | 4 => putReg (.ch n .pwmduty) i.val s
  | 5 => hostValue n (.aoSet i.val) s
  | 6 => sendConf (chanGrp n) (.host (chanLidx n) .cntClr) s
  | 7 => sendConf (chanGrp n) (.host (chanLidx n) .clrLatch) s
  | _ => s

/-- What an item sets: items of one channel that set the same thing overtake one another (R313). -/
def itemKind (i : SetItem) : Nat := match i.op with | 0 | 1 => 0 | 2 | 3 => 2 | k => k

/-- Items that no later one overtakes. -/
def lastItems : List SetItem → List SetItem
  | [] => []
  | i :: l => if l.any fun j => itemChan j = itemChan i ∧ itemKind j = itemKind i then lastItems l else i :: lastItems l

/-- Items that stand whole or cut short, for the state rule of a payload of the wrong shape (R154). -/
def looseItems : List Word → List SetItem
  | [] => []
  | c :: l =>
    if fld c 6 4 = 4 ∨ fld c 6 4 = 5 then
      match l with
      | [] => [{ cmd := c, val := 0 }]
      | v :: l => { cmd := c, val := v } :: looseItems l
    else { cmd := c, val := 0 } :: looseItems l

/-- Index of the first item of a cut payload that its state forbids. -/
def looseState (s : State) (m : Msg) : Option Nat :=
  if (parseItems m.words).isNone then (looseItems m.words).findIdx? fun i => !itemStateOk s i else none

/-- Judge and apply a list of items whole (R312, R313). -/
def setItems (p : Port) (l : List SetItem) (s : State) : (Status × Nat) × State :=
  match firstRefused p s l 0 with
  | some r => (r, s)
  | none => ((stOk, l.length), foldSt (lastItems l) applyItem s)

def chanSetH : Handler where
  stateOk := fun s m => (looseState s m).isNone
  shape := fun m => (parseItems m.words).isSome
  perUnit := true
  words := fun op st s m =>
    match looseState s m with
    | some k => if st = stState ∧ opPermitted op s.pw.dev then [BitVec.ofNat 20 k] else []
    | none => []
  run := fun m s =>
    let ((st, k), s) := setItems m.port ((parseItems m.words).getD []) s
    (.reply st [BitVec.ofNat 20 k], s)

/-- CHAN_SET (R311 to R313). -/
def execChanSet (m : Msg) (s : State) : Res := interp Op.chanSet chanSetH m s

/-! ### CHAN_GET -/

/-- The last sample word of a channel and its flags; 0 where there is none. -/
def lastWord (s : State) (n : Chan) : Word := s.smp.last[n].word
def lastFlags (s : State) (n : Chan) : Word := s.smp.last[n].flags.setWidth 20

/-- The four words of a channel (R314, R350, R372). -/
def getWords (s : State) (n : Chan) : List Word :=
  let m := chMode s n
  let w := chWord s n
  if isDigIn m then
    [w .dstat, w .evt] ++ (if m = mDiCount then [w (.cnt 0), w (.cnt 1)] else [0, 0])
  else if isSwitch m then [w .dstat, w .evt, lastWord s n, lastFlags s n]
  else if isAnalog m n then [w .astat, w .aevt, lastWord s n, w .amon]
  else [0, 0, 0, 0]

def chanGetH : Handler where
  range := fun _ m => !maskBad (pword m 0) (pword m 1) (pword m 2)
  run := fun m s => (.reply stOk ((maskChans (pword m 0) (pword m 1) (pword m 2)).flatMap (getWords s)), s)

/-- CHAN_GET (R314). -/
def execChanGet (m : Msg) (s : State) : Res := interp Op.chanGet chanGetH m s

end Sys2Proof.Machine
end

