-- ==== Sys2Proof/Machine/GroupCmds.lean ====
section
/-! DEFINITION. GROUP_CMD (12_field_links R398) and PAN_READ (09_sampling_pans R297). -/

namespace Sys2Proof.Machine

/-! ### GROUP_CMD -/

/-- The items of a payload. -/
def grpItems (m : Msg) : List (Grp × BitVec 2) :=
  (m.words.drop 1).filterMap fun w =>
    if h : grpItemGroup w < 6 then some (⟨grpItemGroup w, h⟩, BitVec.ofNat 2 (grpItemOp w)) else none

/-- Start of GROUP_CMD (R173, R398): unstaged units one after another; staged ones judged first and then begun together. -/
def groupGo (m : Msg) (s : State) : Ans × State :=
  let l := grpItems m
  let gs := groups.filter fun g => l.any fun i => i.1 == g
  let j : GroupJob := { cmd := defOf Op.groupCmd m, items := l, staged := staged m, waiting := 0, done := [], fail := none }
  if staged m then
    match gs.find? fun g => grpTapped m.port g s with
    | some g => (.reply stTap (splitReply 0 stTap (BitVec.ofNat 20 g.val) 0 false), s)
    | none => (.later, grpRun 8 (foldSt gs (fun g s => grpUnit g 64 s) (setGrpJob (some j) s)))
  else (.later, grpRun 8 (setGrpJob (some j) s))

def groupH : Handler where
  range := fun s m => stageOk s m && grpItemsOk (m.words.drop 1)
  perUnit := true
  run := groupGo

/-- GROUP_CMD with SAFE_NOW units (R398). -/
def execSafeNow (m : Msg) (s : State) : Res := interp Op.groupCmd groupH m s

/-- GROUP_CMD with RELINK units (R398). -/
def execRelink (m : Msg) (s : State) : Res := interp Op.groupCmd groupH m s

/-- GROUP_CMD with CLR_CNT units (R398). -/
def execGroupCmdClrCnt (m : Msg) (s : State) : Res := interp Op.groupCmd groupH m s

/-! ### PAN_READ -/

def panReadGrp (m : Msg) : Grp := ⟨fld (pword m 0) 0 3 % 6, by omega⟩
def panReadPan (m : Msg) : Fin 16 := ⟨fld (pword m 0) 3 4, by unfold fld; omega⟩

def panReadH : Handler where
  stateOk := fun s m => 6 ≤ fld (pword m 0) 0 3 || !bit (pword m 0) 7 || (pan s (panReadGrp m) (panReadPan m)).st != .opened
  range := fun s m =>
    let n := fld (pword m 0) 8 11
    fld (pword m 0) 0 3 ≤ 5 && !bit (pword m 0) 19 && fld (pword m 1) 16 4 == 0 && 1 ≤ n && n ≤ 2046
      && fld (pword m 1) 0 16 + n ≤ panSize s (panReadGrp m) (panReadPan m)
  run := fun m s =>
    let g := panReadGrp m
    let p := panReadPan m
    let (st, ws, s) := hostRead (panM g) (panBase s g p + fld (pword m 1) 0 16) (fld (pword m 0) 8 11) s
    (.reply st ws, if bit (pword m 0) 7 ∧ st = stOk then panRelease g p s else s)

/-- PAN_READ (R297, R473). -/
def execPanRead (m : Msg) (s : State) : Res := interp Op.panRead panReadH m s

end Sys2Proof.Machine
end

