-- ==== Sys2Proof/Machine/CalCmds.lean ====
section
/-! DEFINITION. Calibration (11_channels_analog R362 to R370): CAL_SET, CAL_ARM and its captures, the calibration store. -/

namespace Sys2Proof.Machine

/-! ### Trims -/

/-- New trims of one set (R363, R371): they go to the field die; a change sets AEVT.TRIM. -/
def setTrim (n : Chan) (k : Fin 6) (t : BitVec 16 × Word) (s : State) : State :=
  let old := trimOf s n k
  let s := modCal (fun c => { c with trims := insertKey (6 * n.val + k.val) t (t != (0, 0)) c.trims }) s
  let s := sendConf (chanGrp n) (.trim (chanLidx n) k t.1 t.2) s
  if old = t then s
  else
    let s := modMir n (fun m => { m with aevt := setBit m.aevt 4 true }) s
    if cfgBit s (.ch n .aevtEn) 4 then raiseNat n.val s else s

/-! ### The calibration store (R369) -/

def calCopyIx (cur : Bool) : Fin 2 := if cur then 1 else 0

/-- AUTH of every channel, as the store keeps it. -/
def authNow (s : State) : Sparse :=
  (chans.filter fun n => cfgGet s (.ch n .calcfg) != 0).map fun n => ((Reg.ch n .calcfg).addr, cfgGet s (.ch n .calcfg))

/-- A store operation begins: the older copy is written and is not valid until its sequence number is programmed. -/
def calStoreBegin (want : BitVec 48) (s : State) : State :=
  let auth := authNow s
  modCal (fun c => { c with
    storing := some s.now, again := false, want := want, wantNext := 0
    copies := vmod c.copies (calCopyIx !c.cur) fun k => { k with trims := c.trims, auth := auth, good := false } }) s

/-- A store request of a channel: requests during an operation are merged into one further operation. -/
def calStore (n : Chan) (s : State) : State :=
  match s.cal.storing with
  | some _ => modCal (fun c => { c with again := true, wantNext := setBit c.wantNext n.val true }) s
  | none => calStoreBegin (setBit 0 n.val true) s

/-- CAL_STORE_OP_END (R369): the copy written becomes the current one, and a merged request starts. -/
def execCalStoreOpEnd (s : State) : Res :=
  match s.cal.storing with
  | none => .next s
  | some _ =>
    let s := modCal (fun c =>
      let seq := (c.copies[calCopyIx c.cur]).seq + 1
      { c with
        storing := none, want := 0, cur := !c.cur
        copies := vmod c.copies (calCopyIx !c.cur) fun k => { k with seq := seq, good := true } }) s
    .next (if s.cal.again then calStoreBegin s.cal.wantNext s else s)

/-! ### CAL_SET (R365) -/

def calChan (w : Word) : Chan := ⟨fld w 0 6 % 48, by omega⟩
def calSetIx (w : Word) : Fin 6 := ⟨fld w 6 3 % 6, by omega⟩

/-- AUTH of a channel names the port (R364). -/
def calAuth (s : State) (n : Chan) (p : Port) : Bool := cfgBit s (.ch n .calcfg) (pidx p).val

/-- Channel and set exist; sets 3 and 4 on even channels only. -/
def calPlace (w : Word) : Bool :=
  fld w 0 6 < 48 && fld w 6 3 < 6 && !((fld w 6 3 == 3 || fld w 6 3 == 4) && fld w 0 1 == 1)

def calSetH : Handler where
  shape := fun m => m.words.length == (if bit (pword m 0) 9 then 2 else 3)
  range := fun _ m =>
    let w := pword m 0
    calPlace w && fld w 11 9 == 0 && fld (pword m 1) 16 4 == 0 && (!bit w 9 || pword m 1 == 0)
  auth := fun s m => calAuth s (calChan (pword m 0)) m.port
  run := fun m s =>
    let w := pword m 0
    let n := calChan w
    let t : BitVec 16 × Word := if bit w 9 then (0, 0) else ((pword m 1).extractLsb' 0 16, pword m 2)
    let s := setTrim n (calSetIx w) t s
    (.reply stOk [t.1.setWidth 20, t.2], if bit w 10 then calStore n s else s)

/-- CAL_SET (R365). -/
def execCalSet (m : Msg) (s : State) : Res := interp Op.calSet calSetH m s

/-! ### CAL_ARM (R366, R367) -/

/-- Default span reference of a set. -/
def defaultRef (k : Nat) : Word :=
  match k with
  | 0 => 0xF4240
  | 1 => 0x927C0
  | 2 => 0xC3500
  | 3 => 0x7A120
  | _ => 0x493E0

def armRef (m : Msg) : Word := if m.words.length = 2 then pword m 1 else defaultRef (fld (pword m 0) 6 3)

/-- The channel is in the mode and range that the set serves. -/
def armServes (s : State) (n : Chan) (k : Nat) : Bool :=
  let m := chMode s n
  m != mOff && hasTrim m && !isDiffOdd m n && (trimSet m (cfgFld s (.smpCfg n) 0 2)).val == k

def armRangeOk (s : State) (m : Msg) : Bool :=
  let w := pword m 0
  let k := fld w 6 3
  let ref := (armRef m).toNat
  calPlace w && k ≤ 4 && armServes s (calChan w) k && (if k ≤ 2 then 262144 ≤ ref else 131072 ≤ ref && ref ≤ 524287)

/-- The arming completes (R367): RESULT, the button of its capture, and source 86. -/
def armEnd (result : Nat) (status : Status) (s : State) : State :=
  match s.cal.arm with
  | none => s
  | some a =>
    let btn := match s.cal.cap with | some c => c.span | none => false
    let s := modCal (fun c => { c with arm := none, cap := none }) s
    raise 86 (completeDeferred a.who status [pack [(0, result), (2, b2n btn)]] s)

def calArmH : Handler where
  stateOk := fun s m => m.words.isEmpty || bit (pword m 0) 10 || s.cal.arm.isNone
  range := fun s m => fld (pword m 0) 11 9 == 0 && (bit (pword m 0) 10 || armRangeOk s m)
  auth := fun s m =>
    if bit (pword m 0) 10 then (match s.cal.arm with | some a => a.who.port == m.port | none => true)
    else calAuth s (calChan (pword m 0)) m.port
  run := fun m s =>
    let w := pword m 0
    if bit w 10 then (.reply stOk [0], armEnd 3 stAborted s)
    else
      let a : CalArm :=
        { who := defOf Op.calArm m, n := calChan w, set := calSetIx w, ref := armRef m, store := bit w 9, since := s.now }
      (.later, modCal (fun c => { c with arm := some a, cap := none }) s)

/-- CAL_ARM (R366). -/
def execCalArm (m : Msg) (s : State) : Res := interp Op.calArm calArmH m s

/-- CAL_ARM with CANCEL (R366). -/
def execCalArmCancel (m : Msg) (s : State) : Res := interp Op.calArm calArmH m s

/-- CAL_ARM_TIMEOUT (R367): 60 s without a press. -/
def execCalArmTimeout (s : State) : Res :=
  match s.cal.arm, s.cal.cap with
  | some a, none => .next (armEnd 1 stAborted (reach (a.since + 60000 * ms) s))
  | _, _ => .next s

/-- CAL_BUTTON_PRESS (R367, R368): the press is recognised; `bothHigh` tells that both buttons are high at that instant. -/
def execCalButtonPress (span bothHigh : Bool) (s : State) : Res :=
  match s.cal.arm, s.cal.cap with
  | some _, none =>
    if bothHigh ∨ !isLive s then .next s
    else
      let t := (tbNow s + ms + 24999) / 25000 * 25000
      .next (modCal (fun c => { c with cap := some { span := span, next := t, tried := 0, made := 0, sum := 0, beyond := false } }) s)
  | _, _ => .next s

/-! ### Captures (R368) -/

/-- Another conversion of the channel stands within 249 ticks of a stamp. -/
def calYields (s : State) (n : Chan) (t : Nat) : Bool :=
  let near := fun (u : Nat) => decide (absDiff t u ≤ 249)
  (fdie s (chanGrp n)).trigs.any (fun x => x.l = chanLidx n && near x.stamp)
    || (match (slc s n).lastConv with | some u => near u | none => false)

/-- CAL_CAPTURE_CONVERSION (R368): the next of the 1,000; `x` is its value without the user trims, `beyond` tells that it lay
beyond the span. -/
def execCalCaptureConversion (x : Int) (beyond : Bool) (s : State) : Res :=
  match s.cal.arm, s.cal.cap with
  | some a, some c =>
    if c.tried < 1000 then
      let s := reach (tickOf s c.next) s
      let made := (lnk s (chanGrp a.n)).st = .up && !calYields s a.n c.next
      let c := { c with next := c.next + 25000, tried := c.tried + 1 }
      let c := if made then { c with made := c.made + 1, sum := c.sum + x, beyond := c.beyond || beyond } else c
      .next (modCal (fun k => { k with cap := some c }) s)
    else .next s
  | _, _ => .next s

/-- The trims that a capture gives, or none where it fails (R362, R368). -/
def captureResult (a : CalArm) (c : Capture) (old : BitVec 16 × Word) : Option (BitVec 16 × Word) :=
  if c.made < 900 ∨ c.beyond then none
  else if c.span then
    let d := c.sum - sval old.1 * (c.made : Int)
    if d ≤ 0 then none
    else
      let g := roundDiv (2 ^ 24 * ((a.ref.toNat : Int) * (c.made : Int) - d)) d.toNat
      if -524288 ≤ g ∧ g ≤ 524287 then some (old.1, sword 20 g) else none
  else
    let z := roundDiv c.sum c.made
    if -32768 ≤ z ∧ z ≤ 32767 then some (sword 16 z, old.2) else none

/-- CAL_CAPTURE_END (R368). -/
def execCalCaptureEnd (s : State) : Res :=
  match s.cal.arm, s.cal.cap with
  | some a, some c =>
    if c.tried < 1000 then .next s
    else
      match captureResult a c (trimOf s a.n a.set) with
      | none => .next (armEnd 2 stRange s)
      | some t =>
        let s := setTrim a.n a.set t s
        .next (armEnd 0 stOk (if a.store then calStore a.n s else s))
  | _, _ => .next s

end Sys2Proof.Machine
end

