-- ==== Sys2Proof/Machine/CaskCmds.lean ====
section
/-! DEFINITION. Cask commands and events (18_recording_replay R509, R519 to R529): CASK_CTRL, CASK_READ, RACK, segment
timer, hashes, anchors, automatic racking. -/

namespace Sys2Proof.Machine

/-! ### CASK_CTRL (R521, R522) -/

def caskOp (m : Msg) : Nat := fld (pword m 0) 0 3

/-- A reply that comes after its command was carried out (R521). -/
def lateReply (d : Deferred) (st : Status) (ws : List Word) (s : State) : State :=
  if resetting s then s else queueReply d.port st d.tag d.wake ws s

/-- The session has ended with its closing segment (R521): STOP and FREEZE are answered. -/
def sessionDone (s : State) : State :=
  let l := s.cask.reply
  let s := modCask (fun k => { k with
    st := .idle, ending := none, freeze := none, paused := false, toSign := [], held := [], reply := [] }) s
  foldSt l (fun d s => lateReply d stOk (caskReply s) s) s

/-- A session of which no segment was ever opened ends at once. -/
def doneIfEmpty (s : State) : State :=
  if s.cask.seg = 0 ∧ !s.cask.opened then sessionDone s else s

/-- Cask states in which an op is accepted (R521). -/
def caskAccepts (s : State) (op : Nat) : Bool :=
  match s.cask.st with
  | .idle => op == 0 || op == 1 || op == 4
  | .recording => op == 0 || (s.cask.ending.isNone && (op == 2 || op == 3 || op == 5))
  | .freezing => op == 0 || (s.cask.ending.isNone && (op == 2 || op == 5))
  | .replaying => op == 0

/-- CLEAR: every closed slot is free, what automatic racking was writing is dropped. -/
def caskClear (s : State) : State :=
  let s := modMmp (fun m => { m with
    reqs := m.reqs.filter fun q => !(q.user == .rack && q.reply.isNone)
    bus := match m.bus with
      | some (.rack, t) => if m.reqs.any (fun q => q.user == .rack && q.reply.isSome) then some (.rack, t) else none
      | b => b }) s
  modCask (fun k => { k with closed := [], rnext := cfgGet s .caskRbase, autoSlot := none, tries := 0 }) s

def caskCtrlGo (m : Msg) (s : State) : Ans × State :=
  let wait := fun (s : State) => modCask (fun k => { k with reply := k.reply ++ [defOf Op.caskCtrl m] }) s
  match caskOp m with
  | 2 => (.later, doneIfEmpty (sessionEnding 2 (wait s)))
  | 3 => (.later, caskFreezeGo (fld (pword m 0) 3 8) (wait s))
  | op =>
    let s := match op with
      | 1 => caskBegin s
      | 4 => caskClear s
      | 5 => recNow 0x10 0 (m.words.drop 1) s
      | _ => s
    (.reply stOk (caskReply s), s)

def caskCtrlH : Handler where
  stateOk := fun s m => m.words.isEmpty || 6 ≤ caskOp m || caskAccepts s (caskOp m)
  shape := fun m =>
    if caskOp m = 5 then 2 ≤ m.words.length && m.words.length ≤ 8
    else 6 ≤ caskOp m || m.words.length == 1
  range := fun _ m => fld (pword m 0) 11 9 == 0 && caskOp m < 6
  run := caskCtrlGo

/-- CASK_CTRL STATUS (R521, R522). -/
def execCaskStatus (m : Msg) (s : State) : Res := interp Op.caskCtrl caskCtrlH m s

/-- CASK_CTRL START (R521). -/
def execCaskStart (m : Msg) (s : State) : Res := interp Op.caskCtrl caskCtrlH m s

/-- CASK_CTRL STOP (R521). -/
def execCaskStop (m : Msg) (s : State) : Res := interp Op.caskCtrl caskCtrlH m s

/-- CASK_CTRL FREEZE (R521). -/
def execCaskFreeze (m : Msg) (s : State) : Res := interp Op.caskCtrl caskCtrlH m s

/-- CASK_CTRL CLEAR (R521). -/
def execCaskClear (m : Msg) (s : State) : Res := interp Op.caskCtrl caskCtrlH m s

/-- CASK_CTRL NOTE (R521). -/
def execCaskNote (m : Msg) (s : State) : Res := interp Op.caskCtrl caskCtrlH m s

/-! ### CASK_READ (R529) -/

def caskReadH : Handler where
  range := fun _ m =>
    let n := fld (pword m 0) 8 11
    !bit (pword m 0) 19 && 1 ≤ n && n ≤ 2046 && fld (pword m 1) 12 8 == 0 && fld (pword m 1) 0 12 + n ≤ 4096
  run := fun m s =>
    let (st, ws, s) := hostRead caskM (4096 * fld (pword m 0) 0 8 + fld (pword m 1) 0 12) (fld (pword m 0) 8 11) s
    (.reply st ws, s)

/-- CASK_READ (R529, R473). -/
def execCaskRead (m : Msg) (s : State) : Res := interp Op.caskRead caskReadH m s

/-! ### Segments: timer, configuration hash, hashes, anchors -/

/-- Ticks that a segment stays open; none when the timer is off (R523, R536). -/
def segTicks (s : State) : Option Nat :=
  match cfgFld s .caskCfg 15 4 with
  | 0 => none
  | k + 1 => some (2 ^ k * 250000000)

/-- SEGMENT_TIMER (R523). -/
def execSegmentTimer (s : State) : Res :=
  match segTicks s with
  | none => .next s
  | some t =>
    if s.cask.opened ∧ s.cask.ending.isNone then
      let s := reach (tickOf s (s.cask.base + t)) s
      .next (if recOn s then segRoll 1 s else if replaying s then shadowRoll 1 s else s)
    else .next s

/-- CFGHASH_RECORD (R509): the configuration hash is no longer the one recorded last. -/
def execCfghashRecord (s : State) : Res :=
  let h := cfgHash s
  if recOn s ∧ h ≠ s.cask.cfgHash then .next (recNow 0x0B 0 h (modCask (fun k => { k with cfgHash := h }) s)) else .next s

/-- SEGMENT_HASH_DONE (R519): the hash of the oldest closed segment that waits for it. -/
def execSegmentHashDone (s : State) : Res := .next (hashHead s)

def segWords (seg : Nat) : List Word := [BitVec.ofNat 20 (seg >>> 20), BitVec.ofNat 20 seg]

/-- Words of an ANCHOR record after word 1 (R517, R520). -/
def anchorSign (seg : Nat) (h : List Word) (s : State) : List Word × State :=
  let (sig, s) := devSign ([2#20] ++ serialWords s.sec.cellar.serial ++ [s.cask.sess] ++ segWords seg ++ h) s
  (segWords seg ++ sig, s)

/-- The closing segment (R520, R521): it holds only ANCHOR records and carries LAST. -/
def closingSegment (code : Nat) (s : State) : State := segClose code true (recHeld (segOpen false true s))

/-- The slot that a closing segment needs is not free in hold mode (R514). -/
def closingBlocked (s : State) : Bool := s.cask.closed.contains s.cask.slot && cfgBit s .caskCfg 0

/-- ANCHOR_SIGNED (R520): the oldest signature asked for is complete. -/
def execAnchorSigned (s : State) : Res :=
  match s.cask.toSign with
  | [] => .next s
  | (seg, h) :: l =>
    let final := s.cask.ending.isSome && l.isEmpty && s.cask.toHash.isEmpty && !s.cask.opened && decide (seg + 1 = s.cask.seg)
    if final && closingBlocked s then .next s
    else
      let (ws, s) := anchorSign seg h (modCask (fun k => { k with toSign := l }) s)
      if s.cask.opened then
        .next (if replaying s then recShadow 0x0E 0 (tbNow s) ws s else recNow 0x0E 0 ws s)
      else
        let s := modCask (fun k => { k with held := k.held ++ [ws] }) s
        .next (if final then
          sessionDone (closingSegment (match s.cask.ending with | some c => c.toNat | none => 0) s) else s)

/-! ### Racking (R524 to R528) -/

/-- Racking reads a slot: corrected and uncorrectable words are reported; the flag tells of the latter (R524). -/
def slotScan (slot : Nat) (s : State) : Bool × State :=
  let l := (s.mems[caskM]).filter fun e =>
    decide (e.1 / 4096 = slot) && (match decCell e.2 with | (_, .ok) => false | _ => true)
  l.foldl (fun r e =>
    let x := memRead .host caskM e.1 r.2
    (r.1 || x.1.2, x.2)) (false, s)

/-- Closed slots that nothing is racking yet, oldest first (R526). -/
def rackable (s : State) : List Nat :=
  let busy := s.cask.rack.flatMap (·.slots) ++ s.cask.autoSlot.toList
  s.cask.closed.filter fun k => !busy.contains k

/-- What refuses a unit (R154, R526): `k` is how many waiting slots units before it take. -/
def rackRefuses (s : State) (p : Port) (page : Word) (k : Nat) : Option Status :=
  if (rackable s).length ≤ k then some stState
  else if !inWindowW s 1 (4096 * page.toNat) 4096 then some stRange
  else if opHeld s p Op.rack then some stTap
  else none

def rackSet (j : RackJob) (s : State) : State :=
  modCask (fun k => { k with rack := k.rack.map fun x => if x.cmd = j.cmd then j else x }) s

/-- The job ends with a failed unit (R526, R527). -/
def rackFail (j : RackJob) (st : Status) (page : Word) (s : State) : State :=
  rackSet { j with ended := true, fail := some (st, page), slots := [], wait := 0 } s

/-- One unit begins: the oldest waiting slot goes to its page. -/
def rackBegin (j : RackJob) (page : Word) (s : State) : RackJob × State :=
  match rackable s with
  | [] => (j, s)
  | slot :: _ =>
    let s := hashBefore slot 256 s
    let j := { j with slots := j.slots ++ [slot], wait := j.wait + 1 }
    (j, rackSet j (mmpSubmit (rackReq s page slot (some j.cmd)) s))

/-- The next unit of an unstaged RACK (R170). -/
def rackUnit (j : RackJob) (s : State) : State :=
  match j.pages.drop j.nDone with
  | [] => rackSet { j with ended := true } s
  | page :: _ =>
    match rackRefuses s j.cmd.port page 0 with
    | some st => rackFail j st page s
    | none => (rackBegin j page s).2

/-- The first unit that the staging phase refuses (R173, R527). -/
def rackJudge (s : State) (p : Port) : List Word → Nat → Option (Status × Word)
  | [], _ => none
  | page :: l, k =>
    match rackRefuses s p page k with
    | some st => some (st, page)
    | none => rackJudge s p l (k + 1)

def rackGo (m : Msg) (s : State) : Ans × State :=
  let pages := m.words.drop 1
  let j : RackJob :=
    { cmd := defOf Op.rack m, staged := staged m, pages := pages, slots := [], nDone := 0, wait := 0, ended := false, fail := none }
  let s := modCask (fun k => { k with rack := k.rack ++ [j] }) s
  if j.staged then
    match rackJudge s m.port pages 0 with
    | some (st, page) => (.later, rackFail j st page s)
    | none => (.later, (pages.foldl (fun r page => rackBegin r.1 page r.2) (j, s)).2)
  else (.later, rackUnit j s)

def rackH : Handler where
  stateOk := fun s _ => !cfgBit s .caskCfg 1
  range := fun s m => stageOk s m
  perUnit := true
  run := rackGo

/-- RACK (R526, R527). -/
def execRack (m : Msg) (s : State) : Res := interp Op.rack rackH m s

/-- A page write of a RACK command has ended (R524 to R527). -/
def rackPageDone (d : Deferred) (ok : Bool) (s : State) : State :=
  match s.cask.rack.find? fun j => j.cmd = d with
  | none => s
  | some j =>
    let page := j.pages.getD (if j.staged then j.pages.length - j.wait else j.nDone) 0
    let slot := (if j.staged then j.slots.getD (j.slots.length - j.wait) 0 else j.slots.headD 0)
    let (bad, s) := if ok then slotScan slot s else (false, s)
    if j.staged then
      if !ok || bad then
        rackFail j stFault page (modMmp (fun m => { m with reqs := m.reqs.filter fun q => q.reply != some d }) s)
      else if j.wait = 1 then
        foldSt j.slots slotFreed
          (rackSet { j with ended := true, nDone := j.pages.length, wait := 0, slots := [] } s)
      else rackSet { j with wait := j.wait - 1 } s
    else
      let s := if ok then slotFreed slot s else s
      if !ok || bad then rackFail j stFault page s
      else
        let j := { j with nDone := j.nDone + 1, slots := [], wait := 0 }
        rackUnit j (rackSet j s)

/-- RACK_COMPLETE (R526): the oldest RACK whose last unit is done or has failed. -/
def execRackComplete (s : State) : Res :=
  match s.cask.rack.find? (·.ended) with
  | none => .next s
  | some j =>
    let s := modCask (fun k => { k with rack := k.rack.filter (· != j) }) s
    let (st, ws) := match j.fail with
      | none => (stOk, splitReply j.nDone stOk 0 0 false)
      | some (st, page) =>
        if j.staged ∨ j.nDone = 0 then (st, splitReply 0 st page 0 false) else (stPartial, splitReply j.nDone st page 0 false)
    let s := raise 78 (if s.deferred.contains j.cmd then completeDeferred j.cmd st ws s else s)
    .next (if j.fail.isSome then raise 79 s else s)

/-- CASK_RNEXT in its ring (R528). -/
def rackRing (s : State) : Word :=
  let b := (cfgGet s .caskRbase).toNat
  let n := s.cask.rnext.toNat + 1
  if n < b ∨ b + (cfgGet s .caskRcount).toNat ≤ n then BitVec.ofNat 20 b else BitVec.ofNat 20 n

/-- The automatic page write that has ended. -/
def autoEnded (s : State) : Option MmpReq :=
  s.mmp.reqs.find? fun q => q.user == .rack && q.reply.isNone && (q.failed.isSome || decide (q.len ≤ q.done))

/-- AUTO_RACK_PAGE_DONE (R524, R525, R528). -/
def execAutoRackPageDone (s : State) : Res :=
  match autoEnded s, s.cask.autoSlot with
  | some q, some slot =>
    let s := modMmp (fun m => { m with reqs := m.reqs.filter (· != q) }) s
    if q.failed.isNone then
      let s := (slotScan slot s).2
      let s := modCask (fun k => { k with rnext := rackRing s, autoSlot := none, tries := 0 }) s
      .next (autoKick (slotFreed slot s))
    else if s.cask.tries = 0 then
      .next (mmpSubmit (rackReq s s.cask.rnext slot none) (modCask (fun k => { k with tries := 1 }) s))
    else
      .next (raise 79 (modCask (fun k => { k with autoStop := true, autoSlot := none, tries := 0 }) s))
  | some q, none => .next (modMmp (fun m => { m with reqs := m.reqs.filter (· != q) }) s)
  | none, _ => .next s

end Sys2Proof.Machine
end

