-- ==== Sys2Proof/Machine/Replay.lean ====
section
/-! DEFINITION. Replay (18_recording_replay R530 to R535): REPLAY, the checkpoint, the records that act, the end. -/

namespace Sys2Proof.Machine

def modReplay (f : Replay → Replay) (s : State) : State := modCask (fun k => { k with replay := k.replay.map f }) s

/-! ### Reading the source (R530, R531) -/

/-- Rack pages are read at most two ahead (R543, R547). -/
def replayAsk (s : State) : State :=
  match s.cask.replay with
  | none => s
  | some r =>
    let flying := (s.mmp.reqs.filter fun q => q.user == .replay).length
    if r.pages ∧ !r.failed ∧ r.asked < r.count ∧ flying = 0 ∧ r.source.length < 2 then
      modReplay (fun r => { r with asked := r.asked + 1 })
        (mmpSubmit (mkReq .replay 1 false (4096 * (r.first + r.asked)) 4096 [] none) s)
    else s

/-- A read of a rack page has ended (R550). -/
def replayPage (data : List (BitVec 8)) (ok : Bool) (s : State) : State :=
  replayAsk (modReplay (fun r =>
    if ok then { r with source := r.source ++ [bytesToWords data] } else { r with failed := true }) s)

/-- What the source gives for the next segment. -/
inductive Fetch where
  | words (ws : List Word)
  | damaged
  | failed
  | waits
deriving DecidableEq, Repr

/-- Segment `i` of the replay's source (R524, R530). -/
def replayFetch (i : Nat) (s : State) : Fetch × State :=
  match s.cask.replay with
  | none => (.waits, s)
  | some r =>
    if r.pages then
      match r.source with
      | ws :: l => (.words ws, replayAsk (modReplay (fun r => { r with source := l }) s))
      | [] => (if r.failed then .failed else .waits, s)
    else
      let slot := (r.first + i) % 256
      let (bad, s) := slotScan slot s
      (if bad then .damaged else .words (slotStored s slot), s)

/-! ### Segment headers and records (R515 to R518) -/

def segNumber (ws : List Word) : Nat := (ws.getD 2 0).toNat * 2 ^ 20 + (ws.getD 3 0).toNat
def segBase (ws : List Word) : Nat := ((ws.getD 6 0).toNat * 2 ^ 20 + (ws.getD 5 0).toNat) * 2 ^ 20 + (ws.getD 4 0).toNat
/-- The word behind the last record. -/
def segEnd (ws : List Word) : Nat := 24 + min 4072 (fld (ws.getD 7 0) 0 12)

/-- One record: type, argument, stamp, words after word 1, and the place of the next record. -/
structure Rec where
  type : Nat
  arg : Nat
  stamp : Nat
  ws : List Word
  next : Nat
  hi : Nat                     -- H behind this record (R516)
deriving DecidableEq, Repr

/-- The record at a place of a segment. -/
def recAt (ws : List Word) (pos hi : Nat) : Rec :=
  let w0 := ws.getD pos 0
  let len := fld w0 5 8
  let low := (ws.getD (pos + 1) 0).toNat
  let body := (ws.drop (pos + 2)).take (len - 1)
  let time := decide (fld w0 0 5 = 2)
  { type := fld w0 0 5, arg := fld w0 13 7, stamp := if time then 0 else hi * 2 ^ 20 + low, ws := body, next := pos + len + 1
    hi := if time then (body.getD 0 0).toNat + (body.getD 1 0).toNat * 2 ^ 20 else hi }

/-- The place of the CHECKPOINT that a replay starts from (R518, R531). -/
def checkpointAt (ws : List Word) : Option Rec :=
  let base := segBase ws / 2 ^ 20
  let r := recAt ws 24 base
  if fld (ws.getD 0 0) 0 4 ≠ 1 then none
  else if bit (ws.getD 0 0) 5 then
    if r.type = 1 then
      let c := recAt ws r.next base
      if c.type = 0x0C ∧ c.next ≤ segEnd ws then some c else none
    else none
  else if segNumber ws % 64 = 0 ∧ r.type = 0x0C ∧ r.next ≤ segEnd ws then some r
  else none

/-- TCOR records behind a checkpoint: their values, and the place of the record after them. -/
def tcorAfter (ws : List Word) : Nat → Nat → Nat → List (Nat × Word) × Nat
  | 0, pos, _ => ([], pos)
  | f + 1, pos, hi =>
    let r := recAt ws pos hi
    if pos < segEnd ws ∧ r.type = 0x0D then
      let first := fld (r.ws.getD 0 0) 0 10
      let (l, p) := tcorAfter ws f r.next hi
      (((List.range (r.ws.length - 1)).map fun i => (first + i, r.ws.getD (i + 1) 0)) ++ l, p)
    else ([], pos)

/-! ### Restoring the checkpoint (R531) -/

/-- Three words, lowest first. -/
def word60 (ws : List Word) (i : Nat) : Nat :=
  (ws.getD i 0).toNat + (ws.getD (i + 1) 0).toNat * 2 ^ 20 + (ws.getD (i + 2) 0).toNat * 2 ^ 40
def int60 (ws : List Word) (i : Nat) : Int := (BitVec.ofNat 60 (word60 ws i)).toInt

def trkOfCode (n : Nat) : TrkState :=
  match n with
  | 1 => .seeking | 2 => .revSync | 3 => .cycleSync | 4 => .holdover | 5 => .lost | _ => .stopped

/-- The tracker as the checkpoint holds it, its times moved by the offset. -/
def restoreTracker (c : List Word) (s : State) : State :=
  let st := c.getD 15 0
  let tooth := c.getD 16 0
  let cyc : BitVec 40 := c.getD 18 0 ++ c.getD 17 0
  let uk := (c.getD 22 0).toNat * 4096 + fld (c.getD 23 0) 0 12
  let pred := bit st 6
  let s := modTrk (fun t => { Tracker.reset with
    st := trkOfCode (fld st 0 4), rev := bit st 4, predOk := pred, camFail := bit st 7, phaseHost := bit st 8
    learned := bit st 9, posHeld := bit st 10, spdOor := bit st 11, cause := BitVec.ofNat 4 (fld st 12 4)
    tooth := BitVec.ofNat 10 (fld tooth 0 10), holdCnt := fld tooth 10 4, cyc := cyc, uCyc := cyc
    tk := (word60 c 19 + s.cask.rpOfs.toNat) % 2 ^ 60, uk := uk, pace := int60 c 24, slope := int60 c 27
    row := ⟨fld (c.getD 30 0) 0 2, Nat.mod_lt _ (by decide)⟩, rowCnt := BitVec.ofNat 4 (fld (c.getD 30 0) 2 4)
    edges := if pred then 2 else if trkOfCode (fld st 0 4) = .stopped then 0 else 1
    shown := BitVec.ofNat 20 (uk / 4096), lastA := some ((word60 c 19 + s.cask.rpOfs.toNat) % 2 ^ 60)
    missed := t.missed, extra := t.extra, losses := t.losses, indexErr := t.indexErr, camErr := t.camErr, dirChg := t.dirChg }) s
  let k := s.trk.tooth.toNat
  let away := fun (r : Bool) => let d := (((toothAngle s k r : Nat) : Int) - uk) % cycleFine; min d (cycleFine - d)
  let r := wheelRevs s = 2 && decide (away true < away false)
  let d := distAt s (((tbNow s : Int) - s.trk.tk) * 2 ^ 58)
  let passed := if pred && (s.trk.st = .cycleSync || s.trk.st = .holdover) then crossings s d else 0
  modTrk (fun t => { t with cycRev := r, rev0 := r, uCyc := t.uCyc - BitVec.ofNat 40 passed }) s

/-- Entries from `e` to the last one of the walk. -/
def walkLeft (s : State) (b : Fin 2) : Nat → Nat → Nat
  | 0, _ => 0
  | f + 1, e => if e = walkFirst s b then 0 else 1 + walkLeft s b f (walkNext s b e)

/-- The bank states and the place of the walk (R531). -/
def restoreBanks (c : List Word) (s : State) : State :=
  let stat := c.getD 31 0
  let w := c.getD 32 0
  let one := fun (b : Fin 2) (s : State) =>
    let st : BankState := if bit w (5 * b.val + 3) then .active else if bit w (5 * b.val + 2) then .waiting else .unarmed
    let late := bit stat 2 && decide (fld stat 3 1 = b.val)
    modBank b (fun k => { k with
      st := st, stopPend := false, order := s.seq.arms + 1 + b2n late, armedAt := tbNow s, period0 := tbNow s
      targets := if st = .unarmed then k.targets else targetsOf (bankEntries s b) }) s
  let s := one 1 (one 0 s)
  let s := modSeq (fun q => { q with arms := q.arms + 2, next := BitVec.ofNat 10 (fld stat 8 10), walkCyc := s.trk.cyc, decided := none }) s
  match activeBank s with
  | some b => modSeq (fun q => { q with walking := true, left := walkLeft s b 1024 (fld stat 8 10) }) s
  | none => s

/-- The shadow session opens with the source session's number (R530, R533). -/
def shadowBegin (sess : Word) (s : State) : State :=
  let pages := match s.cask.replay with | some r => r.pages | none => false
  let s := modCask (fun k => { k with
    sess := sess, seg := 0, shadow := true, prevHash := [], toHash := [], toSign := [], held := [], ending := none }) s
  if s.cask.closed.contains s.cask.slot ∧ (!pages ∨ cfgBit s .caskCfg 0) then
    modCask (fun k => { k with shadow := false, rpTrunc := true }) s
  else modReplay (fun r => { r with shadowSegs := 1 }) (segOpen true false s)

/-! ### The end (R531, R533) -/

/-- Hashes that wait, all of them. -/
def hashAll : Nat → State → State
  | 0, s => s
  | f + 1, s => if s.cask.toHash.isEmpty then s else hashAll f (hashHead s)

/-- Signatures that wait, all of them. -/
def signAll (s : State) : State :=
  let l := s.cask.toSign
  l.foldl (fun s x =>
    let (ws, s) := anchorSign x.1 x.2 s
    modCask (fun k => { k with held := k.held ++ [ws] }) s) (modCask (fun k => { k with toSign := [] }) s)

/-- Status of the START reply (R531). -/
def replayStatus (result : Nat) : Status :=
  match result with
  | 1 => stAborted
  | 3 => stPartial
  | 0 | 6 => stOk
  | _ => stFault

/-- The shadow session ends: its last data segment, its anchors and its closing segment (R520, R533). -/
def shadowEnd (s : State) : State :=
  let on := s.cask.shadow && s.cask.opened
  let s := modCask (fun k => { k with ending := some 5 }) s
  let s := hashAll 300 (if s.cask.opened then segClose 5 false s else s)
  if on && !(s.cask.closed.contains s.cask.slot) then
    modReplay (fun r => { r with shadowSegs := r.shadowSegs + 1 }) (closingSegment 5 (signAll s))
  else s

/-- The replay ends with a RESULT (R531): START is answered, source 89 raised. -/
def replayFinish (result : Nat) (s : State) : State :=
  let s := match s.cask.replay with
    | some r => if r.began then shadowEnd s else s
    | none => s
  match s.cask.replay with
  | none => s
  | some r =>
    let tag : Word := if r.began then s.cask.prevHash.getLast?.getD 0 else 0
    let ws : List Word :=
      [pack [(0, result), (3, r.matched.toNat)], BitVec.ofNat 20 r.seg, BitVec.ofNat 20 r.shadowSegs, tag]
    let s := modCask (fun k => { k with rpRes := BitVec.ofNat 3 result, rpMatch := r.matched }) s
    let s := replayRelease s
    raise 89 (if s.deferred.contains r.cmd then completeDeferred r.cmd (replayStatus result) ws s else s)

/-- Note why the replay is to end; REPLAY_END follows. -/
def replayStop (result : Nat) (s : State) : State := modReplay (fun r => { r with result := some (BitVec.ofNat 3 result) }) s

/-! ### REPLAY -/

def replayAborts (m : Msg) : Bool := bit (pword m 0) 0

/-- No pan is OPEN. -/
def noOpenPan (s : State) : Bool := s.smp.pans.toList.all fun k => k.st != .opened

def replayGo (m : Msg) (s : State) : Ans × State :=
  if replayAborts m then (.reply stOk [], if replaying s then replayFinish 1 s else s)
  else
    let w := pword m 0
    let r : Replay :=
      { cmd := defOf Op.replay m, pages := bit w 1, strict := bit w 2, first := (pword m 1).toNat, count := (pword m 2).toNat
        earliest := tbNow s + 10 * ms, began := false, seg := 0, words := [], pos := 0, hi := 0, result := none, matched := 0
        cfgHash := [], prevHash := [], recState := 0, shadowSegs := 0, lastEnd := 0, asked := 0, source := [], failed := false }
    (.later, replayAsk (modCask (fun k => { k with
      st := .replaying, replay := some r, rpRes := 0, rpMatch := 0, rpTrunc := false, shadow := false }) s))

def replayH : Handler where
  stateOk := fun s m => m.words.isEmpty || replayAborts m || (s.cask.st == .idle && noOpenPan s)
  shape := fun m => m.words.length == (if replayAborts m then 1 else 3)
  range := fun _ m =>
    fld (pword m 0) 3 17 == 0 && (replayAborts m || ((bit (pword m 0) 1 || (pword m 1).toNat < 256) && pword m 2 != 0))
  run := replayGo

/-- REPLAY START (R530). -/
def execReplayStart (m : Msg) (s : State) : Res := interp Op.replay replayH m s

/-- REPLAY ABORT (R531). -/
def execReplayAbort (m : Msg) (s : State) : Res := interp Op.replay replayH m s

/-! ### The beginning (R531, R532) -/

/-- MATCH bits FW, CFG, CHAIN and NOLOSS at the start (R534). -/
def matchAtStart (c : List Word) (s : State) : BitVec 4 :=
  BitVec.ofNat 4 (b2n (c.getD 0 0 = fwVer s) + 2 * b2n ((c.drop 1).take 13 = cfgHash s) + 4 + 8)

/-- Replay starts from the checkpoint `c` of the first segment. -/
def replayBegin (r : Replay) (ws : List Word) (c : Rec) (s : State) : State :=
  let mt := matchAtStart c.ws s
  let s := modReplay (fun x => { x with matched := mt }) s
  if r.strict ∧ mt ≠ 15 then replayStop 4 s
  else
    let start := r.earliest + (c.stamp + 250 - r.earliest % 250) % 250
    let s := reach (tickOf s start) s
    let s := modCask (fun k => { k with rpOfs := BitVec.ofNat 60 (start + 2 ^ 60 - c.stamp) }) s
    let (tcor, pos) := tcorAfter ws 8 c.next c.hi
    let s := foldSt tcor (fun x s => if x.1 < 1024 then memPut 15 x.1 x.2 s else s) s
    let s := restoreBanks c.ws (restoreTracker c.ws s)
    let s := modReplay (fun x => { x with
      began := true, words := ws, pos := pos, hi := c.hi, cfgHash := (c.ws.drop 1).take 13
      prevHash := word256 (shaOf ws), recState := BitVec.ofNat 4 (fld (c.ws.getD 14 0) 0 4), lastEnd := start }) s
    syncWait (shadowBegin (ws.getD 1 0) s)

/-- REPLAY_BEGIN (R531, R532): the first segment, read in time, and its CHECKPOINT. -/
def execReplayBegin (s : State) : Res :=
  match s.cask.replay with
  | none => .next s
  | some r =>
    if r.began ∨ r.result.isSome then .next s
    else match replayFetch 0 s with
      | (.waits, s) => .next (if r.earliest + 250 ≤ tbNow s then replayStop 2 s else s)
      | (.failed, s) => .next (replayStop 2 s)
      | (.damaged, s) => .next (replayStop 3 s)
      | (.words ws, s) =>
        match checkpointAt ws with
        | none => .next (replayStop 5 s)
        | some c => .next (replayBegin r ws c s)

/-! ### Records that act (R533) -/

/-- A recorded edge (R533). -/
def actEdge (r : Rec) (stamp : Nat) (s : State) : State :=
  let inp : AngIn := match r.arg % 4 with | 0 => .anga | 1 => .angb | _ => .angz
  meetEdge { inp := inp, level := r.arg / 4 % 2 == 1, stamp := stamp, lostQ := r.arg / 8 % 2 == 1, usable := s.now } s

/-- A recorded raw DI transition. -/
def actDi (r : Rec) (s : State) : State :=
  if h : r.arg % 64 < 48 then modSlice ⟨r.arg % 64, h⟩ (fun x => { x with comp := r.arg / 64 % 2 == 1 }) s else s

/-- Recorded samples go to the pans of their group. -/
def actAdc (r : Rec) (stamp : Nat) (s : State) : State :=
  if h : r.arg % 8 < 6 then
    let w := r.ws.getD 0 0
    let present := maskLidxs (fld w 0 8)
    let k := present.length
    let one := fun (i : Nat) (l : Lidx) =>
      let f := fld (r.ws.getD (1 + k + i / 5) 0) (4 * (i % 5)) 4
      ({ l := l, word := r.ws.getD (1 + i) 0, flags := BitVec.ofNat 4 (f ||| 2), unlocked := bit w 11
         src := BitVec.ofNat 3 (fld w 8 3), stamp := stamp } : Sample)
    let samples := ((List.range k).zip present).map fun x => one x.1 x.2
    foldSt (List.finRange 16)
      (panOffer ⟨r.arg % 8, h⟩ stamp [(BitVec.ofNat 8 (fld w 0 8), BitVec.ofNat 3 (fld w 8 3))] samples) s
  else s

/-- A recorded state change acts on the banks as it did (R95, R96, R533). -/
def actState (new : Nat) (s : State) : State :=
  let old := match s.cask.replay with | some r => r.recState.toNat | none => 0
  let s := modReplay (fun r => { r with recState := BitVec.ofNat 4 new }) s
  let off := fun (s : State) => stopWalk (setBank 1 .unarmed (setBank 0 .unarmed (dropActs .all s)))
  let s := if old = 3 ∧ new ≠ 3 then replayClose 5 (·.byTrellis) (off s)
    else if old = 2 ∧ new ≠ 3 then off s
    else if new = 3 then
      let wait := fun (k : Bank) => if k.st = .waiting then { k with period0 := tbNow s } else k
      modSeq (fun q => { q with banks := q.banks.map wait }) s
    else s
  syncWait s

/-- A recorded ARM, STOP or HALT, without validation (R533). -/
def actBank (arg : Nat) (s : State) : State :=
  let b : Fin 2 := if arg / 4 % 2 = 1 then 1 else 0
  match arg % 4 with
  | 0 =>
    if (bnk s b).st = .active then cancelSwap b s
    else
      let n := s.seq.arms + 1
      let s := modBank b (fun k => { k with
        st := .waiting, valid := true, stopPend := false, order := n, armedAt := tbNow s, period0 := tbNow s
        targets := targetsOf (bankEntries s b) }) s
      syncWait (modSeq (fun q => { q with arms := n }) s)
  | 1 => (stopGo b s).2
  | _ => syncWait (haltBanks s)

/-- A record acts at its stamp plus the offset (R532, R533); the types that act on nothing are passed over. -/
def recAct (r : Rec) (s : State) : State :=
  let at_ := (r.stamp + s.cask.rpOfs.toNat) % 2 ^ 60
  let go := fun (d : Nat) (s : State) => reach (tickOf s (at_ + d)) s
  match r.type with
  | 0x03 => actEdge r at_ (go (fld (r.ws.getD 0 0) 0 10) s)
  | 0x04 => actDi r (go 0 s)
  | 0x05 => actAdc r at_ (go 0 s)
  | 0x09 => actState (r.arg % 16) (go 0 s)
  | 0x0A => actBank r.arg (go 0 s)
  | 0x0B =>
    let base := match s.cask.replay with | some x => x.cfgHash | none => []
    if r.ws = base then s else replayStop 6 (go 0 s)
  | 0x0F =>
    if (r.ws.getD 1 0) = 0 ∧ (r.ws.getD 2 0) = 0 then s
    else modReplay (fun x => { x with matched := x.matched &&& 0x7 }) s
  | _ => s

/-- The next segment (R519, R531): the chain, the session and the numbers must hold. -/
def replayTurn (r : Replay) (s : State) : State :=
  let s := modReplay (fun x => { x with seg := x.seg + 1 }) s
  if r.count ≤ r.seg + 1 then replayStop 0 s
  else match replayFetch (r.seg + 1) s with
    | (.waits, s') => if r.lastEnd + 250 ≤ tbNow s' then replayStop 2 s' else modReplay (fun x => { x with seg := r.seg }) s'
    | (.failed, s) => replayStop 2 s
    | (.damaged, s) => replayStop 3 s
    | (.words ws, s) =>
      let linked := decide (fld (ws.getD 0 0) 0 4 = 1) && !bit (ws.getD 0 0) 5 && (ws.drop 11).take 13 == r.prevHash
        && ws.getD 1 0 == r.words.getD 1 0 && decide (segNumber ws = (segNumber r.words + 1) % 2 ^ 40)
      if !linked then replayStop 3 (modReplay (fun x => { x with matched := x.matched &&& 0xB }) s)
      else if r.pages ∧ (segBase ws + s.cask.rpOfs.toNat) % 2 ^ 60 + 250 ≤ tbNow s then replayStop 2 s
      else modReplay (fun x => { x with
        words := ws, pos := 24, hi := segBase ws / 2 ^ 20, prevHash := word256 (shaOf ws) }) s

/-- REPLAY_RECORD_ACT (R532, R533): the next record, or behind the last one of a segment the next segment. -/
def execReplayRecordAct (s : State) : Res :=
  match s.cask.replay with
  | none => .next s
  | some r =>
    if !r.began ∨ r.result.isSome then .next s
    else if segEnd r.words ≤ r.pos then .next (replayTurn r s)
    else
      let x := recAt r.words r.pos r.hi
      let s := modReplay (fun y => { y with pos := x.next, hi := x.hi }) s
      let s := recAct x s
      .next (modReplay (fun y => { y with lastEnd := max y.lastEnd (tbNow s) }) s)

/-- REPLAY_END (R531, R533). -/
def execReplayEnd (s : State) : Res :=
  match s.cask.replay with
  | none => .next s
  | some r =>
    match r.result with
    | none => .next s
    | some x => .next (replayFinish x.toNat s)

end Sys2Proof.Machine
end

