-- ==== Sys2Proof/Machine/MmpEvents.lean ====
section
/-! DEFINITION. The memory master port at work (19_memory_master_port R537, R538, R546 to R550): transactions, status polls,
timeouts, and what the users of a request make of its end (R475, R526, R533, R552, R553). -/

namespace Sys2Proof.Machine

/-! ### The end of a request (R550) -/

/-- The first request of a user that has ended. -/
def mmpEnded (s : State) (u : MmpUser) : Option MmpReq :=
  s.mmp.reqs.find? fun q => q.user == u && (q.failed.isSome || decide (q.len ≤ q.done))

def mmpRemove (q : MmpReq) (s : State) : State := modMmp (fun m => { m with reqs := m.reqs.erase q }) s

/-- Host access, replay reads and RACK go on at once when their request has ended. A refetch waits for LINE_REFETCH_DONE and
an automatic page for AUTO_RACK_PAGE_DONE. -/
def mmpSettle (u : MmpUser) (s : State) : State :=
  match mmpEnded s u with
  | none => s
  | some q =>
    let ok := q.failed.isNone
    match u with
    | .host =>
      if q.write then regRunEnd ok [] (q.done / 3) (mmpRemove q s)
      else regRunEnd ok (bytesToWords q.data) 0 (mmpRemove q s)
    | .replay => replayPage q.data ok (mmpRemove q s)
    | .rack =>
      match q.reply with
      | some d => rackPageDone d ok (mmpRemove q s)
      | none => s
    | .refetch | .overlay => s

/-- A request stops with an error (R549, R550). -/
def mmpFail (u : MmpUser) (kind : Nat) (q : MmpReq) (s : State) : State :=
  let s := mmpPut u (fun q => { q with failed := some (BitVec.ofNat 3 kind) }) (mmpError kind q s)
  mmpSettle u s

/-! ### Transactions -/

/-- The user whose turn on the bus it is (R547): the first in order with a request that is not waiting for a busy device. -/
def mmpNext (s : State) : Option (MmpUser × MmpReq) :=
  mmpUsers.findSome? fun u =>
    match mmpHead s u with
    | some q => if q.write && q.step = 2 then none else some (u, q)
    | none => none

/-- MMP_TRANSACTION_START (R538, R544, R546, R547). A request is checked before its first transaction. -/
def execMmpTransactionStart (s : State) : Res :=
  match s.mmp.bus, mmpNext s with
  | none, some (u, q) =>
    match (if q.done = 0 ∧ q.step = 0 then mmpCheck s q else none) with
    | some kind => .next (mmpFail u kind q s)
    | none =>
      let s := reach (s.mmp.lastEnd + mckTicks s 2) s
      let (k, _, _) := mmpPlace s q
      let s := if q.write ∧ q.step = 0 ∧ !cfgBit s (.mmpSel k 2) 16 then mmpPut u (fun q => { q with step := 1 }) s else s
      .next (modMmp (fun m => { m with bus := some (u, s.now) }) s)
  | _, _ => .next s

/-- The bus is free. -/
def busFree (s : State) : State := modMmp (fun m => { m with bus := none, lastEnd := s.now }) s

/-- The chunk of a write is complete. -/
def chunkDone (u : MmpUser) (s : State) : State :=
  match mmpHead s u with
  | none => s
  | some q =>
    let n := chunkBytes s q
    mmpSettle u (mmpPut u (fun q => { q with done := q.done + n, step := 0, polls := 0 }) s)

/-- VERIFY asks for a read-back, else the chunk is complete (R546). -/
def chunkWritten (u : MmpUser) (q : MmpReq) (s : State) : State :=
  if cfgBit s (.mmpWin q.win 0) 9 then mmpPut u (fun q => { q with step := 3, polls := 0 }) s else chunkDone u s

/-- A transaction that brought what its kind needs has ended (R546). -/
def transactionDone (u : MmpUser) (q : MmpReq) (data : List (BitVec 8)) (s : State) : State :=
  let (k, _, _) := mmpPlace s q
  if !q.write then
    mmpSettle u (mmpPut u (fun q => { q with data := q.data ++ data, done := q.done + data.length }) s)
  else
    match q.step.toNat with
    | 0 => mmpPut u (fun q => { q with step := 1 }) s
    | 1 =>
      if cfgBit s (.mmpSel k 2) 17 then mmpPut u (fun q => { q with step := 2, polls := s.now }) s
      else chunkWritten u q s
    | _ =>
      if data = (q.data.drop (q.done + q.polls)).take data.length then
        let n := q.polls + data.length
        if chunkBytes s q ≤ n then chunkDone u s else mmpPut u (fun q => { q with polls := n }) s
      else mmpFail u 4 q s

/-- MMP_TRANSACTION_END (R538, R546): `data` are the bytes that the device delivered in a read transaction. -/
def execMmpTransactionEnd (data : List (BitVec 8)) (s : State) : Res :=
  match s.mmp.bus with
  | none => .next s
  | some (u, t) =>
    match mmpHead s u with
    | none => .next (busFree s)
    | some q =>
      let (clocks, n) := mmpShape s q
      let reads := !q.write || q.step = 3
      if reads ∧ data.length < n then .next s
      else
        let s := busFree (reach (t + mckTicks s clocks) s)
        .next (transactionDone u q (if reads then data.take n else []) s)

/-! ### Status polling (R546) -/

/-- A write whose device is busy: its user, its select. -/
def mmpPolling (s : State) : Option (MmpUser × MmpReq) :=
  mmpUsers.findSome? fun u =>
    match mmpHead s u with
    | some q => if q.write && q.step = 2 then some (u, q) else none
    | none => none

/-- End of the time that a chunk may stay busy. -/
def pollDeadline (s : State) (k : Fin 8) (q : MmpReq) : Nat := q.polls + 10 * us * 2 ^ selFld s k 3 8 4

/-- MMP_STATUS_POLL (R546, R547): the next status read of the chunk whose device is busy. -/
def execMmpStatusPoll (status : BitVec 8) (s : State) : Res :=
  match s.mmp.bus, mmpPolling s with
  | none, some (u, q) =>
    let (k, _, _) := mmpPlace s q
    let step := (selFld s k 3 12 4 + 1) * us
    let n := max 1 ((s.now - q.polls + step - 1) / step)
    let at_ := max (q.polls + n * step) (s.mmp.lastEnd + mckTicks s 2)
    if pollDeadline s k q < at_ then .next s
    else
      let t := mckTicks s (mckClocks s k false true (if isDtr s then 2 else 1))
      let s := busFree (reach (at_ + t) s)
      if bit status (selFld s k 3 4 3) = cfgBit s (.mmpSel k 3) 7 ∨ injStimAt s 7 7 k.val then .next s
      else .next (chunkWritten u q s)
  | _, _ => .next s

/-- MMP_POLL_TIMEOUT (R546, R549). -/
def execMmpPollTimeout (s : State) : Res :=
  match mmpPolling s with
  | none => .next s
  | some (u, q) =>
    let (k, _, _) := mmpPlace s q
    let inj := injStimAt s 7 7 k.val
    .next (whenSt inj injApplied (mmpFail u 1 q (reach (pollDeadline s k q) s)))

/-- MMP_STROBE_TIMEOUT (R538, R549): in DTR the device has not driven MDQS for 64 periods after the dummy phase of a read. -/
def execMmpStrobeTimeout (s : State) : Res :=
  match s.mmp.bus with
  | none => .next s
  | some (u, t) =>
    match mmpHead s u with
    | none => .next s
    | some q =>
      if isDtr s ∧ (!q.write ∨ q.step = 3) then
        let (k, _, _) := mmpPlace s q
        .next (mmpFail u 2 q (busFree (reach (t + mckTicks s (mckClocks s k true true 0 + 64)) s)))
      else .next s

/-! ### Refetched lines (R475) -/

/-- A refetched line is judged: it is rewritten, or the failure stands. -/
def refetched (k : Fin 2) (line : Nat) (words : List Word) (ok : Bool) (s : State) : State :=
  let s := modMmp (fun m => { m with
    reqs := m.reqs.filter fun q => q.user != .refetch
    bus := match m.bus with | some (.refetch, _) => none | b => b }) (modSeq (fun q => { q with refetch := none }) s)
  if ok ∧ words.length = 8 ∧ crc16 words = lineCrcOf s k line then
    report 7 3 k.val (((List.range 8).zip words).foldl (fun s p => memSet (bankIx k) (8 * line + p.1) (plainCell p.2) s) s)
  else report 7 4 k.val (bankSpoiled k s)

/-- LINE_REFETCH_DONE (R475, R550): the refetch of a bank's line has ended. Where its transactions were commands of their own
the request holds the words; else `words` and `ok` stand for them. -/
def execLineRefetchDone (bank : Bool) (words : List Word) (ok : Bool) (s : State) : Res :=
  match s.seq.refetch with
  | none => .next s
  | some (b, line) =>
    if b ≠ bank then .next s
    else
      let k : Fin 2 := if b then 1 else 0
      match mmpEnded s .refetch with
      | some q => .next (refetched k line (bytesToWords q.data) q.failed.isNone s)
      | none =>
        match (mmpHead s .refetch).bind fun q => (mmpCheck s q).map fun kind => (kind, q) with
        | some (kind, q) => .next (refetched k line [] false (mmpError kind q s))
        | none => .next (refetched k line words ok s)

end Sys2Proof.Machine
end

