-- ==== Sys2Proof/Machine/Security.lean ====
section
/-! DEFINITION. Security and the non-volatile store (17_security R482 to R507): signatures, ATTEST, SEAL_LOAD, OWNER_ENROLL,
OWNER_RELEASE, NV_UPDATE. -/

namespace Sys2Proof.Machine

/-! ### Signatures (R484, R485) -/

/-- The result of a verification (R485, R556): a signature that fails counts and is reported. -/
def sigJudge (ok : Bool) (s : State) : Bool × State :=
  let forced := (injAt s 9 1).isSome
  if ok && !forced then (true, s)
  else
    let s := report 9 1 63 (modSec (fun x => { x with refused := satInc x.refused }) s)
    (false, if forced then injApplied s else s)

/-- Verification with a public key over a message. -/
def verifyWith (key : Nat × Nat) (msg sig : List Word) (s : State) : Bool × State :=
  sigJudge (ecdsaVerify key.1 key.2 msg (sigOf sig).1 (sigOf sig).2) s

/-- The last 26 words of a payload: a signature. -/
def tailSig (ws : List Word) : List Word := ws.drop (ws.length - 26)

def serial2 (s : State) : List Word := serialWords s.sec.cellar.serial

/-! ### Store operations of the configuration (R506) -/

/-- The copy that is not current. -/
def otherConf (s : State) : Fin 2 := if curConf s = 0 then 1 else 0

/-- Rewrite the older copy whole, as the current one with a change. -/
def confStore (f : ConfCopy → ConfCopy) (s : State) : State :=
  let cur := s.sec.confs[curConf s]
  let n : Word := match cur.seq with | some q => if cur.good then q + 1 else 1 | none => 1
  modSec (fun x => { x with confs := x.confs.set (otherConf s) { f cur with seq := some n, good := true } }) s

/-- A TARGET 1 session is open (R506). -/
def confSession (s : State) : Bool := match s.sec.sess with | some u => u.conf | none => false

/-! ### The engine's jobs (R485) -/

/-- What the attestation takes in one clock when its job starts (R500). -/
def attestSnap (s : State) : List Word :=
  let total := fun (d : Nat) => min 1023 ((List.range 32).foldl (fun n c => n + (fltCnt s d c).total.toNat) 0)
  let slot := match curSlot s with | some k => k.val | none => 0
  [vintagesWord s ||| pack [(12, devCode s.pw.dev)], fwVer s,
    pack [(0, rbCount s), (7, (runBank s).rollback), (14, b2n s.pw.bank), (15, b2n s.pw.fallback), (16, b2n (isOwned s)),
      (17, b2n (s.sec.bundle.isSome && isOwned s)), (18, slot)],
    bundleSeq s.sec.bundle]
  ++ word256 (runBank s).hash ++ cfgHash s ++ [fltStat s, s.aon.fatalCnt.setWidth 20]
  ++ (List.range 6).map fun j => pack [(0, total (2 * j)), (10, total (2 * j + 1))]

/-- The job at the front starts. -/
def jobStart (s : State) : State :=
  match s.sec.jobs with
  | .attest d ws [] :: l => modSec (fun x => { x with jobs := .attest d ws (attestSnap s) :: l }) s
  | _ => s

def addJob (j : SecJob) (s : State) : State :=
  let s := modSec (fun x => { x with jobs := x.jobs ++ [j] }) s
  if s.sec.jobs.length = 1 then jobStart s else s

/-- The job at the front has ended; its command is answered. -/
def endJob (d : Deferred) (st : Status) (ws : List Word) (s : State) : State :=
  let s := completeDeferred d st ws (modSec (fun x => { x with jobs := x.jobs.drop 1 }) s)
  jobStart s

/-! ### ATTEST (R499, R500) -/

def attestKind (m : Msg) : Nat := fld (pword m 0) 0 2

def attestH : Handler where
  shape := fun m => match attestKind m with
    | 0 => 2 ≤ m.words.length
    | 3 => true
    | _ => m.words.length == 1
  range := fun _ m => fld (pword m 0) 2 18 == 0 && attestKind m != 3
  run := fun m s => (.later, addJob (.attest (defOf Op.attest m) m.words []) s)

/-- ATTEST (R499). -/
def execAttest (m : Msg) (s : State) : Res := interp Op.attest attestH m s

/-- The slots as KIND 2 shows them. -/
def slotWordsOf (s : State) : List Word :=
  let one := fun (x : OwnerSlot) => if x.revoked then 2 else if x.hash.isSome then 1 else 0
  let l := s.sec.cellar.slots.toList
  pack (((List.range 4).zip l).map fun x => (2 * x.1, one x.2)) :: l.flatMap fun x => word256 (x.hash.getD 0)

/-- The reply of an attestation. -/
def attestReply (ws snap : List Word) (s : State) : List Word × State :=
  match fld (ws.getD 0 0) 0 2 with
  | 1 => (s.sec.cellar.cert, s)
  | 2 => (slotWordsOf s, s)
  | _ =>
    let (sig, s) := devSign ([1#20] ++ serial2 s ++ ws ++ snap) s
    (snap ++ sig, s)

/-- ATTEST_COMPLETE (R499, R500). -/
def execAttestComplete (s : State) : Res :=
  match s.sec.jobs with
  | .attest d ws snap :: _ =>
    let snap := if snap.isEmpty then attestSnap s else snap
    let (r, s) := attestReply ws snap s
    .next (endJob d stOk r (modSec (fun x => { x with attests := satInc x.attests }) s))
  | _ => .next s

/-! ### SEAL_LOAD (R494 to R497) -/

/-- Bits of a sealed register that a pair sets. -/
def sealMask (r : Reg) : Nat := if r.rw = 0 then r.nv else r.rw

/-- NPAIR and NBANK of a bundle. -/
def bundlePairs (b : List Word) : Nat := (b.getD 5 0).toNat
def bundleBanks (b : List Word) : Nat := (b.getD 6 0).toNat

/-- A bundle from its words B0 onward, its signature included. -/
def parseBundle (b : List Word) : Bundle :=
  let np := bundlePairs b
  let digests := (b.drop (8 + 2 * np)).take (13 * bundleBanks b)
  { seq := b.getD 4 0
    pairs := (pairsOf ((b.drop 8).take (2 * np))).map fun p =>
      (p.1.toNat, match Reg.ofAddr p.1.toNat with | some r => p.2 &&& BitVec.ofNat 20 (sealMask r) | none => p.2)
    digests := (List.range (bundleBanks b)).map fun i => num256 ((digests.drop (13 * i)).take 13)
    permit := b.getD 7 0, raw := b }

/-- The length that the counts of a bundle give (R495). -/
def bundleLen (b : List Word) : Nat := 8 + 2 * bundlePairs b + 13 * bundleBanks b + 26

/-- Values that a bundle would put in force (R496). -/
def withBundle (b : Bundle) (s : State) : State :=
  foldSt sealedRegs (fun r s => if r.rw = 0 then s else cfgSet r (bundleValue s b r) s) s

/-- Test 2 of R496. -/
def bundleRange (s : State) (raw : List Word) (b : Bundle) : Bool :=
  let t := withBundle b s
  let v := bundleValue s b
  fld (raw.getD 1 0) 0 20 == 1 && b.seq != 0 && bundlePairs raw ≤ 1023 && bundleBanks raw ≤ 8
    && b.pairs.all (fun p => match Reg.ofAddr p.1 with
      | some r => r.isSealed && regRange t r p.2
      | none => false)
    && decide (cfgFld t .spdMin 0 13 < cfgFld t .spdMax 0 13)
    && wdRegsOk (v .wdCfg) (v .wdClose) (v .wdTimeout) (v .wdWarn)

/-- SEQ of the stored bundle; 0 when none is stored. -/
def storedSeq (s : State) : Word := (s.sec.confs[curConf s].bundle).getD 4 0

/-- Tests 1 to 3 of R496, which need no signature; the SEQ test is left out at BOOT (R498). -/
def bundleRefused (s : State) (raw : List Word) (seqTest : Bool) : Option Status :=
  let b := parseBundle raw
  if (ownerKey s).isNone then some stDenied
  else if !bundleRange s raw b then some stRange
  else if !((raw.getD 2 0 == 0 && raw.getD 3 0 == 0) || [raw.getD 2 0, raw.getD 3 0] == serial2 s) then some stDenied
  else if seqTest && (decide (b.seq < storedSeq s) || decide (b.seq < bundleSeq s.sec.bundle)) then some stDenied
  else none

/-- Test 4 of R496: the owner signature, over purpose 0x00011. -/
def bundleSigned (s : State) (raw : List Word) : Bool :=
  match ownerKey s with
  | some (x, y) =>
    let sig := sigOf (tailSig raw)
    raw.getD 0 0 == 0x11 && ecdsaVerify x y (raw.take (raw.length - 26)) sig.1 sig.2
  | none => false

def sealGo (m : Msg) (s : State) : Ans × State :=
  let raw := m.words.drop 1
  match bundleRefused s raw true with
  | some st => (.reply st [], s)
  | none =>
    let (ok, s) := sigJudge (bundleSigned s raw) s
    if ok then (.later, addJob (.sealing (defOf Op.sealLoad m) (parseBundle raw) (bit (pword m 0) 0)) s)
    else (.reply stDenied [], s)

def sealH : Handler where
  stateOk := fun s m => !replaying s && !(bit (pword m 0) 0 && confSession s)
  shape := fun m => m.words.length == 1 + bundleLen (m.words.drop 1)
  range := fun _ m => fld (pword m 0) 1 19 == 0
  run := sealGo

/-- SEAL_LOAD (R495, R496). -/
def execSealLoad (m : Msg) (s : State) : Res := interp Op.sealLoad sealH m s

/-- SEAL_LOAD_COMPLETE (R497): in CONFIG and MAINTENANCE the bundle takes effect, else it waits for CONFIG. -/
def execSealLoadComplete (s : State) : Res :=
  match s.sec.jobs with
  | .sealing d b store :: _ =>
    let now := inConfMaint s
    let s := if now then bundleApply b s else modSec (fun x => { x with pending := some b }) s
    let s := if store then confStore (fun c => { c with bundle := b.raw }) s else s
    .next (endJob d stOk [pack [(0, b2n now), (1, b2n store)]] s)
  | _ => .next s

/-! ### OWNER_ENROLL and OWNER_RELEASE (R490 to R493) -/

/-- The lowest empty slot. -/
def emptySlot (s : State) : Option (Fin 4) :=
  ([0, 1, 2, 3] : List (Fin 4)).find? fun k => s.sec.cellar.slots[k].hash.isNone

/-- The slot that an enrolment of a key would use, and whether it is a new one (R491). -/
def enrollSlot (s : State) (h : Nat) : Option (Fin 4 × Bool) :=
  match curSlot s with
  | some k => if s.sec.cellar.slots[k].hash = some h then some (k, false) else none
  | none => (emptySlot s).map fun k => (k, true)

def enrollGo (m : Msg) (s : State) : Ans × State :=
  let key := m.words.take 26
  let x := num256 (key.take 13)
  let y := num256 (key.drop 13)
  match enrollSlot s (keyHash x y) with
  | none => (.reply stDenied [], s)
  | some (k, fresh) =>
    let (ok, s) := verifyWith (x, y) ([0x13#20] ++ serial2 s ++ key) (tailSig m.words) s
    if ok then (.later, addJob (.enroll (defOf Op.ownerEnroll m) x y (BitVec.ofNat 2 k.val) fresh) s)
    else (.reply stDenied [], s)

def enrollH : Handler where
  stateOk := fun s _ => !confSession s
  shape := fun m => m.words.length == 52
  run := enrollGo

/-- OWNER_ENROLL (R491). -/
def execOwnerEnroll (m : Msg) (s : State) : Res := interp Op.ownerEnroll enrollH m s

def modSlot (k : Fin 4) (f : OwnerSlot → OwnerSlot) (s : State) : State :=
  modSec (fun x => { x with cellar := { x.cellar with slots := vmod x.cellar.slots k f } }) s

/-- OWNER_ENROLL_COMPLETE (R491): the key record is stored, then a new slot is programmed. -/
def execOwnerEnrollComplete (s : State) : Res :=
  match s.sec.jobs with
  | .enroll d x y k fresh :: _ =>
    let slot : Fin 4 := ⟨k.toNat, k.isLt⟩
    let s := confStore (fun c => { c with key := some (x, y), bundle := if fresh then [] else c.bundle }) s
    let s := if fresh then
        modSlot slot (fun o => { o with hash := some (keyHash x y) }) (modSec (fun x => { x with bundle := none, pending := none }) s)
      else s
    .next (raise 87 (endJob d stOk [pack [(0, slot.val), (2, b2n fresh)]] s))
  | _ => .next s

def releaseGo (m : Msg) (s : State) : Ans × State :=
  match curSlot s, ownerKey s with
  | some k, some key =>
    let (ok, s) := verifyWith key ([0x12#20] ++ serial2 s ++ [BitVec.ofNat 20 k.val]) m.words s
    if ok then (.later, addJob (.release (defOf Op.ownerRelease m) (BitVec.ofNat 2 k.val)) s)
    else (.reply stDenied [], s)
  | _, _ => (.reply stDenied [], s)

def releaseH : Handler where
  stateOk := fun s _ => !confSession s
  shape := fun m => m.words.length == 26
  run := releaseGo

/-- OWNER_RELEASE (R493). -/
def execOwnerRelease (m : Msg) (s : State) : Res := interp Op.ownerRelease releaseH m s

/-- OWNER_RELEASE_COMPLETE (R493): REVOKED is programmed, then key record and bundle are removed. Register values and the
watchdog stay. -/
def execOwnerReleaseComplete (s : State) : Res :=
  match s.sec.jobs with
  | .release d k :: _ =>
    let s := modSlot ⟨k.toNat, k.isLt⟩ (fun o => { o with revoked := true }) s
    let s := confStore (fun c => { c with key := none, bundle := [] }) s
    .next (raise 87 (endJob d stOk [] (modSec (fun x => { x with bundle := none, pending := none }) s)))
  | _ => .next s

/-! ### NV_UPDATE (R503 to R507) -/

/-- The firmware bank that was not booted (R488). -/
def spareBank (s : State) : Fin 2 := if s.pw.bank then 0 else 1

def updConf (m : Msg) : Bool := bit (pword m 0) 0
def updAborts (m : Msg) : Bool := bit (pword m 0) 1

def updRange (m : Msg) : Bool :=
  let n := (pword m 2).toNat
  let r := (pword m 3).toNat
  fld (pword m 0) 2 18 == 0 &&
    (updAborts m || (1 ≤ n && (if updConf m then n ≤ 8192 && r == 0 else n ≤ 54528 && r ≤ 64)))

/-- ABORT closes the port's session (R503, R507); what it interrupts is answered ABORTED. -/
def updAbort (s : State) : State :=
  let s := foldSt (s.deferred.filter fun d => (match s.sec.sess with | some u => u.phase != .opened && u.cmd == d | none => false))
    (fun d s => completeDeferred d stAborted [] s) s
  closeSession 2 s

/-- The target region is erased. -/
def eraseTarget (conf : Bool) (s : State) : State :=
  if conf then
    modSec (fun x => { x with confs := x.confs.set (otherConf s) { image := [], key := none, bundle := [], seq := none, good := false } }) s
  else modSec (fun x => { x with banks := x.banks.set (spareBank s) .blank }) s

def beginGo (m : Msg) (s : State) : Ans × State :=
  if updAborts m then (.reply stOk [], updAbort s)
  else
    let (ok, s) :=
      if isOwned s then
        match ownerKey s with
        | some key => verifyWith key ([0x14#20] ++ serial2 s ++ m.words.take 17) (tailSig m.words) s
        | none => (false, s)
      else (true, s)
    if ok then
      let u : Session :=
        { phase := .erasing, conf := updConf m, port := m.port, version := pword m 1, length := (pword m 2).toNat
          rollback := fld (pword m 3) 0 7, hash := num256 ((m.words.drop 4).take 13), data := [], sig := (0, 0)
          cmd := defOf Op.nvBegin m }
      (.later, modAon (fun a => { a with updFlag := true }) (modSec (fun x => { x with sess := some u }) (eraseTarget u.conf s)))
    else (.reply stDenied [], s)

def beginH : Handler where
  stateOk := fun s m => m.words.isEmpty || updAborts m || s.sec.sess.isNone
  shapeNow := fun s m => m.words.length == (if updAborts m then 1 else if isOwned s then 43 else 17)
  range := fun _ m => updRange m
  auth := fun s m =>
    if updAborts m then (match s.sec.sess with | some u => u.port == m.port | none => true)
    else updConf m || rbCount s ≤ fld (pword m 3) 0 7
  run := beginGo

/-- NV_UPDATE_BEGIN (R503). -/
def execNvUpdateBegin (m : Msg) (s : State) : Res := interp Op.nvBegin beginH m s

/-- NV_UPDATE_BEGIN with ABORT (R503, R507). -/
def execNvUpdateAbort (m : Msg) (s : State) : Res := interp Op.nvBegin beginH m s

def modSess (f : Session → Session) (s : State) : State := modSec (fun x => { x with sess := x.sess.map f }) s

/-- NV_UPDATE_ERASE_DONE (R503): within 300 ms. -/
def execNvUpdateEraseDone (s : State) : Res :=
  match s.sec.sess with
  | some u =>
    if u.phase = .erasing then
      let s := modSess (fun u => { u with phase := .opened }) s
      .next (raise 93 (if s.deferred.contains u.cmd then completeDeferred u.cmd stOk [] s else s))
    else .next s
  | none => .next s

/-- A session that takes words (R504). -/
def sessOpen (s : State) : Option Session := s.sec.sess.filter fun u => u.phase = .opened

def ownSession (s : State) (m : Msg) : Bool := match s.sec.sess with | some u => u.port == m.port | none => true

def dataH : Handler where
  stateOk := fun s _ => (sessOpen s).isSome
  range := fun s m => match s.sec.sess with | some u => u.data.length + m.words.length ≤ u.length | none => true
  auth := ownSession
  run := fun m s =>
    let s := modSess (fun u => { u with data := u.data ++ m.words }) s
    (.reply stOk [BitVec.ofNat 20 (match s.sec.sess with | some u => u.data.length | none => 0)], s)

/-- NV_UPDATE_DATA (R504, R148): a stream cut short leaves the session as it was. -/
def execNvUpdateData (m : Msg) (s : State) : Res := interp Op.nvData dataH m s

def commitH : Handler where
  stateOk := fun s _ => match sessOpen s with | some u => u.data.length == u.length | none => false
  shapeNow := fun s m => m.words.length == (match s.sec.sess with | some u => if u.conf then 1 else 27 | none => 1)
  range := fun _ m => pword m 0 == 0
  auth := ownSession
  run := fun m s => (.later, modSess (fun u => { u with
    phase := .committing, sig := sigOf (m.words.drop 1), cmd := defOf Op.nvCommit m }) s)

/-- NV_UPDATE_COMMIT (R505). -/
def execNvUpdateCommit (m : Msg) (s : State) : Res := interp Op.nvCommit commitH m s

/-- The greater COMMIT_SEQ of the two banks (R505). -/
def topSeq (s : State) : Nat :=
  maxNat (s.sec.banks.toList.map fun b => match b.commitSeq with | some q => q.toNat | none => 0)

/-- The region of a session gets its header, the sequence number last (R505, R506). -/
def commitRegion (u : Session) (s : State) : State :=
  if u.conf then confStore (fun c => { c with image := u.data }) s
  else
    let b : FwBank :=
      { version := u.version, rollback := u.rollback, hash := u.hash, sigR := u.sig.1, sigS := u.sig.2
        commitSeq := some (BitVec.ofNat 20 (topSeq s + 1)), crcOk := true, image := u.data }
    modSec (fun x => { x with banks := x.banks.set (spareBank s) b }) s

/-- The COMMIT is answered. -/
def commitReply (u : Session) (st : Status) (s : State) : State :=
  if s.deferred.contains u.cmd then completeDeferred u.cmd st [] s else s

/-- NV_UPDATE_COMMIT_DONE (R505): the hash, the Knadin signature, the header; then the reboot is due. -/
def execNvUpdateCommitDone (s : State) : Res :=
  match s.sec.sess with
  | some u =>
    if u.phase ≠ .committing then .next s
    else if shaOf u.data ≠ u.hash then .next (commitReply u stCheck (closeSession 4 s))
    else
      let msg := [0x21#20, u.version, BitVec.ofNat 20 u.rollback, BitVec.ofNat 20 u.length] ++ word256 u.hash
      let (ok, s) := if u.conf then (true, s)
        else sigJudge (ecdsaVerify Config.knadinX Config.knadinY msg u.sig.1 u.sig.2) s
      if !ok then .next (commitReply u stDenied (closeSession 5 s))
      else
        let s := closeSession 1 (commitRegion u s)
        let s := modSec (fun x => { x with rebootDue := some (u.cmd.port, u.cmd.tag, s.now + 10 * ms) }) s
        .next (commitReply u stOk s)
  | none => .next s

end Sys2Proof.Machine
end

