-- ==== Sys2Proof/Machine/PowerBoot.lean ====
section
/-! DEFINITION. Supplies, resets, BOOT, standby and device states (03_power_states_boot R76 to R109, R578, R579; 17 R488, R489,
R498; 15 R443, R446, R457). -/

namespace Sys2Proof.Machine

/-! ### The logic die stops (R81, R83, R100) -/

/-- A field die while the logic die stands still: its timebase is not that of the links any more (log entry 6). -/
def dieAlone (d : Field) : Field := { d with nextUp := 0, slices := d.slices.map fun x => { x with safeAt := 0 } }

/-- The links fall silent: the field dies that were linked lose them (R384). -/
def linksStop (s : State) : State :=
  foldSt groups (fun g s => if (fdie s g).powered && (fdie s g).linked then dieLost g s else s) s

/-- What the reset of the logic die clears and keeps (R81, R103, R370, R507): pins, the always-on domain, the non-volatile
stores and the field dies stay. -/
def logicOff (s : State) : State :=
  let s := closeSession 3 (linksStop s)
  { State.reset with
    pending := s.pending, now := s.now, free := s.free, aon := s.aon, fields := s.fields.map dieAlone
    pw := { Power.reset with
      vsupGood := s.pw.vsupGood, vioGood := s.pw.vioGood, resetLowUntil := s.pw.resetLowUntil, safePin := s.pw.safePin
      stbyLow := s.pw.stbyLow, stbyRemembered := s.pw.stbyRemembered, lastBringUp := s.pw.lastBringUp }
    cal := { Cal.reset with copies := s.cal.copies, cur := s.cal.cur }
    sec := { Sec.reset with cellar := s.sec.cellar, banks := s.sec.banks, confs := s.sec.confs } }

/-- A reset takes hold (R83, R106); BOOT comes next. -/
def takeHold (cause : BitVec 7) (s : State) : State :=
  modAon (fun a => { a with resetCause := a.resetCause ||| cause, updRebooted := bit cause 5 }) (logicOff s)

/-- The always-on domain has lost its contents and the device is OFF (R80). -/
def powerOff (s : State) : State :=
  modPw (fun p => { p with dev := .off, boot := { p.boot with phase := .idle }, vsupGood := false, stbyRemembered := false })
    { logicOff s with aon := { Aon.reset with resetCause := 0 } }

/-! ### Supplies and RESET_N -/

/-- POWER_ON (R76, R81, R106): the one cause that clears the always-on domain. -/
def execPowerOn (s : State) : Res :=
  if s.pw.dev = .off then
    .next (modPw (fun p => { p with vsupGood := true, vioGood := true }) (modAon (fun _ => .reset) (logicOff s)))
  else .next s

/-- SAFE frames leave before a collapse stops the logic die, or not: the spec leaves it open (R79, log entry 12). -/
def collapseGo (s : State) : State :=
  let leaves := Config.safeOnCollapse s.free
  let s := nextFree s
  if leaves then startReset 0x02 false s else takeHold 0x02 s

/-- VSUP_BROWNOUT (R79, R81). -/
def execVsupBrownout (collapse : Bool) (s : State) : Res :=
  if s.pw.dev = .off ∨ !s.pw.vsupGood then .next s
  else
    let s := modPw (fun p => { p with vsupGood := false }) s
    .next (if collapse then collapseGo s else startReset 0x02 false s)

/-- VSUP_LOSS (R80). -/
def execVsupLoss (s : State) : Res := if s.pw.dev = .off then .next s else .next (powerOff s)

/-- VIO_LOSS (R81). -/
def execVioLoss (s : State) : Res :=
  if s.pw.dev = .off ∨ !s.pw.vioGood then .next s
  else .next (startReset 0x04 false (modPw (fun p => { p with vioGood := false }) s))

/-- Whether a low pulse on RESET_N is taken (R82); between 0.5 µs and 1 µs the spec leaves it open (log entry 12). -/
def pulseTaken (ns : Nat) (s : State) : Bool × State :=
  if ns < 500 then (false, s)
  else if 1000 ≤ ns then (true, s)
  else (Config.pulseTaken s.free, nextFree s)

/-- RESET_N_PULSE (R82). -/
def execResetNPulse (ns : Nat) (s : State) : Res :=
  let (taken, s) := pulseTaken ns s
  if taken then
    let s := modPw (fun p => { p with resetLowUntil := max p.resetLowUntil (s.now + (ns + 3) / 4) }) s
    .next (if s.pw.dev = .off then s else startReset 0x08 false s)
  else .next s

/-- SAFE frames that must still leave on a link before the reset takes hold (R83). -/
def safeOwed (s : State) (g : Grp) : Nat :=
  match s.pw.resetSeq with
  | some q => if linksRun s && (lnk s g).st != .down then 3 - q.sent[g] else 0
  | none => 0

/-- RESET_TAKE_HOLD (R83): the SAFE frames that are missing leave first (log entry 16). -/
def execResetTakeHold (s : State) : Res :=
  match s.pw.resetSeq with
  | none => .next s
  | some q =>
    let s := foldSt groups (fun g s => (List.range (safeOwed s g)).foldl (fun s _ => sendDown g s) s) s
    .next (takeHold q.cause s)

/-! ### BOOT: straps, PLL, pattern test -/

def modBoot (f : Boot → Boot) (s : State) : State := modPw (fun p => { p with boot := f p.boot }) s

/-- BOOT is in a phase, and no reset has been recognised. -/
def bootAt (s : State) (ph : BootPhase) : Bool := s.pw.dev == .boot && s.pw.boot.phase == ph && !resetting s

/-- The mode straps are sampled (R63, R64, R137). -/
def sampleStraps (a b : Bool) (s : State) : State :=
  let set := fun (v : Bool) (x : PortSt) => { x with daisy := v, awake := !v }
  modPort .b (set b) (modPort .a (set a) s)

/-- BOOT_BEGIN (R87, R63): the cause of BOOT has ended: supplies good, RESET_N high. A BOOT that R88 has restarted samples the
straps again. -/
def execBootBegin (strapA strapB : Bool) (s : State) : Res :=
  if bootAt s .waiting then
    let s := reach s.pw.resetLowUntil s
    let s := modPw (fun p => { p with vsupGood := true, vioGood := true }) s
    .next (sampleStraps strapA strapB (modBoot (fun b => { b with phase := .pll, t0 := s.now }) s))
  else if bootAt s .pll && decide (s.now ≤ s.pw.boot.t0 + 10 * us) then .next (sampleStraps strapA strapB s)
  else .next s

/-- PLL_LOCK (R194, R470): the timebase starts at 0 and all valid bits are cleared. -/
def execPllLock (s : State) : Res :=
  if bootAt s .pll && decide (s.now ≤ s.pw.boot.t0 + ms) then
    let s := modBoot (fun b => { b with phase := .pattern }) (modPw (fun p => { p with tb0 := some s.now }) s)
    .next (modMems (fun _ => Vector.replicate 16 []) s)
  else .next s

/-- PLL_LOCK_TIMEOUT (R88): BOOT starts again from t0. -/
def execPllLockTimeout (s : State) : Res :=
  if bootAt s .pll then
    let s := reach (s.pw.boot.t0 + ms) s
    .next (modBoot (fun b => { b with t0 := s.now }) s)
  else .next s

/-- A defect that the pattern test of BOOT found (R89, R478). -/
def bootFault (f : PatternFault) (s : State) : State :=
  if f.mendable then testFault f s
  else
    fatalInBoot 7 5 f.mem.val
      (modCnt f.mem (fun c => { c with uncorr := satInc c.uncorr, lbadV := true, lbad := f.addr }) s)

/-- The fault that a held injection of 7/5 makes the test find (R556): its word address is not stated (log entry 28). -/
def injectedFault (s : State) : List PatternFault × State :=
  match s.aon.inj75 with
  | some u =>
    let (w, s) := drawWord s
    ([{ mem := ⟨u.toNat % 16, by omega⟩, addr := w, mendable := false }], modAon (fun a => { a with inj75 := none }) s)
  | none => ([], s)

/-- PATTERN_TEST_END (R89, R470, R478). -/
def execPatternTestEnd (faults : List PatternFault) (s : State) : Res :=
  if bootAt s .pattern then
    let (more, s) := injectedFault s
    let l := selFaults 0xFFFF (faults ++ more)
    let s := modPw (fun p => { p with patternFail := l.any fun f => !f.mendable }) (modMems (fun _ => Vector.replicate 16 []) s)
    .next (modBoot (fun b => { b with phase := .firmware }) (foldSt l bootFault s))
  else .next s

/-! ### BOOT: firmware, configuration, calibration, seal -/

/-- BOOT has ended: its duration, and what it has left pending (R87, R109, R505). -/
def bootDone (s : State) : State :=
  let b := s.pw.boot
  let s := modPw (fun p => { p with
    bootMs := BitVec.ofNat 8 (min 255 ((s.now - b.t0) / ms)), boot := { p.boot with phase := .idle }
    nvDefault := b.nvFault }) s
  let s := if b.fromStandby then raise 94 s else s
  let s := if s.aon.fatalHeld then raise 84 s else s
  let s := if s.aon.updRebooted then raise 93 (modAon (fun a => { a with updRebooted := false }) s) else s
  let s := foldSt ports (fun p s => modPort p (fun x => { x with
    dcfg := cfgGet s (.portDcfg p), dmap := cfgGet s (.portDmap p) }) s) s
  modGov (fun g => { g with changedAt := s.now }) s

/-- BOOT ends in LOCKDOWN (R90, R486, R98): the groups are still brought up, with SAFE frames and no configuration. -/
def bootLockdown (s : State) : State :=
  let s := modPw (fun p => { p with stbyRemembered := false }) s
  bootDone (changeState .lockdown (modBoot (fun b => { b with noImage := true }) s))

def bankHeaderOk (k : FwBank) : Bool := k.crcOk && k.commitSeq.isSome

/-- The active bank: the valid header with the greater COMMIT_SEQ (R487). -/
def activeFw (s : State) : Fin 2 :=
  let seq := fun (b : Fin 2) =>
    let k := s.sec.banks[b]
    if bankHeaderOk k then (match k.commitSeq with | some q => q.toNat + 1 | none => 0) else 0
  if seq 0 < seq 1 then 1 else 0

/-- The four tests of a bank (R488). -/
def bankValid (s : State) (b : Fin 2) : Bool :=
  let k := s.sec.banks[b]
  let msg := [0x21#20, k.version, BitVec.ofNat 20 k.rollback, BitVec.ofNat 20 k.image.length] ++ word256 k.hash
  bankHeaderOk k && shaOf k.image == k.hash && ecdsaVerify Config.knadinX Config.knadinY msg k.sigR k.sigS
    && decide (rbCount s ≤ k.rollback)

/-- The bank that boots, and whether it is the fallback (R87, R488). -/
def bootBank (s : State) : Option (Fin 2 × Bool) :=
  let a := activeFw s
  let o : Fin 2 := if a = 0 then 1 else 0
  if bankValid s a then some (a, false) else if bankValid s o then some (o, true) else none

/-- The programmed counter cells form one unbroken run from cell 0 (R482). -/
def cellsRun (s : State) : Bool := s.sec.cellar.cells == BitVec.ofNat 64 (2 ^ rbCount s - 1)

/-- Range rules of one pair of the configuration image (R579): those of its own register; the rules that compare SPD_MIN with
SPD_MAX and the watchdog registers with one another follow at the end. -/
def pairOk (t : State) (r : Reg) (v : Word) : Bool :=
  match r with
  | .spdMin | .spdMax => 2 ≤ fld v 0 13 && fld v 0 13 ≤ 6000
  | .ch n .cfg => modeStateOk t n (fld v 0 4) && regRange (afterWrite r v t) r v
  | r => regRange (afterWrite r v t) r v

/-- The NV fields of a register take a pair's value. -/
def pairPut (r : Reg) (v : Word) (t : State) : State :=
  match r with
  | .ch n .cfg => afterWrite (.ch n .cfg) v t
  | r =>
    let k : Word := BitVec.ofNat 20 r.nv
    cfgSet r ((cfgGet t r &&& ~~~k) ||| (v &&& k)) t

/-- Pairs in image order (R579): the values so far, and whether one was not applied. -/
def applyPairs : List (Word × Word) → State → Bool × State
  | [], t => (false, t)
  | (a, v) :: l, t =>
    match Reg.ofAddr a.toNat with
    | some r =>
      if r.nv ≠ 0 ∧ pairOk t r (v &&& BitVec.ofNat 20 (r.nv ||| r.wmask)) then applyPairs l (pairPut r v t)
      else (true, (applyPairs l t).2)
    | none => (true, (applyPairs l t).2)

/-- Registers that a failed comparison returns to their factory values (R579). -/
def revert (rs : List Reg) (t : State) : State := foldSt rs (fun r t => cfgSet r (BitVec.ofNat 20 r.factory) t) t

/-- The rules that compare registers (R579). -/
def crossRules (t : State) : Bool × State :=
  let spd := cfgFld t .spdMin 0 13 < cfgFld t .spdMax 0 13
  let wd := wdRegsOk (cfgGet t .wdCfg) (cfgGet t .wdClose) (cfgGet t .wdTimeout) (cfgGet t .wdWarn)
  let t := if spd then t else revert [.spdMin, .spdMax] t
  let t := if wd then t else revert [.wdCfg, .wdClose, .wdTimeout, .wdWarn] t
  (!spd || !wd, t)

/-- The watchdog takes its NV values; the owner only with the seal (R466). -/
def wdFromNv (s : State) : State :=
  let v := nvValue s
  let cfg := v .wdCfg
  let cfg := if isOwned s then cfg else cfg &&& 0xFFF3F#20
  modWd (wdLoad cfg (v .wdClose) (v .wdTimeout) (v .wdWarn)) s

/-- NV fields that are no configuration word: watchdog registers, LINECHK and LOADED of a bank. -/
def nvElsewhere (s : State) : State :=
  let s := revert [.wdCfg, .wdClose, .wdTimeout, .wdWarn, .bankStat 0, .bankStat 1] s
  foldSt ([0, 1] : List (Fin 2)) (fun b s =>
    cfgSet (.bankCfg b) (cfgGet s (.bankCfg b) &&& 0x03FFF#20)
      (modBank b (fun k => { k with
        loaded := bit (nvValue s (.bankStat b)) 0, lineChk := bit (nvValue s (.bankCfg b)) 14 }) s)) s

/-- The configuration image comes into force (R579). -/
def loadConfig (s : State) : State :=
  let (bad, t) := applyPairs (pairsOf (s.sec.confs[curConf s]).image) (setCfgList [] s)
  let (rev, t) := crossRules t
  let s := setNvList t.cfg (setCfgList t.cfg s)
  modBoot (fun b => { b with nvFault := bad || rev }) (wdFromNv (nvElsewhere s))

/-- CALCFG of every channel as a copy of the store holds it (R369). -/
def loadAuth (auth : Sparse) (s : State) : State :=
  foldSt chans (fun n s =>
    let r := Reg.ch n .calcfg
    let w := lookupD 0 r.addr auth
    let s := cfgSet r w s
    (setNvList (insertKey r.addr w (w != BitVec.ofNat 20 r.factory) s.nv) s)) s

/-- One copy of the calibration store comes into force. -/
def loadCopy (k : CalCopy) (s : State) : State := loadAuth k.auth (modCal (fun c => { c with trims := k.trims }) s)

/-- The calibration store is loaded (R91, R370, R556). -/
def loadCal (s : State) : State :=
  let dead := s.aon.inj76
  let s := modAon (fun a => { a with inj76 := false }) s
  let c := s.cal
  if !dead && (c.copies[calCopyIx c.cur]).good then loadCopy c.copies[calCopyIx c.cur] s
  else
    let s := modPw (fun p => { p with calFallback := true }) s
    if !dead && (c.copies[calCopyIx !c.cur]).good then
      loadCopy c.copies[calCopyIx !c.cur] (modCal (fun c => { c with cur := !c.cur }) s)
    else report 7 6 63 (modCal (fun c => { c with trims := [], nominal := true }) s)

/-- The seal at BOOT (R492, R498): the owner's key record, then the stored bundle; cause 6 for each that is invalid. -/
def loadSeal (s : State) : State :=
  if !isOwned s then s
  else
    let s := if (ownerKey s).isNone then report 9 6 63 s else s
    let raw := (s.sec.confs[curConf s]).bundle
    if raw.isEmpty then s
    else if (bundleRefused s raw false).isNone && bundleSigned s raw then bundleApply (parseBundle raw) s
    else report 9 6 63 s

/-- The row t0 + 60 ms. A security failure ends BOOT. -/
def bootLoad (s : State) : State :=
  let s := loadSeal (loadCal (loadConfig s))
  if s.pw.boot.secFail ≠ 0 then bootLockdown s else modBoot (fun b => { b with phase := .groups }) s

/-- Security failures that the row t0 + 40 ms found (R482, R486, R90). -/
def bootCauses (selfTest : Bool) (s : State) : List Nat :=
  (if selfTest then [] else [4]) ++ (if s.sec.cellar.factoryOk then [] else [2]) ++ (if cellsRun s then [] else [5])
    ++ (if (bootBank s).isSome then [] else [3])

/-- FIRMWARE_VERIFY (R482, R488, R90, R579): banks and cellar are checked, then configuration, calibration and seal are
loaded. -/
def execFirmwareVerify (selfTest : Bool) (s : State) : Res :=
  if bootAt s .firmware then
    let bad := bootCauses selfTest s
    let s := match bootBank s with
      | some (b, fb) => modSec (fun x => { x with cfgSeq := (s.sec.banks[b]).commitSeq.getD 0 })
          (modPw (fun p => { p with bank := b == 1, fallback := fb }) s)
      | none => s
    let s := modSec (fun x => { x with cellarOk := s.sec.cellar.factoryOk && cellsRun s }) s
    match bad with
    | [] => .next (bootLoad s)
    | c :: l => .next (foldSt l (fun c s => report 9 c 63 s) (bootLockdown (report 9 c 63 s)))
  else .next s

/-! ### Standby (R99 to R102) -/

/-- Everything that a port has taken and not answered is answered ABORTED. -/
def abortPort (p : Port) (s : State) : State :=
  let x := prt s p
  let now := fun (op : Op) (tag : BitVec 7) (wake : Bool) s =>
    queueReply p stAborted tag wake (refusalWords op stAborted (devStateWord s)) s
  let s := match x.rx with
    | .payload h0 _ .accept | .stream h0 _ _ _ _ => now (hdrOp h0) (hdrTag h0) (bit h0 2) s
    | _ => s
  let s := foldSt x.cmdBuf (fun e s => now e.op e.msg.tag e.msg.wake s) s
  modPort p (fun x => { x with cmdBuf := [], rx := .header, tx := [], ignoring := true }) s

/-- Commands in the middle of their execution are answered ABORTED. -/
def abortJobs (s : State) : State :=
  let now := fun (d : Deferred) s => queueReply d.port stAborted d.tag d.wake (refusalWords d.op stAborted (devStateWord s)) s
  let s := match s.grpJob with | some j => now j.cmd s | none => s
  let s := match s.regJob with | some j => (match j.cmd with | some d => now d s | none => s) | none => s
  let s := match s.cfgJob with | some j => now j.cmd s | none => s
  setGrpJob none (setRegJob none (setCfgJob none s))

/-- Standby entry begins (R100). -/
def beginStandby (s : State) : State :=
  let s := foldSt ports abortPort (abortJobs (completeAll stAborted (fun _ => true) s))
  let s := wdStop (closeSession 3 s)
  let s := stopWalk (setBank 1 .unarmed (setBank 0 .unarmed (dropActs .all s)))
  let s := modGov (fun g => { g with waiting := [] }) s
  let s := modAon (fun a => { a with stbyUnit := cfgBit s .stbyCfg 0, stbyCount := cfgGet s .stbyTimer }) s
  modPw (fun p => { p with stby := .entering, latched := 0, stbyRemembered := false, tb0 := none }) (linksStop s)

/-- The device wakes (R101, R106, R107). -/
def wakeUp (causes : Nat) (latched : Bool) (s : State) : State :=
  let s := modAon (fun a => { a with
    resetCause := a.resetCause ||| 0x40, wakeCause := BitVec.ofNat 5 (causes + 16 * b2n latched) }) s
  modPw (fun p => { p with dev := .boot, prev := .boot, boot := { Boot.reset with fromStandby := true } }) s

/-- Entry is complete (R100); a source that came meanwhile wakes the device at once (R101). -/
def endStandbyEntry (s : State) : State :=
  let woken := s.pw.latched
  let s := modAon (fun a => { a with stbyFrom := s.now }) (logicOff s)
  let s := modPw (fun p => { p with dev := .standby, boot := { p.boot with phase := .idle } }) s
  if woken = 0 then s else wakeUp woken.toNat true s

/-- STANDBY_ENTRY (R100): entry ends; one that waits for the fetch of its reply begins 1 ms after the reply was queued. -/
def execStandbyEntry (s : State) : Res :=
  if resetting s then .next s
  else
    match s.pw.stby with
    | .none => .next s
    | .entering => .next (endStandbyEntry s)
    | .awaitFetch _ _ t => .next (endStandbyEntry (beginStandby (reach (t + ms) s)))

/-- A wake source acts, or is latched during entry (R101). -/
def wakeBy (causes : BitVec 3) (s : State) : State :=
  if causes = 0 ∨ resetting s then s
  else if s.pw.dev = .standby then wakeUp causes.toNat false s
  else match s.pw.stby with
    | .entering => modPw (fun p => { p with latched := p.latched ||| causes }) s
    | _ => s

/-- STBY_N rises (R99, R101, R104). -/
def stbyRise (s : State) : State := modPw (fun p => { p with stbyLow := false }) s

/-- STANDBY_WAKE (R101): a rise needs STBY_N low. -/
def execStandbyWake (csA csB stby : Bool) (s : State) : Res :=
  let rise := stby && s.pw.stbyLow
  let c : BitVec 3 := BitVec.ofNat 3 (b2n csA + 2 * b2n csB + 4 * b2n rise)
  if s.pw.dev = .standby ∨ s.pw.stby = .entering then .next (wakeBy c (whenSt rise stbyRise s)) else .next s

/-- The standby duration in ticks (R108). -/
def stbyTicks (a : Aon) : Nat := a.stbyCount.toNat * (if a.stbyUnit then 1000 * ms else 7812500)

/-- STANDBY_TIMER_WAKE (R108). -/
def execStandbyTimerWake (s : State) : Res :=
  if s.pw.dev = .standby ∧ s.aon.stbyCount ≠ 0 ∧ !resetting s then
    .next (wakeUp 8 false (reach (s.aon.stbyFrom + stbyTicks s.aon) s))
  else .next s

/-- STBY_N_FALL (R98, R99). -/
def execStbyNFall (s : State) : Res :=
  if s.pw.stbyLow then .next s
  else
    let s := modPw (fun p => { p with stbyLow := true }) s
    if resetting s ∨ s.pw.dev = .boot then .next (modPw (fun p => { p with stbyRemembered := s.pw.dev != .off }) s)
    else if isState s [.config, .run, .maint, .safe] ∧ s.pw.stby ≠ .entering then .next (beginStandby s)
    else .next s

/-- STBY_N_RISE (R99, R101). -/
def execStbyNRise (s : State) : Res := if s.pw.stbyLow then .next (wakeBy 4 (stbyRise s)) else .next s

/-! ### The end of BOOT -/

/-- A group whose slot has brought no lock is missing (R87, R381, log entry 17). -/
def slotMissed (g : Grp) (s : State) : State :=
  let l := lnk s g
  if l.st = .up ∨ (l.st = .down ∧ l.bringUps ≠ 0) then s
  else modLink g (fun l => { l with st := .down, cause := 1, bringUps := max 1 l.bringUps }) (linkClear g s)

/-- The counter is advanced to the booted image's ROLLBACK (R489). -/
def advanceCounter (s : State) : State :=
  let rb := (s.sec.banks[if s.pw.bank then (1 : Fin 2) else 0]).rollback
  if rbCount s < rb then
    modSec (fun x => { x with cellar := { x.cellar with cells := BitVec.ofNat 64 (2 ^ min 64 rb - 1) } }) s
  else s

/-- BOOT ends in CONFIG or SAFE (R87, R95, R98, R443, R457, R523, R579). -/
def bootFinish (s : State) : State :=
  let safe := s.aon.fatalHeld || s.pw.patternFail || s.pw.safePin
  let s := bootDone (changeState (if safe then .safe else .config) s)
  let s := if safe then s else advanceCounter s
  let s := if s.pw.nvDefault then report 7 8 63 s else s
  let s := if isOwned s ∧ s.wd.autostart then wdStart 0 s else s
  let s := if cfgBit s .caskCfg 2 then caskBegin s else s
  if s.pw.stbyRemembered then
    let s := modPw (fun p => { p with stbyRemembered := false }) s
    if s.pw.stbyLow ∧ !resetting s then beginStandby s else s
  else s

/-- BOOT_END (R87, R443): the lockstep compare test and the fault collector check are the last rows. The spec gives the
collector check no domain and no cause (log entry 28). -/
def execBootEnd (lockstepOk collectorOk : Bool) (s : State) : Res :=
  if bootAt s .groups then
    let s := foldSt groups slotMissed s
    let s := if lockstepOk then s else fatalInBoot 6 7 63 s
    let s := if collectorOk then s else
      let (w, s) := drawWord s
      writeFrec (fld w 5 4 % 12) (fld w 0 5) 63 false 0 0 s
    .next (bootFinish s)
  else .next s

/-! ### SAFE_N, PLL failure, update reboot -/

/-- SAFE_N_ASSERT (R40, R95, R102): SAFE frames to every group and the state SAFE, without a reset. -/
def execSafeNAssert (s : State) : Res :=
  let s := modPw (fun p => { p with safePin := true }) s
  if isLive s ∧ !resetting s ∧ s.pw.stby ≠ .entering then
    let s := if isState s [.config, .run, .maint] then changeState .safe s else s
    .next (sendSafe3 s)
  else .next s

/-- SAFE_N_RELEASE (R72, R104). -/
def execSafeNRelease (s : State) : Res := .next (modPw (fun p => { p with safePin := false }) s)

/-- The PLL fails (R446): the fatal record, and a reset that no SAFE frame precedes. In LOCKDOWN it is held and counted
(R442). -/
def pllFail (s : State) : State :=
  let s := report 11 8 63 s
  match s.pw.resetSeq with
  | some q => takeHold q.cause s
  | none => s

/-- PLL_FAIL (R446). -/
def execPllFail (s : State) : Res := if s.pw.tb0.isSome then .next (injReport 11 8 pllFail s) else .next s

/-- The update reboot begins (R505). -/
def updateGo (s : State) : State := startReset 0x20 false (modSec (fun x => { x with rebootDue := none }) s)

/-- UPDATE_REBOOT (R505): 10 ms after the COMMIT reply became fetchable. -/
def execUpdateReboot (s : State) : Res :=
  match s.sec.rebootDue with
  | some (_, _, t) => if resetting s then .next s else .next (updateGo (reach t s))
  | none => .next s

/-! ### STATE_REQ (R95, R97, R578) -/

/-- The target of a STATE_REQ (R105): its code, whatever the reserved bits hold. -/
def reqTarget (m : Msg) : Option DevState :=
  match fld (pword m 0) 0 4 with
  | 2 => some .config | 3 => some .run | 4 => some .maint | 5 => some .safe | 7 => some .standby
  | _ => none

/-- The table of transitions and its STATE refusals (R95). -/
def transitionOk (s : State) (tgt : DevState) : Bool :=
  let free := s.sec.sess.isNone
  match s.pw.dev, tgt with
  | .config, .run => free
  | .run, .config | .run, .maint => true
  | .maint, .config => free && s.cask.st != .replaying
  | .config, .safe | .run, .safe | .maint, .safe => true
  | .safe, .config => !s.pw.safePin
  | .config, .standby | .run, .standby | .maint, .standby | .safe, .standby => free
  | _, _ => false

/-- The FAULT refusal of SAFE to CONFIG (R95). -/
def configBlocked (s : State) (tgt : DevState) : Bool :=
  s.pw.dev == .safe && tgt == .config && (s.aon.fatalHeld || contMask s != 0 || s.pw.patternFail)

/-- Every group that is UP has acknowledged a SAFE frame (R578). -/
def safeAcked (s : State) : Bool := groups.all fun g => (lnk s g).st != .up || (lnk s g).safeFrom.isNone

def reqGo (m : Msg) (s : State) : Ans × State :=
  match reqTarget m with
  | none => (.reply stRange [devStateWord s], s)
  | some tgt =>
    if configBlocked s tgt then (.reply stFault [devStateWord s], s)
    else if tgt = .standby then
      (.reply stOk [devStateWord s], modPw (fun p => { p with
        stby := match p.stby with | .none => .awaitFetch m.port m.tag s.now | x => x }) s)
    else
      let out := s.pw.dev == .run
      let s := changeState tgt s
      if out && !safeAcked s then (.later, modPw (fun p => { p with leaveRun := p.leaveRun ++ [defOf Op.stateReq m] }) s)
      else (.reply stOk [devStateWord s], s)

def stateReqH : Handler where
  stateOk := fun s m => match reqTarget m with | some tgt => transitionOk s tgt | none => true
  range := fun _ m => (reqTarget m).isSome && fld (pword m 0) 4 16 == 0
  auth := fun s m => !(reqTarget m == some .run && isOwned s && s.sec.bundle.isNone)
  run := reqGo

/-- STATE_REQ (R578, R95, R105). -/
def execStateReq (m : Msg) (s : State) : Res := interp Op.stateReq stateReqH m s

/-- STATE_REQ_COMPLETE (R578). -/
def execStateReqComplete (s : State) : Res :=
  if s.pw.leaveRun.isEmpty ∨ !safeAcked s ∨ resetting s then .next s
  else
    let l := s.pw.leaveRun
    .next (foldSt l (fun d s => if s.deferred.contains d then completeDeferred d stOk [devStateWord s] s else s)
      (modPw (fun p => { p with leaveRun := [] }) s))

end Sys2Proof.Machine
end

