-- ==== Sys2Proof/Machine/HostPort.lean ====
section
/-! DEFINITION. The pins of the host ports (04_host_ports R111 to R138; 05 R150, R151, R160): selects, beats, reply fetches, and
daisy frames. -/

namespace Sys2Proof.Machine

/-! ### Packet mode -/

/-- A falling edge of CS_N also wakes the device (R101). -/
def csWake (p : Port) (s : State) : State := wakeBy (if p = .a then 1 else 2) s

/-- SELECT_BEGIN (R111, R113, R114, R428). -/
def execSelectBegin (p : Port) (s : State) : Res :=
  let x := prt s p
  if x.daisy ∨ x.selected ∨ s.pw.dev = .off then .next s else .next (csWake p (selectOn p s))

/-- SELECT_END (R125). -/
def execSelectEnd (p : Port) (midBeat : Bool) (s : State) : Res :=
  let x := prt s p
  if x.daisy ∨ !x.selected then .next s else .next (selectOff p midBeat s)

/-- A port in packet mode takes a beat of the present select. -/
def takesBeat (s : State) (p : Port) : Bool :=
  let x := prt s p
  portOpen s && !x.daisy && x.selected && !x.ignoring

/-- HEADER_BEAT (R151). -/
def execHeaderBeat (p : Port) (h0 h1 : Word) (s : State) : Res :=
  if takesBeat s p && (prt s p).rx == .header then .next (headerIn p h0 h1 s) else .next s

/-- PACKET_COMPLETE (R126): the payload words and the check word of the packet whose header stands. -/
def execPacketComplete (p : Port) (payload : List Word) (check : Word) (s : State) : Res :=
  match (prt s p).rx with
  | .payload h0 h1 d =>
    if takesBeat s p && payload.length == hdrLen h1 then
      .next (match d with
        | .accept => payloadIn p h0 payload (checkGood payload check) (cfgDue s)
        | .drop => modPort p (fun x => { x with rx := .header, gotPacket := true }) s)
    else .next s
  | _ => .next s

/-- STREAM_BEAT (R120). -/
def execStreamBeat (p : Port) (w0 w1 : Word) (s : State) : Res :=
  if takesBeat s p then .next (beatIn p w0 w1 s) else .next s

/-- What waits for the fetch of a reply (R100, R505). -/
def fetchedReply (p : Port) (tag : BitVec 7) (s : State) : State :=
  let s := match s.sec.rebootDue with
    | some (q, t, _) => if q = p ∧ t = tag then updateGo s else s
    | none => s
  match s.pw.stby with
  | .awaitFetch q t _ => if q = p ∧ t = tag ∧ !resetting s then beginStandby s else s
  | _ => s

/-- The reply at the head has been clocked out whole (R123, R125, R159). -/
def dropReply (p : Port) (s : State) : State :=
  match (prt s p).replyQ with
  | [] => s
  | r :: l =>
    let s := setTag p r.tag false (modPort p (fun x => { x with replyQ := l }) s)
    fetchedReply p r.tag (admitWaiting p s)

/-- The reply part of a fetch (R122, R123); further clocks of the select are ignored. -/
def fetchReply (p : Port) (whole : Bool) (s : State) : State :=
  match (prt s p).rx with
  | .reply some_ => if whole then (let s := setRx p .ignore s; if some_ then dropReply p s else s) else s
  | _ => s

/-- The header word H0 of a REPLY_FETCH. -/
def fetchH0 (lanes : BitVec 2) : Word := pack [(3, lanes.toNat)]

/-- REPLY_FETCH (R121 to R123, R160): in a select of its own, or in one that is open between packets, or the reply to a header
that has come. A fetch cut short ends its select. -/
def execReplyFetch (p : Port) (lanes : BitVec 2) (whole : Bool) (s : State) : Res :=
  if !portOpen s || (prt s p).daisy || (prt s p).ignoring then .next s
  else
    let own := !(prt s p).selected
    let s := if own then selectOn p s else s
    let s := match (prt s p).rx with
      | .header => headerIn p (fetchH0 lanes) (hdrWord1 (fetchH0 lanes) 0) s
      | _ => s
    let s := fetchReply p whole s
    .next (if own || !whole then (match (prt s p).rx with
      | .reply _ | .ignore => selectOff p false s
      | _ => if own then selectOff p false s else s) else s)

/-! ### Daisy mode -/

/-- W and the number of data bits D (R128, R130). -/
def daisyW (dcfg : Word) : Nat := fld dcfg 0 5 + 1
def daisyD (dcfg : Word) : Nat := if 12 ≤ daisyW dcfg then daisyW dcfg - 4 else daisyW dcfg

/-- Place of data bit 0 in a word. -/
def daisyLow (dcfg : Word) : Nat := if 12 ≤ daisyW dcfg then 4 else 0

/-- The data bits of an image, most significant first. -/
def dataBits (dcfg : Word) (img : BitVec 32) : List Bool :=
  ((List.range (daisyD dcfg)).map fun i => bit img (i + daisyLow dcfg)).reverse

/-- The CRC-4 that an image should carry. -/
def imageCrc (dcfg : Word) (img : BitVec 32) : BitVec 4 := crc4 (dataBits dcfg img)

/-- What an input image shows of a channel (R133). -/
def inputBit (s : State) (n : Nat) : Bool :=
  if h : n < 48 then
    let k : Chan := ⟨n, h⟩
    let m := chMode s k
    let d := (mir s k).rep.dstat
    if isDigIn m then bit d 2 else if isSwitch m then bit d 0 else false
  else false

/-- The input image (R130, R133). -/
def inputImage (s : State) (dcfg dmap : Word) : BitVec 32 :=
  let d := daisyD dcfg
  let base := fld dmap 6 6
  let bits := (List.range d).map fun i =>
    if bit dcfg 10 ∧ i + 1 = d then faultN s else base != 63 && inputBit s (base + i)
  let img : BitVec 32 := (((List.range d).zip bits).foldl (fun w x => setBit w (x.1 + daisyLow dcfg) x.2) 0)
  if 12 ≤ daisyW dcfg then img ||| (imageCrc dcfg img).setWidth 32 else img

/-- CS_N falls on a daisy port (R113, R128, R133, R138). -/
def daisyOn (p : Port) (s : State) : State :=
  if portOpen s then
    let c := cfgGet s (.portDcfg p)
    let m := cfgGet s (.portDmap p)
    let img := inputImage s c m
    modPort p (fun x => { x with selected := true, ignoring := false, dcfg := c, dmap := m, inImage := img, lastCs := s.now }) s
  else modPort p (fun x => { x with selected := true, ignoring := true }) s

/-- DAISY_SELECT_BEGIN (R128). -/
def execDaisySelectBegin (p : Port) (s : State) : Res :=
  let x := prt s p
  if !x.daisy ∨ x.selected ∨ s.pw.dev = .off then .next s else .next (csWake p (daisyOn p s))

/-- The item that an acting output bit stands for (R132, R135); none where it is ignored. -/
def daisyItem (s : State) (n : Nat) (on : Bool) : Option SetItem :=
  if h : n < 48 then
    let m := chMode s ⟨n, h⟩
    if m = mDo then some { cmd := pack [(0, n), (6, b2n on)], val := 0 }
    else if m = mDoPwm then some { cmd := pack [(0, n), (6, 2 + b2n on)], val := 0 }
    else none
  else none

/-- An acting bit: a CHAN_SET of one item from this port; one that is refused does nothing but set REFUSED (R135). -/
def daisyAct (p : Port) (n : Nat) (on : Bool) (s : State) : State :=
  match daisyItem s n on with
  | some i =>
    let ((st, _), s) := setItems p [i] s
    if st = stOk then s else modPort p (fun x => { x with refused := true }) s
  | none => s

/-- An accepted frame (R134, R135). -/
def daisyAccept (p : Port) (img : BitVec 32) (s : State) : State :=
  let x := prt s p
  let c := x.dcfg
  let base := fld x.dmap 0 6
  let s := modPort p (fun x => { x with
    outImage := img, accepted := x.accepted + 1, lastFrame := 1, lastAccept := s.now, timerOff := false }) s
  if s.pw.dev = .run then
    let s := modPort p (fun x => { x with fresh := false }) s
    foldSt (List.range (daisyD c)) (fun i s =>
      let k := i + daisyLow c
      if (x.fresh || bit img k != bit x.outImage k) && base != 63 then daisyAct p (base + i) (bit img k) s else s) s
  else s

/-- A rejected frame (R136). -/
def daisyReject (p : Port) (crc : Bool) (s : State) : State :=
  report 8 3 (pidx p).val (modPort p (fun x =>
    if crc then { x with crcRej := satInc x.crcRej, lastFrame := 3 } else { x with lenRej := satInc x.lenRej, lastFrame := 2 }) s)

/-- The length conditions of R134. -/
def daisyLenOk (dcfg : Word) (edges : Nat) : Bool :=
  let w := daisyW dcfg
  edges != 0 && edges % w == 0 && (fld dcfg 5 5 == 0 || edges == fld dcfg 5 5 * w)

/-- CS_N rises on a daisy port (R134); `bits` are the last W bits received. An armed injection of 8/3 spoils the CRC (R556). -/
def daisyOff (p : Port) (edges : Nat) (bits : BitVec 32) (s : State) : State :=
  let x := prt s p
  let done := modPort p (fun x => { x with selected := false, ignoring := false })
  if x.ignoring then done s
  else
    let c := x.dcfg
    let img := bits &&& BitVec.ofNat 32 (2 ^ daisyW c - 1)
    let inj : Bool := match injAt s 8 3 with | some a => decide (a.unit.toNat = (pidx p).val) | none => false
    let s :=
      if !daisyLenOk c edges then daisyReject p false s
      else if inj || (decide (12 ≤ daisyW c) && imageCrc c img != img.extractLsb' 0 4) then daisyReject p true s
      else daisyAccept p img s
    done (whenSt inj injApplied s)

/-- DAISY_FRAME (R134): the end of the present select, or a select of its own. -/
def execDaisyFrame (p : Port) (edges : Nat) (bits : BitVec 32) (s : State) : Res :=
  let x := prt s p
  if !x.daisy ∨ s.pw.dev = .off then .next s
  else
    let s := if x.selected then s else csWake p (daisyOn p s)
    .next (daisyOff p edges bits s)

/-- The daisy timeout in ticks; 0 when it is off (R140). -/
def daisyTicks (dcfg : Word) : Nat := if fld dcfg 11 4 = 0 then 0 else 2 ^ (fld dcfg 11 4 - 1) * ms

/-- The timeout of a port expires (R136). -/
def daisyExpire (p : Port) (s : State) : State :=
  report 8 4 (pidx p).val (modPort p (fun x => { x with timedOut := true, timerOff := true }) s)

/-- DAISY_TIMEOUT (R136). -/
def execDaisyTimeout (p : Port) (s : State) : Res :=
  let x := prt s p
  if x.daisy && portOpen s && !x.timerOff && daisyTicks x.dcfg != 0 then
    .next (daisyExpire p (reach (x.lastAccept + daisyTicks x.dcfg) s))
  else .next s

end Sys2Proof.Machine
end

