-- ==== Sys2Proof/Machine/Inject.lean ====
section
/-! DEFINITION. INJECT (20_fault_injection R555 to R561): the points, their permission, and what each of them sets going. The
points whose stimulus waits for an event of their detector act where that event is modelled. -/

namespace Sys2Proof.Machine

/-! ### Points (R556) -/

/-- What UNIT names in a row. -/
inductive InjUnit where
  | none | chan | chanOf (g : Grp) | grp | port | mem | sel
deriving DecidableEq, Repr

/-- What ARG holds in a row. -/
inductive InjArg where
  | none | frames | seconds | millis
deriving DecidableEq, Repr

structure InjRow where
  unit : InjUnit := .none
  arg : InjArg := .none
  maint : Bool := false      -- permitted in MAINTENANCE only
  fatal : Bool := false      -- its class is FATAL (R558)
deriving DecidableEq, Repr

/-- The table Injection points, without the rows that the flip mask serves. -/
def injRow (d c : Nat) : Option InjRow :=
  if h : d < 6 then
    match c with
    | 1 => some { arg := .frames }
    | 2 | 3 | 4 | 5 => some {}
    | 6 => some { unit := .chanOf ⟨d, h⟩ }
    | _ => none
  else match d, c with
    | 6, 1 | 6, 2 | 6, 3 | 6, 4 | 6, 5 => some {}
    | 6, 7 => some { fatal := true }
    | 7, 5 => some { unit := .mem, maint := true }
    | 7, 6 => some { maint := true }
    | 7, 7 => some { unit := .sel }
    | 8, 1 | 8, 2 | 8, 3 | 8, 4 => some { unit := .port }
    | 9, 1 => some {}
    | 9, 2 | 9, 3 | 9, 4 | 9, 5 | 9, 6 => some { maint := true }
    | 10, 1 | 10, 2 | 10, 3 => some { arg := .seconds }
    | 11, 1 | 11, 2 | 11, 8 => some { fatal := true }
    | 11, 3 | 11, 4 | 11, 5 | 11, 6 | 11, 7 => some {}
    | 12, 1 | 12, 6 => some { unit := .grp, arg := .millis }
    | 12, 2 | 12, 3 | 12, 5 => some { unit := .chan, arg := .millis }
    | 12, 4 => some { unit := .chan }
    | _, _ => none

def injUnitOk (k : InjUnit) (u : Nat) : Bool :=
  match k with
  | .none => u == 63
  | .chan => u < 48
  | .chanOf g => u / 8 == g.val
  | .grp => u < 6
  | .port => u < 2
  | .mem => u < 16
  | .sel => u < 8

def injArgOk (k : InjArg) (v : Nat) : Bool :=
  match k with
  | .none => v == 0
  | .frames => v < 32 && v % 16 != 0
  | .seconds => 1 ≤ v && v < 256
  | .millis => 1 ≤ v && v < 65536

/-! ### The payload (R557) -/

def injDom (m : Msg) : Nat := fld (pword m 0) 0 4
def injCause (m : Msg) : Nat := fld (pword m 0) 4 5
def injUnit (m : Msg) : Nat := fld (pword m 0) 9 6

/-- ARG, or the lowest value that its row permits. -/
def injArg (m : Msg) (r : InjRow) : Word := if m.words.length < 2 then (if r.arg = .none then 0 else 1) else pword m 1

/-- The row of a payload whose fields are in range. -/
def injPoint (m : Msg) : Option InjRow :=
  match injRow (injDom m) (injCause m) with
  | some r =>
    if fld (pword m 0) 15 5 == 0 && (m.words.drop 2).all (· == 0) && injUnitOk r.unit (injUnit m)
        && injArgOk r.arg (injArg m r).toNat then some r
    else none
  | none => none

def unitChan (u : Nat) : Chan := ⟨u % 48, by omega⟩
def unitGrp (u : Nat) : Grp := ⟨u % 6, by omega⟩
def unitPort (u : Nat) : Port := if u = 0 then .a else .b

/-! ### Preconditions and permission (R556, R558) -/

/-- A switch conducts outside its inrush window. -/
def conducts (s : State) (n : Chan) : Bool :=
  isSwitch (dieMode s n) && (slc s n).out && (slc s n).inrushEnd.isNone

/-- The precondition of a point. -/
def injPre (s : State) (d c u : Nat) : Bool :=
  let active := ([0, 1] : List (Fin 2)).any fun b => (bnk s b).st == .active
  let x := slc s (unitChan u)
  if d < 6 then
    match c with
    | 1 | 2 => (lnk s (unitGrp d)).st == .up
    | 3 | 4 => (lnk s (unitGrp d)).st == .up && (lnk s (unitGrp d)).tbLock
    | 5 => active
    | _ => isSwitch (dieMode s (unitChan u)) && !x.cmd && !x.out && decide (x.offSince + ms ≤ s.now)
  else match d, c with
    | 6, 1 | 6, 2 => s.trk.st == .cycleSync
    | 6, 3 => wheelB s == 2 && s.trk.st == .cycleSync
    | 6, 4 => wheelZ s
    | 6, 5 => active
    | 8, 2 => !(prt s (unitPort u)).daisy
    | 8, 3 => (prt s (unitPort u)).daisy
    | 8, 4 => (prt s (unitPort u)).daisy && daisyTicks (prt s (unitPort u)).dcfg != 0
    | 11, 2 | 11, 3 | 11, 4 | 11, 5 => s.wd.running
    | 11, 6 | 11, 7 => !s.wd.monLost
    | 12, 4 => isSwitch (dieMode s (unitChan u)) && x.out
    | 12, 6 => (grpChans (unitGrp u)).any (conducts s)
    | _, _ => true

/-- The domain whose permit bit and held fault count for a point. -/
def injPermitDom (r : InjRow) (d u : Nat) : Nat :=
  if d = 12 then (if r.unit = .grp then u else u / 8) else d

/-- Check 3: nothing armed, the precondition, M points in MAINTENANCE, no replay of what the point acts on. -/
def injStateOk (s : State) (m : Msg) : Bool :=
  s.inj.armed.isNone &&
    match injPoint m with
    | some r =>
      injPre s (injDom m) (injCause m) (injUnit m) && !(r.maint && s.pw.dev == .run)
        && !(s.cask.st == .replaying && (injDom m ≤ 6 || injDom m == 12))
    | none => true

/-- Check 7: the permit in RUN. -/
def injAuth (s : State) (m : Msg) : Bool :=
  if s.pw.dev = .run then
    match injPoint m with
    | some r =>
      let p := permitWord s
      let d := injPermitDom r (injDom m) (injUnit m)
      let holds : Bool := if h : d < 12 then (heldAt s ⟨d, h⟩).isSome else false
      bit p d && s.inj.runCnt.toNat < fld p 13 4 && (!(r.fatal || holds) || bit p 12)
    | none => true
  else true

/-! ### What a point sets going (R556, R560) -/

/-- Stimuli to give. -/
def injLeft (d c : Nat) (arg : Word) : Nat :=
  if d < 6 then (match c with | 1 => fld arg 0 4 | 3 | 4 => 4 | _ => 1) else if d = 6 ∧ c = 3 then 3 else 1

/-- The end of a timed point. -/
def injUntil (s : State) (r : InjRow) (arg : Word) : Option Nat :=
  match r.arg with
  | .seconds => some (s.now + arg.toNat * 1000 * ms)
  | .millis => some (s.now + arg.toNat * ms)
  | _ => none

/-- Points that are complete with their acceptance. -/
def injAtOnce (d c : Nat) : Bool :=
  if d < 6 then c == 2
  else match d, c with
    | 6, 2 | 7, 5 | 7, 6 | 8, 4 | 9, 2 | 9, 3 | 9, 4 | 9, 5 | 9, 6 | 11, 2 | 12, 4 => true
    | _, _ => false

/-- VFg of a group reads low (R396). -/
def vfgForcedLow (g : Grp) (s : State) : State :=
  let s := modField g (fun d => { d with vfg := 75 }) s
  if (fdie s g).powered && (fdie s g).supply = .good then addReport g (.grp 2) (modField g (fun d => { d with supply := .low }) s)
  else s

/-- The effect that a point has at once. -/
def injAct (d c u : Nat) (s : State) : State :=
  if d < 6 then (if c = 2 then linkLost (unitGrp d) 4 s else s)
  else match d, c with
    | 6, 2 => (List.range (cfgFld s .trkCfg 12 3)).foldl (fun s _ => if s.trk.st = .cycleSync then extraEdge none s else s) s
    | 7, 5 => modAon (fun a => { a with inj75 := some (BitVec.ofNat 6 u) }) s
    | 7, 6 => modAon (fun a => { a with inj76 := true }) s
    | 8, 4 => daisyExpire (unitPort u) s
    | 9, 2 => report 9 2 63 s
    | 9, 3 => report 9 3 63 s
    | 9, 4 => report 9 4 63 s
    | 9, 5 => report 9 5 63 s
    | 9, 6 => report 9 6 63 s
    | 11, 1 => modFlt (fun f => { f with heartbeat := some s.now }) s
    | 11, 2 => modWd (fun w => { w with base := w.timeout.toNat - 1, zero := s.now }) s
    | 12, 1 => vfgForcedLow (unitGrp u) s
    | 12, 4 => tripSwitch (unitChan u) s
    | 12, 5 => if (slc s (unitChan u)).therm then s else thermSet (unitChan u) s
    | _, _ => s

/-- A point that is complete at once (R560). -/
def injDone (a : InjArm) (s : State) : State :=
  raise 95 (modInj (fun i => { i with armed := none, done := true, last := 1, lseq := injSeq s a.dom a.since }) s)

def injectGo (m : Msg) (s : State) : Ans × State :=
  match injPoint m with
  | none => (.reply stRange [], s)
  | some r =>
    let d := injDom m
    let c := injCause m
    let arg := injArg m r
    let a : InjArm :=
      { dom := BitVec.ofNat 4 d, cause := BitVec.ofNat 5 c, unit := BitVec.ofNat 6 (injUnit m), arg := arg
        left := injLeft d c arg, since := tbNow s, until_ := injUntil s r arg }
    let s := modInj (fun i => { i with
      armed := some a, done := false, num := i.num + 1, runCnt := if s.pw.dev = .run then i.runCnt + 1 else i.runCnt
      point := pword m 0, arg := arg }) s
    let n := s.inj.num
    let s := injAct d c (injUnit m) s
    (.reply stOk [n.setWidth 20], if injAtOnce d c then injDone a s else s)

def injectH : Handler where
  stateOk := injStateOk
  range := fun _ m => (injPoint m).isSome
  auth := injAuth
  run := injectGo

/-- INJECT (R557 to R560). -/
def execInject (m : Msg) (s : State) : Res := interp Op.inject injectH m s

/-- INJECT_TIMED_END (R560). -/
def execInjectTimedEnd (s : State) : Res :=
  match s.inj.armed with
  | some a =>
    (match a.until_ with
    | some t => .next (injApplied (reach t s))
    | none => .next s)
  | none => .next s

end Sys2Proof.Machine
end

