-- ==== Sys2Proof/Machine/Dispatch.lean ====
section
/-! DEFINITION. The dispatch: one arm for each constructor of `Instr`. -/

namespace Sys2Proof.Machine

/-- A command acts on everything but the queue. -/
def exec (i : Instr) (s : State) : Host.Outcome State Fault Refusal :=
  match i with
  | .powerOn => Sys2Proof.Machine.execPowerOn s
  | .vsupBrownout collapse => Sys2Proof.Machine.execVsupBrownout collapse s
  | .vsupLoss => Sys2Proof.Machine.execVsupLoss s
  | .vioLoss => Sys2Proof.Machine.execVioLoss s
  | .resetNPulse ns => Sys2Proof.Machine.execResetNPulse ns s
  | .resetTakeHold => Sys2Proof.Machine.execResetTakeHold s
  | .bootBegin strapA strapB => Sys2Proof.Machine.execBootBegin strapA strapB s
  | .pllLock => Sys2Proof.Machine.execPllLock s
  | .pllLockTimeout => Sys2Proof.Machine.execPllLockTimeout s
  | .patternTestEnd faults => Sys2Proof.Machine.execPatternTestEnd faults s
  | .firmwareVerify selfTest => Sys2Proof.Machine.execFirmwareVerify selfTest s
  | .groupBringUp g => Sys2Proof.Machine.execGroupBringUp g s
  | .linkUp g vintage => Sys2Proof.Machine.execLinkUp g vintage s
  | .linkLockTimeout g => Sys2Proof.Machine.execLinkLockTimeout g s
  | .bootEnd lockstepOk collectorOk => Sys2Proof.Machine.execBootEnd lockstepOk collectorOk s
  | .safeNAssert => Sys2Proof.Machine.execSafeNAssert s
  | .safeNRelease => Sys2Proof.Machine.execSafeNRelease s
  | .stbyNFall => Sys2Proof.Machine.execStbyNFall s
  | .standbyEntry => Sys2Proof.Machine.execStandbyEntry s
  | .standbyWake csA csB stby => Sys2Proof.Machine.execStandbyWake csA csB stby s
  | .standbyTimerWake => Sys2Proof.Machine.execStandbyTimerWake s
  | .selectBegin p => Sys2Proof.Machine.execSelectBegin p s
  | .selectEnd p midBeat => Sys2Proof.Machine.execSelectEnd p midBeat s
  | .headerBeat p h0 h1 => Sys2Proof.Machine.execHeaderBeat p h0 h1 s
  | .packetComplete p payload check => Sys2Proof.Machine.execPacketComplete p payload check s
  | .streamBeat p w0 w1 => Sys2Proof.Machine.execStreamBeat p w0 w1 s
  | .daisySelectBegin p => Sys2Proof.Machine.execDaisySelectBegin p s
  | .daisyFrame p edges bits => Sys2Proof.Machine.execDaisyFrame p edges bits s
  | .daisyTimeout p => Sys2Proof.Machine.execDaisyTimeout p s
  | .replyFetch p lanes whole => Sys2Proof.Machine.execReplyFetch p lanes whole s
  | .hello m => Sys2Proof.Machine.execHello m s
  | .status m => Sys2Proof.Machine.execStatus m s
  | .regRead m => Sys2Proof.Machine.execRegRead m s
  | .regWrite m => Sys2Proof.Machine.execRegWrite m s
  | .tapTake m => Sys2Proof.Machine.execTapTake m s
  | .tapRelease m => Sys2Proof.Machine.execTapRelease m s
  | .tapIdleTimeout k => Sys2Proof.Machine.execTapIdleTimeout k s
  | .chanConfig m => Sys2Proof.Machine.execChanConfig m s
  | .chanSet m => Sys2Proof.Machine.execChanSet m s
  | .chanGet m => Sys2Proof.Machine.execChanGet m s
  | .safeNow m => Sys2Proof.Machine.execSafeNow m s
  | .relink m => Sys2Proof.Machine.execRelink m s
  | .groupCmdClrCnt m => Sys2Proof.Machine.execGroupCmdClrCnt m s
  | .safeNowAck g => Sys2Proof.Machine.execSafeNowAck g s
  | .trellisLoad m => Sys2Proof.Machine.execTrellisLoad m s
  | .trellisArm m => Sys2Proof.Machine.execTrellisArm m s
  | .trellisStop m => Sys2Proof.Machine.execTrellisStop m s
  | .trellisHalt m => Sys2Proof.Machine.execTrellisHalt m s
  | .trellisRead m => Sys2Proof.Machine.execTrellisRead m s
  | .panRead m => Sys2Proof.Machine.execPanRead m s
  | .wdServe m => Sys2Proof.Machine.execWdServe m s
  | .wdConfigSet m => Sys2Proof.Machine.execWdConfigSet m s
  | .wdConfigStart m => Sys2Proof.Machine.execWdConfigStart m s
  | .wdConfigStop m => Sys2Proof.Machine.execWdConfigStop m s
  | .irqAck m => Sys2Proof.Machine.execIrqAck m s
  | .caskStatus m => Sys2Proof.Machine.execCaskStatus m s
  | .caskStart m => Sys2Proof.Machine.execCaskStart m s
  | .caskStop m => Sys2Proof.Machine.execCaskStop m s
  | .caskFreeze m => Sys2Proof.Machine.execCaskFreeze m s
  | .caskClear m => Sys2Proof.Machine.execCaskClear m s
  | .caskNote m => Sys2Proof.Machine.execCaskNote m s
  | .caskRead m => Sys2Proof.Machine.execCaskRead m s
  | .rack m => Sys2Proof.Machine.execRack m s
  | .rackComplete => Sys2Proof.Machine.execRackComplete s
  | .replayStart m => Sys2Proof.Machine.execReplayStart m s
  | .replayAbort m => Sys2Proof.Machine.execReplayAbort m s
  | .replayBegin => Sys2Proof.Machine.execReplayBegin s
  | .replayRecordAct => Sys2Proof.Machine.execReplayRecordAct s
  | .replayEnd => Sys2Proof.Machine.execReplayEnd s
  | .calSet m => Sys2Proof.Machine.execCalSet m s
  | .calArm m => Sys2Proof.Machine.execCalArm m s
  | .calArmCancel m => Sys2Proof.Machine.execCalArmCancel m s
  | .calArmTimeout => Sys2Proof.Machine.execCalArmTimeout s
  | .calButtonPress span bothHigh => Sys2Proof.Machine.execCalButtonPress span bothHigh s
  | .calCaptureConversion x beyond => Sys2Proof.Machine.execCalCaptureConversion x beyond s
  | .calCaptureEnd => Sys2Proof.Machine.execCalCaptureEnd s
  | .calStoreOpEnd => Sys2Proof.Machine.execCalStoreOpEnd s
  | .attest m => Sys2Proof.Machine.execAttest m s
  | .attestComplete => Sys2Proof.Machine.execAttestComplete s
  | .sealLoad m => Sys2Proof.Machine.execSealLoad m s
  | .sealLoadComplete => Sys2Proof.Machine.execSealLoadComplete s
  | .ownerEnroll m => Sys2Proof.Machine.execOwnerEnroll m s
  | .ownerEnrollComplete => Sys2Proof.Machine.execOwnerEnrollComplete s
  | .ownerRelease m => Sys2Proof.Machine.execOwnerRelease m s
  | .ownerReleaseComplete => Sys2Proof.Machine.execOwnerReleaseComplete s
  | .nvUpdateBegin m => Sys2Proof.Machine.execNvUpdateBegin m s
  | .nvUpdateAbort m => Sys2Proof.Machine.execNvUpdateAbort m s
  | .nvUpdateEraseDone => Sys2Proof.Machine.execNvUpdateEraseDone s
  | .nvUpdateData m => Sys2Proof.Machine.execNvUpdateData m s
  | .nvUpdateCommit m => Sys2Proof.Machine.execNvUpdateCommit m s
  | .updateReboot => Sys2Proof.Machine.execUpdateReboot s
  | .stateReq m => Sys2Proof.Machine.execStateReq m s
  | .stateReqComplete => Sys2Proof.Machine.execStateReqComplete s
  | .inject m => Sys2Proof.Machine.execInject m s
  | .injectTimedEnd => Sys2Proof.Machine.execInjectTimedEnd s
  | .faultRead m => Sys2Proof.Machine.execFaultRead m s
  | .faultAck m => Sys2Proof.Machine.execFaultAck m s
  | .portSleep m => Sys2Proof.Machine.execPortSleep m s
  | .resetCauseClear p => Sys2Proof.Machine.execResetCauseClear p s
  | .wakeCauseClear p => Sys2Proof.Machine.execWakeCauseClear p s
  | .portErrClear p x => Sys2Proof.Machine.execPortErrClear p x s
  | .portDaisyClear p x => Sys2Proof.Machine.execPortDaisyClear p x s
  | .tbLockClear p => Sys2Proof.Machine.execTbLockClear p s
  | .trackerConfigWrite p r v => Sys2Proof.Machine.execTrackerConfigWrite p r v s
  | .trkReseek p => Sys2Proof.Machine.execTrkReseek p s
  | .trkPhase0 p => Sys2Proof.Machine.execTrkPhase0 p s
  | .trkPhase1 p => Sys2Proof.Machine.execTrkPhase1 p s
  | .trkClrLearn p => Sys2Proof.Machine.execTrkClrLearn p s
  | .trkClrCnt p => Sys2Proof.Machine.execTrkClrCnt p s
  | .seqClrCnt p => Sys2Proof.Machine.execSeqClrCnt p s
  | .smpFire p => Sys2Proof.Machine.execSmpFire p s
  | .smpClrCnt p => Sys2Proof.Machine.execSmpClrCnt p s
  | .panCmdOpen p g pan => Sys2Proof.Machine.execPanCmdOpen p g pan s
  | .panCmdClose p g pan => Sys2Proof.Machine.execPanCmdClose p g pan s
  | .panCmdRelease p g pan => Sys2Proof.Machine.execPanCmdRelease p g pan s
  | .modeChange p n v => Sys2Proof.Machine.execModeChange p n v s
  | .dctlClrLatch p n => Sys2Proof.Machine.execDctlClrLatch p n s
  | .dctlClrCnt p n => Sys2Proof.Machine.execDctlClrCnt p n s
  | .dctlClrEvt p n mask => Sys2Proof.Machine.execDctlClrEvt p n mask s
  | .actlClrEvt p n mask => Sys2Proof.Machine.execActlClrEvt p n mask s
  | .grpClrCnt p g => Sys2Proof.Machine.execGrpClrCnt p g s
  | .grpClrEvt p g mask => Sys2Proof.Machine.execGrpClrEvt p g mask s
  | .govClrCnt p => Sys2Proof.Machine.execGovClrCnt p s
  | .ipendWrite p k v => Sys2Proof.Machine.execIpendWrite p k v s
  | .ienWrite p k v => Sys2Proof.Machine.execIenWrite p k v s
  | .intCfgWrite p n v => Sys2Proof.Machine.execIntCfgWrite p n v s
  | .portPrioWrite p x v => Sys2Proof.Machine.execPortPrioWrite p x v s
  | .modCfgWrite p m v => Sys2Proof.Machine.execModCfgWrite p m v s
  | .irqBellRing p => Sys2Proof.Machine.execIrqBellRing p s
  | .miTestRun p sel => Sys2Proof.Machine.execMiTestRun p sel s
  | .miTestEnd faults => Sys2Proof.Machine.execMiTestEnd faults s
  | .miClrCnt p => Sys2Proof.Machine.execMiClrCnt p s
  | .meminjArm p mem half => Sys2Proof.Machine.execMeminjArm p mem half s
  | .secClrCnt p => Sys2Proof.Machine.execSecClrCnt p s
  | .caskClrLoss p => Sys2Proof.Machine.execCaskClrLoss p s
  | .caskAutoResume p => Sys2Proof.Machine.execCaskAutoResume p s
  | .mmpClrCnt p => Sys2Proof.Machine.execMmpClrCnt p s
  | .mmpClrErr p => Sys2Proof.Machine.execMmpClrErr p s
  | .injCancel p => Sys2Proof.Machine.execInjCancel p s
  | .mmpHostRead p j => Sys2Proof.Machine.execMmpHostRead p j s
  | .mmpHostWrite p j v => Sys2Proof.Machine.execMmpHostWrite p j v s
  | .snapshotRead p addr => Sys2Proof.Machine.execSnapshotRead p addr s
  | .stagedWordWrite p addr v => Sys2Proof.Machine.execStagedWordWrite p addr v s
  | .angleEdge j level => Sys2Proof.Machine.execAngleEdge j level s
  | .edgeTakeup => Sys2Proof.Machine.execEdgeTakeup s
  | .edgeMissing => Sys2Proof.Machine.execEdgeMissing s
  | .trackerStopTimeout => Sys2Proof.Machine.execTrackerStopTimeout s
  | .cycleBoundary => Sys2Proof.Machine.execCycleBoundary s
  | .bankDecision => Sys2Proof.Machine.execBankDecision s
  | .timeBankPeriod => Sys2Proof.Machine.execTimeBankPeriod s
  | .lookaheadEntry => Sys2Proof.Machine.execLookaheadEntry s
  | .commitHorizon => Sys2Proof.Machine.execCommitHorizon s
  | .skewCheck => Sys2Proof.Machine.execSkewCheck s
  | .markExecute => Sys2Proof.Machine.execMarkExecute s
  | .downstreamFrameSend g => Sys2Proof.Machine.execDownstreamFrameSend g s
  | .downstreamFrameReceive g good phase => Sys2Proof.Machine.execDownstreamFrameReceive g good phase s
  | .upstreamFrameSend g => Sys2Proof.Machine.execUpstreamFrameSend g s
  | .upstreamFrameReceive g good => Sys2Proof.Machine.execUpstreamFrameReceive g good s
  | .linkLost g => Sys2Proof.Machine.execLinkLost g s
  | .fieldLinkLost g => Sys2Proof.Machine.execFieldLinkLost g s
  | .linkWatchdogExpiry g => Sys2Proof.Machine.execLinkWatchdogExpiry g s
  | .safeHoldEnd n => Sys2Proof.Machine.execSafeHoldEnd n s
  | .fieldPark g => Sys2Proof.Machine.execFieldPark g s
  | .fieldPowerUp g hot => Sys2Proof.Machine.execFieldPowerUp g hot s
  | .vfgLow g => Sys2Proof.Machine.execVfgLow g s
  | .vfgLowEnd g => Sys2Proof.Machine.execVfgLowEnd g s
  | .vfgMissing g => Sys2Proof.Machine.execVfgMissing g s
  | .supplyGoodWaitEnd g => Sys2Proof.Machine.execSupplyGoodWaitEnd g s
  | .actionExecute g => Sys2Proof.Machine.execActionExecute g s
  | .sampleTimerInstant => Sys2Proof.Machine.execSampleTimerInstant s
  | .conversion n x pinOut => Sys2Proof.Machine.execConversion n x pinOut s
  | .panOpen g pan => Sys2Proof.Machine.execPanOpen g pan s
  | .panClose g pan => Sys2Proof.Machine.execPanClose g pan s
  | .panClosed g pan => Sys2Proof.Machine.execPanClosed g pan s
  | .diEdge n level => Sys2Proof.Machine.execDiEdge n level s
  | .rawDiTransition n level => Sys2Proof.Machine.execRawDiTransition n level s
  | .freqTimeout n => Sys2Proof.Machine.execFreqTimeout n s
  | .diagTimer n c present => Sys2Proof.Machine.execDiagTimer n c present s
  | .diagThresholdSwap n => Sys2Proof.Machine.execDiagThresholdSwap n s
  | .limitTimerTrip n => Sys2Proof.Machine.execLimitTimerTrip n s
  | .guardStep g mA => Sys2Proof.Machine.execGuardStep g mA s
  | .thermalLatchSet n => Sys2Proof.Machine.execThermalLatchSet n s
  | .thermalLatchClear n => Sys2Proof.Machine.execThermalLatchClear n s
  | .retryPauseEnd n => Sys2Proof.Machine.execRetryPauseEnd n s
  | .retryCountReset n => Sys2Proof.Machine.execRetryCountReset n s
  | .inrushWindowEnd n => Sys2Proof.Machine.execInrushWindowEnd n s
  | .pwmEdge n => Sys2Proof.Machine.execPwmEdge n s
  | .pwmHitEnd n => Sys2Proof.Machine.execPwmHitEnd n s
  | .monitorStep n imon vpin => Sys2Proof.Machine.execMonitorStep n imon vpin s
  | .analogDiagTimer n c present => Sys2Proof.Machine.execAnalogDiagTimer n c present s
  | .complianceTimer n saturated => Sys2Proof.Machine.execComplianceTimer n saturated s
  | .headroomStep g vfg drive => Sys2Proof.Machine.execHeadroomStep g vfg drive s
  | .hrErrTimer g away => Sys2Proof.Machine.execHrErrTimer g away s
  | .govTempStep raw => Sys2Proof.Machine.execGovTempStep raw s
  | .govReleaseStep => Sys2Proof.Machine.execGovReleaseStep s
  | .govDeferTimeout n => Sys2Proof.Machine.execGovDeferTimeout n s
  | .govOverTimer => Sys2Proof.Machine.execGovOverTimer s
  | .fieldTempEvent g hot => Sys2Proof.Machine.execFieldTempEvent g hot s
  | .moderatorTimerFire m => Sys2Proof.Machine.execModeratorTimerFire m s
  | .irqTimerTick => Sys2Proof.Machine.execIrqTimerTick s
  | .faultWindowEnd d c => Sys2Proof.Machine.execFaultWindowEnd d c s
  | .heartbeatMissing => Sys2Proof.Machine.execHeartbeatMissing s
  | .wdWarning => Sys2Proof.Machine.execWdWarning s
  | .wdExpiry => Sys2Proof.Machine.execWdExpiry s
  | .wdClockMonitorTrip running => Sys2Proof.Machine.execWdClockMonitorTrip running s
  | .pllFail => Sys2Proof.Machine.execPllFail s
  | .scrubRead => Sys2Proof.Machine.execScrubRead s
  | .lineRefetchDone bank words ok => Sys2Proof.Machine.execLineRefetchDone bank words ok s
  | .segmentTimer => Sys2Proof.Machine.execSegmentTimer s
  | .cfghashRecord => Sys2Proof.Machine.execCfghashRecord s
  | .segmentHashDone => Sys2Proof.Machine.execSegmentHashDone s
  | .anchorSigned => Sys2Proof.Machine.execAnchorSigned s
  | .autoRackPageDone => Sys2Proof.Machine.execAutoRackPageDone s
  | .mmpTransactionStart => Sys2Proof.Machine.execMmpTransactionStart s
  | .mmpTransactionEnd data => Sys2Proof.Machine.execMmpTransactionEnd data s
  | .mmpStatusPoll status => Sys2Proof.Machine.execMmpStatusPoll status s
  | .mmpPollTimeout => Sys2Proof.Machine.execMmpPollTimeout s
  | .mmpStrobeTimeout => Sys2Proof.Machine.execMmpStrobeTimeout s
  | .nvUpdateCommitDone => Sys2Proof.Machine.execNvUpdateCommitDone s
  | .lockstepMismatch => Sys2Proof.Machine.execLockstepMismatch s
  | .stbyNRise => Sys2Proof.Machine.execStbyNRise s

end Sys2Proof.Machine
end

