-- ==== Sys2Proof/Machine/Step.lean ====
section
/-! DEFINITION. The step: the command at the front of the queue, or one tick of idling. -/

namespace Sys2Proof.Machine

/-- One tick of 4 ns passes and nothing else happens (log entry 1). -/
def tick (s : State) : State := { s with now := s.now + 1 }

/-- The command at the front acts on the state with the queue's rest; on an empty queue time passes. -/
def step (s : State) : Host.Outcome State Fault Refusal :=
  match s.pending with
  | [] => .next (tick s)
  | c :: l => exec c { s with pending := l }

/-- The command that a word spells comes to the front of the queue. No row of the table has bits (log entry 21). -/
def State.withFetchWord (s : State) (nbits w : Nat) : State :=
  match decodeTableWord nbits w with
  | some c => { s with pending := c :: s.pending }
  | none => s

end Sys2Proof.Machine
end

