-- ==== Sys2Proof/WellFormed.lean ====
section
/-! DEFINITION. Commands that the outside world can send: the limits that a packet and an event carry by their nature. A
command that breaks one can not occur; the machine gives it a meaning nevertheless. -/

namespace Sys2Proof

/-- An ordinary packet: a lane code (R142), at most 4094 payload words (R117), no stream. -/
def Msg.packetWf (m : Msg) : Bool := m.lanes != 3 && m.words.length ≤ 4094 && m.stream == .none

/-- A packet of an opcode that also streams (R119, R147): a stream's word count fits its first word. -/
def Msg.streamWf (m : Msg) : Bool :=
  m.lanes != 3 && (if m.stream = .none then m.words.length ≤ 4094 else m.words.length < 2 ^ 20)

/-- The rules of one command. -/
def Instr.wf : Instr → Bool
  | .trellisLoad m | .sealLoad m | .nvUpdateData m => m.streamWf
  | .hello m | .status m | .regRead m | .regWrite m | .tapTake m | .tapRelease m | .chanConfig m | .chanSet m | .chanGet m
  | .safeNow m | .relink m | .groupCmdClrCnt m | .trellisArm m | .trellisStop m | .trellisHalt m | .trellisRead m
  | .panRead m | .wdServe m | .wdConfigSet m | .wdConfigStart m | .wdConfigStop m | .irqAck m | .caskStatus m
  | .caskStart m | .caskStop m | .caskFreeze m | .caskClear m | .caskNote m | .caskRead m | .rack m | .replayStart m
  | .replayAbort m | .calSet m | .calArm m | .calArmCancel m | .attest m | .ownerEnroll m | .ownerRelease m
  | .nvUpdateBegin m | .nvUpdateAbort m | .nvUpdateCommit m | .stateReq m | .inject m | .faultRead m | .faultAck m
  | .portSleep m => m.packetWf
  | .packetComplete _ payload _ => 1 ≤ payload.length && payload.length ≤ 4094
  | .replyFetch _ lanes _ => lanes != 3
  | .panCmdOpen _ g _ | .panCmdClose _ g _ | .panCmdRelease _ g _ => g != 6
  | .lineRefetchDone _ words ok => !ok || words.length == 8
  | .standbyWake csA csB stby => csA || csB || stby
  | _ => true

end Sys2Proof
end

