-- ==== Sys2Proof/Safety.lean ====
section
/-! DEFINITION. What the statements call a safe run: every command reaches a next state, and the state keeps its canonical
form. -/

namespace Sys2Proof.Machine

/-- A command completes in a state. -/
def Completes (i : Instr) (s : State) : Prop := ∃ t, exec i s = .next t

/-- Keys strictly rising. -/
def rising {α : Type} : List (Nat × α) → Bool
  | [] => true
  | [_] => true
  | a :: b :: l => decide (a.1 < b.1) && rising (b :: l)

/-- The canonical form of a protected memory: addresses rise, and no entry is the stored zero word. -/
def Mem.wf (m : Mem) : Bool := rising m && m.all fun x => x.2 != 0

/-- Every protected memory has its canonical form. -/
def State.memsWf (s : State) : Bool := s.mems.toList.all Mem.wf

/-- The lists of the state have their canonical form: the protected memories, and the configuration registers beside their
factory values (R17, R467). -/
def State.canonical (s : State) : Bool := s.memsWf && rising s.cfg

/-- An interrupt source is PENDING or ACTIVE (R415). -/
def shows (s : State) (n : Fin 96) : Bool := isPend s n || isActive s .a n || isActive s .b n

/-- A port can bring a register access now: the state permits it (R94), no reset and no standby entry is under way, the port is in
packet mode, the interpreter is free (R153), and no tap is with the other port (R185 to R187). -/
structure RowReady (op : Op) (p : Port) (s : State) : Prop where
  permitted : opPermitted op s.pw.dev = true
  noReset : s.pw.resetSeq = none
  noEntry : s.pw.stby ≠ .entering
  packet : (prt s p).daisy = false
  noGrp : s.grpJob = none
  noReg : s.regJob = none
  noCfg : s.cfgJob = none
  taps : ∀ k : Fin 32, s.taps[k].holder ≠ some (pother p)

/-- A command packet stands at the head of its port's command buffer, stored without an error (R126, R468), and the interpreter
takes it up now: the front ends work, nothing else is under way, it is not the other port's turn (R153), and no reply of the
port waits outside its queue (R159). -/
structure PacketHead (op : Op) (m : Msg) (s : State) : Prop where
  live : isLive s = true
  noReset : s.pw.resetSeq = none
  noEntry : s.pw.stby ≠ .entering
  packet : (prt s m.port).daisy = false
  noGrp : s.grpJob = none
  noReg : s.regJob = none
  noCfg : s.cfgJob = none
  head : ∃ l, (prt s m.port).cmdBuf = { op := op, msg := m, cells := m.words.map encWord } :: l
  noWait : (prt s m.port).waiting = []
  turn : s.turn = some m.port → (prt s (pother m.port)).cmdBuf = []

/-- Such a packet that passes the checks which do not depend on its payload (R154): it is whole with a good check word (R146), the
port's vintage is high enough (R161), the state permits the opcode (R94), and no tap bound to the opcode is with the other
port (R187). -/
structure PacketReady (op : Op) (m : Msg) (s : State) : Prop extends PacketHead op m s where
  good : m.good = true
  whole : m.stream = .none ∨ m.stream = .whole
  vintage : ∃ i, opInfo op = some i ∧ i.vintage ≤ portVintage s m.port
  permitted : opPermitted op s.pw.dev = true
  bound : opHeld s m.port op = false

/-- The other port holds no tap (R185). -/
def TapsFree (p : Port) (s : State) : Prop := ∀ k : Fin 32, s.taps[k].holder ≠ some (pother p)

/-- The packet has left its buffer and it is its port's turn (R153). -/
def popped (m : Msg) (s : State) : State :=
  modPort m.port (fun x => { x with cmdBuf := x.cmdBuf.tail }) (setTurn (some m.port) s)

/-- The state in which a packet's command is judged and executed: the cask has recorded it (R509). -/
def takenUp (op : Op) (m : Msg) (s : State) : State := recCmd op m (popped m s)

/-- The reply to a packet is queued (R156, R158). -/
def replied (m : Msg) (st : Status) (ws : List Word) (s : State) : State := queueReply m.port st m.tag m.wake ws s

/-- From `s` to `t` nothing has changed but what the taking up of a packet touches: the ports, whose turn it is (R153), and the
cask's record of the command (R509) with what that touches. No protected memory but the cask's has changed. -/
def Took (s t : State) : Prop :=
  t = { s with ports := t.ports, turn := t.turn, irq := t.irq, cask := t.cask, mems := t.mems, mi := t.mi, mmp := t.mmp }
    ∧ ∀ m : Fin 16, m ≠ 8 → t.mems[m] = s.mems[m]

/-- The packet rows of the command table that the interpreter takes up. -/
def packetOf : Instr → Option (Op × Msg)
  | .hello m => some (Op.hello, m)
  | .status m => some (Op.status, m)
  | .regRead m => some (Op.regRead, m)
  | .regWrite m => some (Op.regWrite, m)
  | .tapTake m => some (Op.tapTake, m)
  | .tapRelease m => some (Op.tapRelease, m)
  | .chanConfig m => some (Op.chanConfig, m)
  | .chanSet m => some (Op.chanSet, m)
  | .chanGet m => some (Op.chanGet, m)
  | .safeNow m | .relink m | .groupCmdClrCnt m => some (Op.groupCmd, m)
  | .trellisLoad m => some (Op.trellisLoad, m)
  | .trellisArm m | .trellisStop m | .trellisHalt m => some (Op.trellisArm, m)
  | .trellisRead m => some (Op.trellisRead, m)
  | .panRead m => some (Op.panRead, m)
  | .wdServe m => some (Op.wdServe, m)
  | .wdConfigSet m | .wdConfigStart m | .wdConfigStop m => some (Op.wdConfig, m)
  | .irqAck m => some (Op.irqAck, m)
  | .caskStatus m | .caskStart m | .caskStop m | .caskFreeze m | .caskClear m | .caskNote m => some (Op.caskCtrl, m)
  | .caskRead m => some (Op.caskRead, m)
  | .rack m => some (Op.rack, m)
  | .replayStart m | .replayAbort m => some (Op.replay, m)
  | .calSet m => some (Op.calSet, m)
  | .calArm m | .calArmCancel m => some (Op.calArm, m)
  | .attest m => some (Op.attest, m)
  | .sealLoad m => some (Op.sealLoad, m)
  | .ownerEnroll m => some (Op.ownerEnroll, m)
  | .ownerRelease m => some (Op.ownerRelease, m)
  | .nvUpdateBegin m | .nvUpdateAbort m => some (Op.nvBegin, m)
  | .nvUpdateData m => some (Op.nvData, m)
  | .nvUpdateCommit m => some (Op.nvCommit, m)
  | .stateReq m => some (Op.stateReq, m)
  | .inject m => some (Op.inject, m)
  | .faultRead m => some (Op.faultRead, m)
  | .faultAck m => some (Op.faultAck, m)
  | .portSleep m => some (Op.portSleep, m)
  | _ => none

/-- A WD_SERVE packet with token `w` comes to a port that works and is idle (R111, R124 to R126, R151): its header passes the front
end, its check word is good, and its reply will fit. -/
structure ServeArrives (m : Msg) (w : Word) (s : State) : Prop where
  live : isLive s = true
  noReset : s.pw.resetSeq = none
  noEntry : s.pw.stby ≠ .entering
  packet : (prt s m.port).daisy = false
  idle : (prt s m.port).selected = false
  awake : (prt s m.port).awake = true
  empty : (prt s m.port).cmdBuf = []
  noWait : (prt s m.port).waiting = []
  fits : replyFits (prt s m.port) 0 = true
  noCfg : s.cfgJob = none
  noInj : s.inj.armed = none
  tagFree : bit (prt s m.port).tags m.tag.toNat = false
  lanes : m.lanes.toNat ≤ 2
  wake : m.wake = true → (prt s m.port).vintage = 3
  words : m.words = [w]
  good : m.good = true
  plain : m.stream = .none

end Sys2Proof.Machine
end

