-- ==== Sys2Proof/Certificates/Slice0/Obligations.lean ====
section
/-! DEFINITION. The statements for the provers. Each `def` says in its docstring which rules of spec/ it formalises and on
which log entries it rests. A statement of the form "the command answers this next state" says that the command completes,
what it changes and that nothing else changes. -/

open Sys2Proof Sys2Proof.Machine

/-! ### The machine -/

/-- A step runs the command at the front of the queue on the state with the queue's rest.

A step on an empty queue lets one tick pass and changes nothing else (log entry 1, DESIGN CHOICE). -/
def Obligations.StepRunsFrontCommand : Prop :=
  (∀ (s : State) (c : Instr) (l : List Instr), s.pending = c :: l → step s = exec c { s with pending := l })
  ∧ (∀ s : State, s.pending = [] → step s = .next { s with now := s.now + 1 })

/-! ### Single register accesses -/

/-- Counters and flags that a write of 1 to a clear field sets to 0 (R106, R107, R140, R200, R236, R271, R301, R400, R413, R481,
R508, R536, R554); nothing else changes. VMIN returns to 0xFF (R400).

Event bits that a write names are cleared, the others and everything else stay (R344, R371, R400).

CLR_LATCH and CLR_CNT of DCTL travel to the field die of the channel as a configuration message while its link is UP, and
do nothing while it is not (R329, R320, R36). -/
def Obligations.ClearsThroughRegisters : Prop :=
  (∀ (p x : Port) (g : Grp) (s : State), RowReady Op.regWrite p s →
      exec (.resetCauseClear p) s = .next (modAon (fun a => { a with resetCause := 0 }) s)
      ∧ exec (.wakeCauseClear p) s = .next (modAon (fun a => { a with wakeCause := 0 }) s)
      ∧ exec (.portErrClear p x) s
          = .next (modPort x (fun q => { q with frag := 0, tail := 0, hdrBad := 0, aborted := 0, overrun := 0, discard := 0 }) s)
      ∧ exec (.portDaisyClear p x) s
          = .next (modPort x (fun q => { q with
              accepted := 0, lenRej := 0, crcRej := 0, lastFrame := 0, timedOut := false, refused := false }) s)
      ∧ exec (.tbLockClear p) s = .next { s with links := s.links.map fun l => { l with stepped := false } }
      ∧ exec (.trkClrCnt p) s
          = .next (modTrk (fun t => { t with missed := 0, extra := 0, losses := 0, indexErr := 0, camErr := 0, dirChg := 0 }) s)
      ∧ exec (.seqClrCnt p) s
          = .next (modSeq (fun q => { q with late := 0, skew := 0, dropped := 0, deferred := 0, withdraw := 0, skMax := 0 }) s)
      ∧ exec (.smpClrCnt p) s
          = .next (modSmp (fun m => { m with
              busy := Vector.replicate 6 0, lost := Vector.replicate 6 0, skipped := Vector.replicate 6 0
              overwritten := Vector.replicate 6 0 }) s)
      ∧ exec (.grpClrCnt p g) s
          = .next (modLink g (fun l => { l with dnCrc := 0, upCrc := 0, resent := 0, losses := 0, vmin := 0xFF }) s)
      ∧ exec (.govClrCnt p) s
          = .next (modGov (fun x => { x with cntDef := 0, cntStag := 0, cntDrop := 0, cntOver := 0 }) s)
      ∧ exec (.miClrCnt p) s
          = .next (modMi (fun x => { x with
              cnt := x.cnt.map fun c => { c with corr := 0, uncorr := 0, lcorV := false, lbadV := false } }) s)
      ∧ exec (.secClrCnt p) s = .next (modSec (fun x => { x with refused := 0, attests := 0 }) s)
      ∧ exec (.caskClrLoss p) s
          = .next (modCask (fun k => { k with lossAdc := 0, lossDi := 0, lossOther := 0, overwrite := 0 }) s)
      ∧ exec (.mmpClrCnt p) s = .next (modMmp (fun m => { m with errors := 0, pollTo := 0 }) s)
      ∧ exec (.mmpClrErr p) s = .next (modMmp (fun m => { m with err0 := 0, err1 := 0, err2 := 0, lastKind := 0 }) s))
  ∧ (∀ (p : Port) (n : Chan) (g : Grp) (d : BitVec 11) (a : BitVec 5) (e : BitVec 8) (s : State), RowReady Op.regWrite p s →
      exec (.dctlClrEvt p n d) s = .next (modMir n (fun m => { m with evt := m.evt &&& ~~~d }) s)
      ∧ exec (.actlClrEvt p n a) s = .next (modMir n (fun m => { m with aevt := m.aevt &&& ~~~a }) s)
      ∧ exec (.grpClrEvt p g e) s = .next (modLink g (fun l => { l with evt := l.evt &&& ~~~e }) s))
  ∧ (∀ (p : Port) (n : Chan) (s : State), RowReady Op.regWrite p s →
      ((lnk s (chanGrp n)).st = .up →
        exec (.dctlClrLatch p n) s
            = .next (modLink (chanGrp n) (fun l => { l with conf := l.conf ++ [.host (chanLidx n) .clrLatch] }) s)
        ∧ exec (.dctlClrCnt p n) s
            = .next (modLink (chanGrp n) (fun l => { l with conf := l.conf ++ [.host (chanLidx n) .cntClr] }) s))
      ∧ ((lnk s (chanGrp n)).st ≠ .up → exec (.dctlClrLatch p n) s = .next s ∧ exec (.dctlClrCnt p n) s = .next s))

/-- Writes to the registers of the interrupt controller (R415, R416, R419, R421, R423, R425, R434): the register takes the
written value, what can be delivered is delivered, and nothing outside the controller changes. A pending bit written 0 is
cleared, one written 1 is raised; RING raises the doorbell of the writing port. -/
def Obligations.InterruptRegisterWrites : Prop :=
  ∀ (p x : Port) (k : Fin 5) (m : Fin 16) (n : Fin 96) (v : Word) (s : State), RowReady Op.regWrite p s →
    (∃ q, exec (.ienWrite p k v) s = .next { cfgSet (.ien k) (maskW (.ien k) v) s with irq := q })
    ∧ (∃ q, exec (.portPrioWrite p x v) s = .next { cfgSet (.portPrio x) (v &&& 0xF) s with irq := q })
    ∧ (¬(fld v 0 10 = 0 ∧ fld v 10 8 = 0) →
        ∃ q, exec (.modCfgWrite p m v) s = .next { cfgSet (.modCfg m) v s with irq := q })
    ∧ (fld v 6 5 ≤ 16 → ¬(fld v 0 4 = 0 ∧ fld v 4 2 = 3) →
        ∃ q, exec (.intCfgWrite p n v) s = .next { cfgSet (.intCfg n) (v &&& 0x7FF) s with irq := q })
    ∧ (∃ t, exec (.ipendWrite p k v) s = .next t ∧ t = { s with irq := t.irq }
        ∧ ∀ j : Fin 96, j.val / 20 = k.val → if bit v (j.val % 20) then shows t j = true else isPend t j = false)
    ∧ ∃ t, exec (.irqBellRing p) s = .next t ∧ t = { s with irq := t.irq } ∧ shows t (match p with | .a => 91 | .b => 92) = true

/-- Writes to the tracker's registers (R221, R232, R237), in CONFIG or MAINTENANCE, unsealed, of a value in range: the register
takes the written bits and no other register changes; a write to ANG_IN, WHEEL, ZTOOTH or TRK_CFG restarts the tracker in
STOPPED; a write to TCORk stores the word in the correction memory and changes no other word of it.

TRK_CMD (R221, R234): RESEEK leads from every state but STOPPED to SEEKING with PRED_OK 0, and does nothing in STOPPED;
PHASE0 and PHASE1 end REV_SYNC in CYCLE_SYNC with the host's phase; CLR_LEARN clears every TCORk and LEARNED. -/
def Obligations.TrackerRegisters : Prop :=
  (∀ (p : Port) (r : TrkReg) (v : Word) (s : State), RowReady Op.regWrite p s → inConfMaint s = true → isOwned s = false →
      s.cask.st ≠ .replaying → s.mi.fArmed = false → s.canonical = true →
      regRange (afterWrite (trkReg r) (maskW (trkReg r) v) s) (trkReg r) (maskW (trkReg r) v) = true →
      ∃ t, exec (.trackerConfigWrite p r v) s = .next t
        ∧ (∀ q : Reg, q.addr ≠ (trkReg r).addr → cfgGet t q = cfgGet s q)
        ∧ match r with
          | .tcor k =>
            memCell t 15 k.val = encWord (v &&& 0xFFF) ∧ (∀ m a, m ≠ 15 ∨ a ≠ k.val → memCell t m a = memCell s m a)
              ∧ t.trk = s.trk
          | .angIn | .wheel | .ztooth | .trkCfg =>
            cfgGet t (trkReg r) = maskW (trkReg r) v ∧ t.trk.st = .stopped
              ∧ t.trk.posHeld = false
          | _ =>
            cfgGet t (trkReg r) = mergeW (trkReg r) (cfgGet s (trkReg r)) (maskW (trkReg r) v) ∧ t.trk = s.trk
              ∧ t.mems = s.mems)
  ∧ (∀ (p : Port) (s : State), RowReady Op.regWrite p s →
      (s.trk.st = .stopped → exec (.trkReseek p) s = .next s)
      ∧ (s.trk.st ≠ .stopped →
          ∃ t, exec (.trkReseek p) s = .next t ∧ t.trk.st = .seeking ∧ t.trk.predOk = false ∧ t.trk.edges = 0
            ∧ t.cfg = s.cfg ∧ t.fields = s.fields)
      ∧ (s.trk.st = .revSync →
          (∃ t, exec (.trkPhase0 p) s = .next t ∧ t.trk.st = .cycleSync ∧ t.trk.phaseHost = true ∧ t.cfg = s.cfg)
          ∧ ∃ t, exec (.trkPhase1 p) s = .next t ∧ t.trk.st = .cycleSync ∧ t.trk.phaseHost = true ∧ t.cfg = s.cfg)
      ∧ (s.mi.fArmed = false → s.canonical = true →
          ∃ t, exec (.trkClrLearn p) s = .next t ∧ t.trk = { s.trk with learned := false, learnCnt := [] }
            ∧ (∀ k, k < 1024 → memCell t 15 k = encWord 0) ∧ (∀ m a, m ≠ 15 ∨ 1024 ≤ a → memCell t m a = memCell s m a)
            ∧ t.cfg = s.cfg ∧ t.irq = s.irq))

/-- SMP_CMD and PAN_CMD (R279, R287, R304). FIRE: the common stamp of R279 is kept for SMP_T, and nothing but samples to come is
added. OPEN and CLOSE of a pan of one group wait for their stamp as host events (origin 2); with GROUP 7 they do so for every
group that is up. RELEASE makes a CLOSED pan idle; no pan of a named group may be OPEN.

MI_TEST.RUN (R479) starts a pattern test of the selected memories, which lose their contents; MEMINJ1.ARM (R480) arms the
flip; AUTO_RESUME (R528) lets automatic racking go on; CANCEL (R561) ends an armed injection as cancelled. -/
def Obligations.SamplingAndServiceRegisters : Prop :=
  (∀ (p : Port) (g : BitVec 3) (q : BitVec 4) (h : Grp) (s : State), RowReady Op.regWrite p s →
      (∃ t, exec (.smpFire p) s = .next t ∧ t = { s with smp := t.smp, fields := t.fields }
          ∧ t.smp = { s.smp with cmdT := cmdStamp s, expect := t.smp.expect }
          ∧ ∀ k : Grp, (lnk s k).st ≠ .up → t.fields[k] = s.fields[k])
      ∧ (g.toNat = h.val →
          exec (.panCmdOpen p g q) s = .next (modSmp (fun m => { m with evs := m.evs ++
            [{ g := h, pan := ⟨q.toNat, q.isLt⟩, opens := true, stamp := cmdStamp s, origin := 2,
               decim := panDecimOf s h ⟨q.toNat, q.isLt⟩, cycle := 0, angle := 0, entry := 0 }] }) s)
          ∧ exec (.panCmdClose p g q) s = .next (modSmp (fun m => { m with evs := m.evs ++
            [{ g := h, pan := ⟨q.toNat, q.isLt⟩, opens := false, stamp := cmdStamp s, origin := 2,
               decim := panDecimOf s h ⟨q.toNat, q.isLt⟩, cycle := 0, angle := 0, entry := 0 }] }) s)
          ∧ ((pan s h ⟨q.toNat, q.isLt⟩).st ≠ .opened →
              exec (.panCmdRelease p g q) s
                = .next (modPan h ⟨q.toNat, q.isLt⟩ (fun k => if k.st = .closed then { k with st := .idle } else k) s)))
      ∧ (g.toNat = 7 →
          (∃ t, exec (.panCmdOpen p g q) s = .next t ∧ t = { s with smp := { s.smp with evs := t.smp.evs } }
            ∧ t.smp.evs.length = s.smp.evs.length + (groups.filter fun k => (lnk s k).st = .up).length)
          ∧ (∃ t, exec (.panCmdClose p g q) s = .next t ∧ t = { s with smp := { s.smp with evs := t.smp.evs } }
            ∧ t.smp.evs.length = s.smp.evs.length + (groups.filter fun k => (lnk s k).st = .up).length)))
  ∧ (∀ (p : Port) (sel : BitVec 16) (mem : BitVec 4) (half : Bool) (s : State), RowReady Op.regWrite p s →
      (s.pw.dev = .maint → s.cask.st = .idle → s.cask.rack = [] → s.cask.autoSlot = none →
          (∀ (g : Grp) (q : Fin 16), (pan s g q).st ≠ .opened) → fld sel 9 6 = 0 →
          ∃ t, exec (.miTestRun p sel) s = .next t ∧ t.mi.test = some (s.now, sel)
            ∧ (∀ m : Fin 16, t.mems[m] = if bit sel m.val then [] else s.mems[m])
            ∧ t = { s with mi := t.mi, mems := t.mems, seq := t.seq, trk := t.trk, links := t.links, smp := t.smp, cask := t.cask })
      ∧ (meminjOk s = true →
          exec (.meminjArm p mem half) s
            = .next (modMi (fun x => { x with fMem := mem, fHalf := half, fArmed := true, fDone := false }) s))
      ∧ (s.cask.closed = [] ∨ cfgBit s .caskCfg 1 = false →
          exec (.caskAutoResume p) s = .next (modCask (fun k => { k with autoStop := false, tries := 0 }) s))
      ∧ (∀ slot l, s.cask.closed = slot :: l → cfgBit s .caskCfg 1 = true → s.cask.autoSlot = none →
          ∃ t, exec (.caskAutoResume p) s = .next t ∧ t.cask.autoSlot = some slot ∧ t.cask.autoStop = false ∧ t.cask.tries = 0
            ∧ t.mmp.reqs.length = s.mmp.reqs.length + 1)
      ∧ (s.inj.armed = none → exec (.injCancel p) s = .next s)
      ∧ ∀ a, s.inj.armed = some a →
          exec (.injCancel p) s
            = .next (modFlt (fun f => if a.dom = 11 ∧ a.cause = 1 then { f with heartbeat := none } else f)
                (modInj (fun i => { i with armed := none, last := 2 }) s)))

/-- A write of MODE to CHn.CFG (R307, R308, R350, R270), unsealed and of a mode that the pair and the armed banks admit, gives
every channel the mode that R350 names: the channel itself, and with mode 8 the odd channel of its pair. Nothing changes
but the configuration and the messages to field dies.

CHAN_CONFIG of one unit (R170 to R174, R309, R310): a unit that passes its checks is written and counted in the reply and its
map; a refused one is answered with its status and channel and has no effect. A staged unit is sent to its field die for the
common instant, and the interpreter waits for that instant with the reply. -/
def Obligations.ChannelConfiguration : Prop :=
  (∀ (p : Port) (n : Chan) (v : Word) (s : State), RowReady Op.regWrite p s → isOwned s = false → s.cask.st ≠ .replaying →
      s.canonical = true → (∀ k, chMode s k ≤ 8) → fld v 0 4 ≤ 8 → (fld v 0 4 = mAiDiff → n.val % 2 = 0 ∨ inDiff s n = true) →
      modeStateOk s n (fld v 0 4) = true →
      ∃ t, exec (.modeChange p n v) s = .next t ∧ t = { s with cfg := t.cfg, links := t.links }
        ∧ (∀ k, chMode t k = modesAfter s n (fld v 0 4) k)
        ∧ ∀ r : Reg, (∀ k, r ≠ .ch k .cfg) → cfgGet t r = cfgGet s r)
  ∧ (∀ (m : Msg) (n : Chan) (ws : List (Nat × Word)) (s : State), PacketReady Op.chanConfig m s → 4 ≤ m.words.length →
      m.words.length ≤ 2046 → cfgShape m = true → cfgRange s m = true → cfgUnits m = [(n, ws)] →
      let u := takenUp Op.chanConfig m s
      (staged m = false → judgeUnit Op.chanConfig m.port ws u = none →
        exec (.chanConfig m) s = .next (replied m stOk (splitReply 1 stOk 0 (2 ^ n.val) false) (unitWrite n ws u)))
      ∧ (∀ st, judgeUnit Op.chanConfig m.port ws u = some st →
        exec (.chanConfig m) s = .next (replied m st (splitReply 0 st (BitVec.ofNat 20 n.val) 0 false) u))
      ∧ (staged m = true → judgeUnit Op.chanConfig m.port ws u = none →
        ∃ t j, exec (.chanConfig m) s = .next t ∧ t = { u with cfgJob := some j, links := t.links }
          ∧ j.cmd = { op := Op.chanConfig, port := m.port, tag := m.tag, wake := m.wake } ∧ j.at_ = cmdStamp s
          ∧ j.units = [unitEffect u n ws]
          ∧ ((lnk s (chanGrp n)).st = .up → dieValues (unitEffect u n ws).2.1 ≠ [] →
            (lnk t (chanGrp n)).conf
              = (lnk s (chanGrp n)).conf ++ [.regs (dieValues (unitEffect u n ws).2.1) (some (cmdStamp s))])))

/-- A read or write of a host data address (R552, R553) whose word lies in the port's window becomes a request to the memory
master port, in service order behind those that wait; the interpreter waits for it. A snapshot read of the lowest word of the
timebase keeps the two higher words for the port (R179, R180). A write to a higher word waits in the port's stage (R182).

REG_READ (R165, R181, R473): the addresses are read one after another; a word of a protected memory that cannot be mended
makes the reply FAULT. A host data address (R552) becomes a request to the memory master port; the reply follows later.

REG_WRITE (R166, R169 to R173): a pair that passes its checks is written and counted; the first that fails stops the command,
with status PARTIAL when a pair was written before it. A staged command with a failing pair has no effect. The reply
is queued unless a reset has been recognised meanwhile (R83). -/
def Obligations.RegisterAccesses : Prop :=
  (∀ (p : Port) (i : Fin 512) (v : Word) (a : BitVec 16) (s : State),
      (RowReady Op.regRead p s → hdataOk s p false i.val = true →
        exec (.mmpHostRead p i) s = .next
          (modMmp (fun m => { m with reqs := m.reqs ++ [mkReq .host (hostWin s p) false (hostWord s p i.val) 1 [] none] })
            (setRegJob (some {
              cmd := none, port := p, write := false, staged := false, words := [0], pairs := [], done := 0, bad := false,
              runs := [{ ref := 0, win := hostWin s p, word := hostWord s p i.val, data := [0] }] }) s)))
      ∧ (RowReady Op.regWrite p s → hdataOk s p true i.val = true → inConfMaint s = true →
        exec (.mmpHostWrite p i v) s = .next
          (modMmp (fun m => { m with
              reqs := m.reqs ++ [mkReq .host (hostWin s p) true (hostWord s p i.val) 1 (wordBytes v) none] })
            (setRegJob (some {
              cmd := none, port := p, write := true, staged := false, words := [], pairs := [], done := 0, bad := false,
              runs := [{ ref := 0x8600 + i.val, win := hostWin s p, word := hostWord s p i.val, data := [v] }] }) s)))
      ∧ (RowReady Op.regRead p s → a.toNat = (Reg.tb 0).addr →
        exec (.snapshotRead p a) s = .next (modPort p (fun x => { x with
          latch := (fun h m => insertKey (Reg.tb 2).addr h (h != 0) (insertKey (Reg.tb 1).addr m (m != 0) x.latch))
            (BitVec.ofNat 20 (tbNow s >>> 40)) (BitVec.ofNat 20 (tbNow s >>> 20)) }) s))
      ∧ (RowReady Op.regWrite p s → ∀ r : Reg, a.toNat = r.addr → isHigher r = true →
        exec (.stagedWordWrite p a v) s = .next (modPort p (fun x => { x with stage := insertKey r.addr v true x.stage }) s)))
  ∧ (∀ (m : Msg) (s : State), PacketReady Op.regRead m s → m.stream = .none → m.words ≠ [] → m.words.length ≤ 2046 →
      ((∀ a ∈ m.words, fld a 16 4 = 0 ∧ hdataIx a.toNat = none) →
        exec (.regRead m) s = .next (
          let r := readAll m.port m.words (takenUp Op.regRead m s)
          answer m (.reply (if r.1.2 then stFault else stOk) r.1.1, r.2)))
      ∧ ((∃ a ∈ m.words, fld a 16 4 ≠ 0) → exec (.regRead m) s = .next (replied m stRange [] (takenUp Op.regRead m s)))
      ∧ ∀ i : Fin 512, m.words = [BitVec.ofNat 20 (0x8600 + i.val)] → hdataOk s m.port false i.val = true →
        exec (.regRead m) s = .next
          (modMmp (fun x => { x with reqs := x.reqs ++ [mkReq .host (hostWin s m.port) false (hostWord s m.port i.val) 1 [] none] })
            (setRegJob (some {
              cmd := some { op := Op.regRead, port := m.port, tag := m.tag, wake := m.wake }, port := m.port, write := false
              staged := false, words := [0], pairs := [], done := 0, bad := false
              runs := [{ ref := 0, win := hostWin s m.port, word := hostWord s m.port i.val, data := [0] }] })
              (takenUp Op.regRead m s))))
  ∧ (∀ (m : Msg) (a v b w c : Word) (s : State), PacketReady Op.regWrite m s → hdataIx a.toNat = none → hdataIx b.toNat = none →
      let u := takenUp Op.regWrite m s
      let u1 := writeAddr m.port a.toNat v u
      judgePair Op.regWrite m.port (a, v) u = none →
      ((m.words = [0, a, v] ∨ m.words = [1, a, v] ∧ portVintage s m.port = 3) →
        exec (.regWrite m) s = .next (answer m (.reply stOk (splitReply 1 stOk 0 0 false), u1)))
      ∧ (m.words = [0, a, v, b, w] → judgePair Op.regWrite m.port (b, w) u1 = none →
        exec (.regWrite m) s = .next (answer m (.reply stOk (splitReply 2 stOk 0 0 false), writeAddr m.port b.toNat w u1)))
      ∧ (∀ st, m.words = [0, a, v, b, w] → judgePair Op.regWrite m.port (b, w) u1 = some st →
        exec (.regWrite m) s = .next (answer m (.reply stPartial (splitReply 1 st b 0 false), u1)))
      ∧ (∀ st, m.words = [0, c, w, a, v] → judgePair Op.regWrite m.port (c, w) u = some st →
        exec (.regWrite m) s = .next (replied m st (splitReply 0 st c 0 false) u))
      ∧ (∀ st, m.words = [1, c, w, a, v] → portVintage s m.port = 3 → judgePair Op.regWrite m.port (c, w) u = some st →
        exec (.regWrite m) s = .next (replied m st (splitReply 0 st c 0 false) u)))

/-! ### Packets and replies -/

/-- The interpreter takes up the packet at the head of a buffer (R126, R153, R509): the packet leaves its buffer, it is the
port's turn, the command is recorded where CASK_CFG says so, and nothing else changes.

A reply that fits is queued last, with its time, and raises the port's reply source; one that does not fit waits outside the
queue and raises the waiting source. WAKE in the command sets the WAKE level. Nothing else changes (R158, R159, R429).

A packet that the check word, the port's vintage or the device state refuses is answered with the status of the first of
these checks that fails, a port of vintage 1 receiving UNKNOWN_OP for VINTAGE, and has no effect (R94, R146, R154, R161, R163). A
split command's reply still carries five words (R171), STATE_REQ's DEV_STATE (R578). -/
def Obligations.PacketsAndReplies : Prop :=
  (∀ (op : Op) (m : Msg) (s : State), PacketHead op m s →
      Took s (takenUp op m s)
      ∧ prt (takenUp op m s) m.port = { prt s m.port with cmdBuf := (prt s m.port).cmdBuf.tail }
      ∧ prt (takenUp op m s) (pother m.port) = prt s (pother m.port)
      ∧ (takenUp op m s).turn = some m.port
      ∧ (cfgBit s .caskCfg 3 = false → takenUp op m s = popped m s))
  ∧ (∀ (p : Port) (st : Status) (tag : BitVec 7) (wake : Bool) (ws : List Word) (s : State), s.mi.fArmed = false → isLive s = true →
      ∃ t, queueReply p st tag wake ws s = t ∧ t = { s with ports := t.ports, irq := t.irq }
        ∧ prt t (pother p) = prt s (pother p)
        ∧ (prt t p).wakeLvl = ((prt s p).wakeLvl || wake)
        ∧ if (prt s p).waiting = [] ∧ (prt s p).replyQ.length < 128 ∧ storeUsed (prt s p) + ws.length ≤ 4096 then
            prt t p = { prt s p with
              replyQ := (prt s p).replyQ ++ [{ status := st, tag := tag, wake := wake, cells := ws.map encWord, queuedAt := s.now }]
              wakeLvl := (prt t p).wakeLvl }
              ∧ shows t (match p with | .a => 72 | .b => 73) = true
          else
            prt t p = { prt s p with
              waiting := (prt s p).waiting ++ [{ status := st, tag := tag, wake := wake, cells := ws.map encWord, queuedAt := s.now }]
              wakeLvl := (prt t p).wakeLvl }
              ∧ shows t (match p with | .a => 74 | .b => 75) = true)
  ∧ (∀ (c : Instr) (op : Op) (m : Msg) (i : OpInfo) (s : State), packetOf c = some (op, m) → opInfo op = some i →
      PacketHead op m s → m.stream = .none →
      (m.good = false → m.words ≠ [] →
        exec c s = .next (replied m stCheck (refusalWords op stCheck (devStateWord s)) (takenUp op m s)))
      ∧ (m.good = true → portVintage s m.port < i.vintage →
        ∀ st, st = (if portVintage s m.port = 1 then stUnknown else stVintage) →
          exec c s = .next (replied m st (refusalWords op st (devStateWord s)) (takenUp op m s)))
      ∧ (m.good = true → i.vintage ≤ portVintage s m.port → opPermitted op s.pw.dev = false →
        exec c s = .next (replied m stState (refusalWords op stState (devStateWord s)) (takenUp op m s))))

/-- HELLO (R162): V = min(MAX, 3) comes into force on the port and the reply carries its four words; where MIN or MAX is 0, MIN
is above MAX, or V below MIN, the reply is VINTAGE without payload and nothing changes.

STATUS (R167) answers its eight words and changes nothing. -/
def Obligations.HelloAndStatus : Prop :=
  (∀ (m : Msg) (w : Word) (s : State), PacketReady Op.hello m s → m.words = [w] → fld w 8 12 = 0 →
      if 1 ≤ fld w 4 4 ∧ fld w 4 4 ≤ fld w 0 4 ∧ fld w 4 4 ≤ 3 then
        exec (.hello m) s = .next (replied m stOk
          [pack [(0, min (fld w 0 4) 3), (4, 3), (8, linkVintage s)], 0x04860, fwVer s,
            pack [(0, (pidx m.port).val), (1, (prt s (pother m.port)).vintage.toNat)]]
          (modPort m.port (fun x => { x with vintage := BitVec.ofNat 2 (min (fld w 0 4) 3) }) (takenUp Op.hello m s)))
      else exec (.hello m) s = .next (replied m stVintage [] (takenUp Op.hello m s)))
  ∧ (∀ (m : Msg) (s : State), PacketReady Op.status m s → m.words = [] →
      exec (.status m) s = .next (replied m stOk
        ([devStateWord s, grpUpWord s,
          pack [(0, trkCode s.trk.st), (4, optBit (activeBank s)), (5, b2n ((bnk s 0).st != .unarmed || (bnk s 1).st != .unarmed))],
          angNow s] ++ stampWords (tbNow s) ++ [pack [(0, (prt s m.port).replyQ.length), (8, b2n (faultN s))]])
        (takenUp Op.status m s)))

/-! ### Taps -/

/-- TAP_TAKE (R188, R189): a free tap goes to the sending port and its idle timer starts; a tap that a port holds stays as it is.
The reply word names the tap and its holder after the command, with OK and with TAP_HELD alike. -/
def Obligations.TapTakeReply : Prop :=
  ∀ (m : Msg) (w : Word) (s : State), PacketReady Op.tapTake m s → m.words = [w] → fld w 5 15 = 0 →
    let k : Fin 32 := tapNo m
    k.val = fld w 0 5
    ∧ (s.taps[k].holder = none → exec (.tapTake m) s = .next (replied m stOk
        [pack [(0, k.val), (5, match m.port with | .a => 1 | .b => 2)]]
        (modTap k (fun t => { t with holder := some m.port, since := s.now }) (takenUp Op.tapTake m s))))
    ∧ (s.taps[k].holder = some m.port → exec (.tapTake m) s = .next (replied m stOk
        [pack [(0, k.val), (5, match m.port with | .a => 1 | .b => 2)]] (takenUp Op.tapTake m s)))
    ∧ (s.taps[k].holder = some (pother m.port) → exec (.tapTake m) s = .next (replied m stTap
        [pack [(0, k.val), (5, match m.port with | .a => 2 | .b => 1)]] (takenUp Op.tapTake m s)))

/-- TAP_RELEASE and the idle timeout (R188, R190): the sending port's own tap is freed with LAST_REL 1 and source 76, a free tap
stays, the other port's is DENIED; at its timeout 2^(IDLE - 1) ms after `since` a held tap is freed with LAST_REL 2. -/
def Obligations.TapIsFreed : Prop :=
  ∀ (m : Msg) (w : Word) (k : Fin 32) (s : State),
    (PacketReady Op.tapRelease m s → m.words = [w] → fld w 5 15 = 0 → fld w 0 5 = k.val →
      (s.taps[k].holder = some m.port → exec (.tapRelease m) s = .next (replied m stOk []
        (raise 76 (modTap k (fun t => { t with holder := none, lastRel := 1 }) (takenUp Op.tapRelease m s)))))
      ∧ (s.taps[k].holder = none → exec (.tapRelease m) s = .next (replied m stOk [] (takenUp Op.tapRelease m s)))
      ∧ (s.taps[k].holder = some (pother m.port) →
        exec (.tapRelease m) s = .next (replied m stDenied [] (takenUp Op.tapRelease m s))))
    ∧ (isLive s = true → s.taps[k].holder.isSome = true →
      exec (.tapIdleTimeout k) s = .next (raise 76 (modTap k (fun t => { t with holder := none, lastRel := 2 })
        { s with now := max s.now (s.taps[k].since + 2 ^ (cfgFld s (.tapCfg k) 0 4 - 1) * 250000) })))

/-! ### Interrupt controller -/

/-- IRQ_ACK (R415, R424): CANCEL clears the pending bit of the named sources, DONE ends the sending port's service of those it
names, with ALL of every one; a source that both name, or that is done and not pending, is idle on that port. Nothing
outside the controller changes.

PORT_SLEEP (R427): the port is no longer awake and no source is active on it; nothing else but the controller changes.

A moderator's timer fires at its time threshold (R421, R422): count 0, timer stopped, and every pending source assigned to
it is delivered or released. The supervisor timer raises source 90 at the next multiple of PERIOD x 25,000 ticks (R434). -/
def Obligations.InterruptsAreServed : Prop :=
  (∀ (m : Msg) (w : Word) (ms : List Word) (s : State), PacketReady Op.irqAck m s → m.words = w :: ms → ms.length ≤ 5 →
      m.stream = .none → fld w 3 17 = 0 → fld w 0 2 ≠ 0 → fld (ms.getD 4 0) 16 4 = 0 →
      ∃ t, exec (.irqAck m) s = .next (replied m stOk [] t) ∧ t = { takenUp Op.irqAck m s with irq := t.irq }
        ∧ (∀ n : Fin 96, bit w 1 = true → bit (ms.getD (n.val / 20) 0) (n.val % 20) = true → isPend t n = false)
        ∧ ∀ n : Fin 96, bit w 0 = true → (bit w 2 = true ∨ bit (ms.getD (n.val / 20) 0) (n.val % 20) = true) →
          (isPend (takenUp Op.irqAck m s) n = false ∨ bit w 1 = true ∧ bit (ms.getD (n.val / 20) 0) (n.val % 20) = true) →
          isActive t m.port n = false ∧ isPend t n = false)
  ∧ (∀ (m : Msg) (s : State), PacketReady Op.portSleep m s → m.words = [] →
      ∃ t, exec (.portSleep m) s = .next (replied m stOk [] t)
        ∧ t = { takenUp Op.portSleep m s with ports := t.ports, irq := t.irq }
        ∧ prt t m.port = { prt (takenUp Op.portSleep m s) m.port with awake := false }
        ∧ prt t (pother m.port) = prt s (pother m.port)
        ∧ ∀ n : Fin 96, isActive t m.port n = false)
  ∧ (∀ (m : Fin 16) (s : State), isLive s = true →
      (∀ t0 d, s.irq.mods[m].timer = some t0 → modTime s m = some d →
        ∃ t, exec (.moderatorTimerFire m) s = .next t ∧ t = { s with now := max s.now (t0 + d), irq := t.irq }
          ∧ t.irq.mods[m] = { count := 0, timer := none }
          ∧ ∀ n : Fin 96, intMod s n = m.val + 1 → isPend t n = true → bit t.irq.released n.val = true)
      ∧ ∀ b k, s.pw.tb0 = some b → k = (cfgGet s .irqTimer).toNat * 25000 → k ≠ 0 →
        exec .irqTimerTick s = .next (raise 90 { s with now := max s.now (b + (tbNow s / k + 1) * k) }))

/-! ### Channel and group commands -/

/-- CHAN_SET with one item of an output value, in RUN (R311, R312, R405, R406): a start waits in the governor in the place of an
earlier start of the channel; every other value cancels a waiting start and goes to the field die while its link is UP.

The other items of CHAN_SET (R311, R312): PWM_DUTY writes PWMDUTY, CNT_CLR and CLR_LATCH go to the field die. An item of a
reserved op, or for a mode it does not act on, refuses the command with RANGE and its index, and has no effect.

CHAN_GET (R309, R314): four words for each channel of the mask in ascending order; a mask that names no channel or one above
47 is RANGE. Nothing changes. -/
def Obligations.ChannelCommands : Prop :=
  (∀ (m : Msg) (n : Chan) (c v : Word) (op : HostOp) (s : State), PacketReady Op.chanSet m s → s.pw.dev = .run →
      m.words = (if fld c 6 4 = 5 then [c, v] else [c]) → fld c 0 6 = n.val → fld c 10 10 = 0 →
      (chMode s n = mDo ∧ (fld c 6 4 = 0 ∧ op = .off ∨ fld c 6 4 = 1 ∧ op = .on)
        ∨ chMode s n = mDoPwm ∧ (fld c 6 4 = 2 ∧ op = .pwmOff ∨ fld c 6 4 = 3 ∧ op = .pwmOn 0)
        ∨ chMode s n = mAoI ∧ fld c 6 4 = 5 ∧ v.toNat ≤ 0xEA600 ∧ op = .aoSet v) →
      (isStart s n op = true → exec (.chanSet m) s = .next (replied m stOk [1]
        (modGov (fun g => { g with waiting := g.waiting.filter (fun w => w.n != n) ++ [{ n := n, op := op, since := s.now, counted := 0 }] })
          (takenUp Op.chanSet m s))))
      ∧ (isStart s n op = false → exec (.chanSet m) s = .next (replied m stOk [1]
        (sendConf (chanGrp n) (.host (chanLidx n) op)
          (modGov (fun g => { g with waiting := g.waiting.filter fun w => w.n != n }) (takenUp Op.chanSet m s))))))
  ∧ (∀ (m : Msg) (n : Chan) (c v : Word) (s : State), PacketReady Op.chanSet m s → s.pw.dev = .run →
      fld c 0 6 = n.val → fld c 10 10 = 0 →
      (m.words = [c, v] → fld c 6 4 = 4 → chMode s n = mDoPwm → pwmOk (cfgSet (.ch n .pwmduty) v s) n = true →
        exec (.chanSet m) s = .next (replied m stOk [1] (putReg (.ch n .pwmduty) v (takenUp Op.chanSet m s))))
      ∧ (m.words = [c] → fld c 6 4 = 6 → chMode s n = mDiCount →
        exec (.chanSet m) s = .next (replied m stOk [1]
          (sendConf (chanGrp n) (.host (chanLidx n) .cntClr) (takenUp Op.chanSet m s))))
      ∧ (m.words = [c] → fld c 6 4 = 7 → (chMode s n = mDo ∨ chMode s n = mDoPwm) →
        exec (.chanSet m) s = .next (replied m stOk [1]
          (sendConf (chanGrp n) (.host (chanLidx n) .clrLatch) (takenUp Op.chanSet m s))))
      ∧ (m.words = [c] → (fld c 6 4 ≤ 1 ∧ chMode s n ≠ mDo ∨ 8 ≤ fld c 6 4) →
        exec (.chanSet m) s = .next (replied m stRange [0] (takenUp Op.chanSet m s))))
  ∧ (∀ (m : Msg) (m0 m1 m2 : Word) (s : State), PacketReady Op.chanGet m s → m.words = [m0, m1, m2] →
      (fld m2 8 12 = 0 → (∃ n : Chan, inMask m0 m1 m2 n = true) →
        exec (.chanGet m) s = .next (replied m stOk (((List.finRange 48).filter (inMask m0 m1 m2)).flatMap
          (getWords (takenUp Op.chanGet m s))) (takenUp Op.chanGet m s)))
      ∧ ((fld m2 8 12 ≠ 0 ∨ ∀ n : Chan, inMask m0 m1 m2 n = false) →
        exec (.chanGet m) s = .next (replied m stRange [] (takenUp Op.chanGet m s))))

/-- GROUP_CMD with one RELINK or CLR_CNT item (R170, R381, R398, R400), the group's tap free: the item is executed and the reply
counts its unit. CLR_CNT clears the counters and returns VMIN to 0xFF. RELINK of a DOWN link asks for a bring-up, of an UP link
makes it RANGING with cause 6 after its actions are withdrawn, and sends SAFE frames.

GROUP_CMD with one SAFE_NOW item (R84, R170, R379, R398): the group's stamped actions are withdrawn, SAFE frames follow, and the
reply waits for the acknowledgement of one, which SAFE_NOW_ACK brings. A link that is not UP is answered FAULT. -/
def Obligations.GroupCommands : Prop :=
  (∀ (m : Msg) (g : Grp) (w : Word) (s : State), PacketReady Op.groupCmd m s → TapsFree m.port s → m.words = [0, w] →
      fld w 0 3 = g.val → fld w 5 15 = 0 →
      let u := takenUp Op.groupCmd m s
      (fld w 3 2 = 2 → exec (.groupCmdClrCnt m) s = .next (replied m stOk (splitReply 1 stOk 0 (2 ^ g.val) false)
        (modLink g (fun l => { l with dnCrc := 0, upCrc := 0, resent := 0, losses := 0, vmin := 0xFF }) u)))
      ∧ (fld w 3 2 = 1 → (lnk s g).st = .down → exec (.relink m) s = .next
        (replied m stOk (splitReply 1 stOk 0 (2 ^ g.val) false) (modLink g (fun l => { l with wantUp := true }) u)))
      ∧ (fld w 3 2 = 1 → (lnk s g).st = .up → ∃ t, exec (.relink m) s
          = .next (replied m stOk (splitReply 1 stOk 0 (2 ^ g.val) false) t)
        ∧ t = { u with links := t.links, seq := t.seq }
        ∧ (lnk t g).st = .ranging ∧ (lnk t g).cause = 6 ∧ (lnk t g).wantUp = true ∧ (lnk t g).safeLeft = 3
        ∧ (lnk t g).sched = [] ∧ (lnk t g).slots = 0 ∧ (lnk t g).conf = []
        ∧ (∀ a ∈ t.seq.acts, ∀ x ∈ a.grps, x.1 ≠ g) ∧ ∀ k : Grp, k ≠ g → lnk t k = lnk s k))
  ∧ (∀ (m : Msg) (g : Grp) (w : Word) (s : State),
      (PacketReady Op.groupCmd m s → TapsFree m.port s → m.words = [0, w] → fld w 0 3 = g.val → fld w 3 2 = 0 → fld w 5 15 = 0 →
        ((lnk s g).st = .up → ∃ t, exec (.safeNow m) s = .next t
          ∧ t = { takenUp Op.groupCmd m s with links := t.links, seq := t.seq, grpJob := t.grpJob }
          ∧ t.grpJob = some { cmd := { op := Op.groupCmd, port := m.port, tag := m.tag, wake := m.wake }, items := [], staged := false
                              waiting := setBit 0 g.val true, done := [], fail := none }
          ∧ (lnk t g).safeLeft = 3 ∧ (lnk t g).safeFrom = some (lnk s g).seqDown ∧ (lnk t g).sched = [] ∧ (lnk t g).slots = 0
          ∧ (∀ a ∈ t.seq.acts, ∀ x ∈ a.grps, x.1 ≠ g) ∧ ∀ k : Grp, k ≠ g → lnk t k = lnk s k)
        ∧ ((lnk s g).st ≠ .up → exec (.safeNow m) s = .next (replied m stFault
          (splitReply 0 stFault (BitVec.ofNat 20 g.val) 0 false) (takenUp Op.groupCmd m s))))
      ∧ ∀ d : Deferred, s.grpJob = some { cmd := d, items := [], staged := false, waiting := setBit 0 g.val true, done := [], fail := none } →
        (lnk s g).st = .up → (lnk s g).safeFrom = none → s.pw.resetSeq = none →
        exec (.safeNowAck g) s = .next (queueReply d.port stOk d.tag d.wake (splitReply 1 stOk 0 (2 ^ g.val) false) (setGrpJob none s)))

/-! ### Faults -/

/-- A CORRECTED event counts in TOTAL and in the open window; in a closed window it opens one of 2^WIN ms (R438). No other
counter changes.

Events of the collector's detectors: a window of FLT_CNT ends (R438); a missing heartbeat is declared 20 ms after its last
beat (R44); a lockstep mismatch is FATAL (R53); a failed PLL resets the logic die at once, but for LOCKDOWN (R446, R442). -/
def Obligations.CorrectedEventsAndDetectors : Prop :=
  (∀ (d : Fin 12) (c : Fin 32) (s : State),
      let x := fltCnt s d.val c.val
      let t := countCorrected d c.val s
      t = { s with flt := { s.flt with cnt := t.flt.cnt } }
      ∧ (∀ e, x.until_ = some e → s.now < e →
          fltCnt t d.val c.val = { x with window := satInc x.window, total := satInc x.total })
      ∧ ((x.until_ = none ∨ ∃ e, x.until_ = some e ∧ e ≤ s.now) →
          fltCnt t d.val c.val
            = { window := 1, total := satInc x.total, until_ := some (s.now + 250000 * 2 ^ cfgFld s (.fltCfg d) 10 5) })
      ∧ ∀ k, k ≠ 32 * d.val + c.val → lookupD fltCntZero k t.flt.cnt = lookupD fltCntZero k s.flt.cnt)
  ∧ (∀ (d : Fin 12) (c : BitVec 5) (s : State),
      (∀ e, (fltCnt s d.val c.toNat).until_ = some e →
        ∃ t, exec (.faultWindowEnd d c) s = .next t ∧ t = { s with now := max s.now e, flt := { s.flt with cnt := t.flt.cnt } }
          ∧ t.flt.cnt = insertKey (32 * d.val + c.toNat) { fltCnt s d.val c.toNat with window := 0, until_ := none }
            ((fltCnt s d.val c.toNat).total != 0) s.flt.cnt)
      ∧ (isLive s = true → exec .lockstepMismatch s = .next (injReport 6 7 (report 6 7 63) s))
      ∧ (isLive s = true → exec .heartbeatMissing s = .next (injReport 11 1 (report 11 1 63)
          (modFlt (fun f => { f with heartbeat := none })
            { s with now := match s.flt.heartbeat with | some t0 => max s.now (t0 + 20 * 250000) | none => s.now })))
      ∧ (s.pw.tb0.isSome = true → s.pw.dev ≠ .lockdown →
        ∃ t, exec .pllFail s = .next t ∧ t.pw.dev = .boot ∧ t.pw.boot.phase = .waiting ∧ t.pw.tb0 = none
          ∧ t.aon.fatalHeld = true ∧ t.aon.resetCause &&& 0x10 = 0x10
          ∧ (s.aon.fatalHeld = false → t.aon.frec.domain = 11 ∧ t.aon.frec.cause = 8))
      ∧ (s.pw.tb0.isSome = true → s.pw.dev = .lockdown → s.pw.resetSeq = none →
        exec .pllFail s = .next (injReport 11 8 (report 11 8 63) s)))

/-- A CONTAINED fault is held by a domain that holds none, logged, and raises source 83; FAULT_N is asserted (R440, R448 to
R450). In a domain that holds one it escalates to FATAL: the fatal record is written, where none is held, with the held
fault as the prior one, and a reset is recognised (R440, R447, R83); not in LOCKDOWN, where it is only logged (R442).

A FATAL fault (R444, R447, R83): the fatal record holds it where none was held, it is counted, and a reset is recognised. In
LOCKDOWN no reset follows: the fault is held and counted (R442). -/
def Obligations.ContainedAndFatalFaults : Prop :=
  (∀ (d : Fin 12) (c : Fin 32) (u : Fin 64) (s : State), isLive s = true → faultClass d.val c.val = some .contained → d.val ≠ 9 →
      let t := report d c.val u.val s
      let seq : Word := if s.flt.seq = 0xFFFFF then 1 else s.flt.seq + 1
      let e : LogEntry := { domain := BitVec.ofNat 4 d.val, cause := BitVec.ofNat 5 c.val, cls := 2, promoted := false
                            unit := BitVec.ofNat 6 u.val, seq := seq, stamp := BitVec.ofNat 60 (tbNow s) }
      (heldAt s d = none →
        heldAt t d = some { cause := BitVec.ofNat 5 c.val, unit := BitVec.ofNat 6 u.val, promoted := false }
        ∧ (∀ k, k ≠ d → heldAt t k = heldAt s k) ∧ t.flt.log = (e :: s.flt.log).take 64 ∧ t.flt.seq = seq
        ∧ shows t 83 = true ∧ faultN t = true ∧ t.pw = s.pw ∧ t.aon = s.aon)
      ∧ (∀ h, heldAt s d = some h → s.pw.dev ≠ .lockdown →
        resetting t = true ∧ (∀ q, t.pw.resetSeq = some q → q.fatal = true ∧ q.cause &&& 0x10 = 0x10) ∧ t.aon.fatalHeld = true
        ∧ t.flt.held = s.flt.held
        ∧ (s.aon.fatalHeld = false → t.aon.frec.domain = BitVec.ofNat 4 d.val ∧ t.aon.frec.cause = BitVec.ofNat 5 c.val
          ∧ t.aon.frec.unit = BitVec.ofNat 6 u.val ∧ t.aon.frec.escalated = true ∧ t.aon.frec.priorCause = h.cause
          ∧ t.aon.frec.priorUnit = h.unit))
      ∧ (∀ h, heldAt s d = some h → s.pw.dev = .lockdown →
        t.pw = s.pw ∧ t.aon = s.aon ∧ t.flt.held = s.flt.held ∧ t.flt.log = (e :: s.flt.log).take 64))
  ∧ (∀ (d : Fin 12) (c : Fin 32) (u : Fin 64) (s : State), faultClass d.val c.val = some .fatal →
      let t := report d c.val u.val s
      t.aon.fatalCnt = satInc s.aon.fatalCnt ∧ t.now = s.now
      ∧ (s.pw.dev ≠ .lockdown → t.aon.fatalHeld = true ∧ resetting t = true
        ∧ (s.aon.fatalHeld = false → t.aon.frec.domain = BitVec.ofNat 4 d.val ∧ t.aon.frec.cause = BitVec.ofNat 5 c.val
          ∧ t.aon.frec.unit = BitVec.ofNat 6 u.val ∧ t.aon.frec.escalated = false ∧ t.aon.frec.overrun = false
          ∧ t.aon.frec.state = BitVec.ofNat 4 (devCode s.pw.dev))
        ∧ (s.aon.fatalHeld = true → t.aon.frec = { s.aon.frec with overrun := true }))
      ∧ (s.pw.dev = .lockdown → t.pw = s.pw ∧ t.aon.frec = s.aon.frec ∧ t.aon.fatalHeld = s.aon.fatalHeld
        ∧ (heldAt s d = none → heldAt t d = some { cause := BitVec.ofNat 5 c.val, unit := BitVec.ofNat 6 u.val, promoted := false })))

/-- FAULT_READ (R451): the status words, the selected log entries, newest first, or the fatal record. Nothing changes.

FAULT_ACK (R452): the named domains hold nothing, the fatal record is acknowledged, the counters of the domains that word 1
names are 0, for domain 11 those of the watchdog too, and bit 12 of word 1 empties the log. Nothing else changes. -/
def Obligations.FaultReadAndAck : Prop :=
  (∀ (m : Msg) (w x : Word) (s : State), PacketReady Op.faultRead m s → (m.words = [w] ∨ m.words = [w, x]) → fld w 16 4 = 0 →
      (fld w 0 2 = 0 → exec (.faultRead m) s = .next (replied m stOk
        ([fltStat s, s.flt.seq] ++ (List.finRange 12).map (fltDomWord s)) (takenUp Op.faultRead m s)))
      ∧ (fld w 0 2 = 1 → 1 ≤ fld w 9 7 → fld w 2 7 + fld w 9 7 ≤ 64 → m.words = [w] →
        exec (.faultRead m) s = .next (replied m stOk
          ((((s.flt.log.filter fun e => e.domain.toNat < 12).drop (fld w 2 7)).take (fld w 9 7)).flatMap logWords)
          (takenUp Op.faultRead m s)))
      ∧ (fld w 0 2 = 1 → 1 ≤ fld w 9 7 → fld w 2 7 + fld w 9 7 ≤ 64 → m.words = [w, x] → fld x 12 8 = 0 →
        exec (.faultRead m) s = .next (replied m stOk
          ((((s.flt.log.filter fun e => x.toNat.testBit e.domain.toNat).drop (fld w 2 7)).take (fld w 9 7)).flatMap logWords)
          (takenUp Op.faultRead m s)))
      ∧ (fld w 0 2 = 2 → exec (.faultRead m) s = .next (replied m stOk (frecWords s) (takenUp Op.faultRead m s)))
      ∧ (fld w 0 2 = 3 → exec (.faultRead m) s = .next (replied m stRange [] (takenUp Op.faultRead m s))))
  ∧ (∀ (m : Msg) (w x : Word) (s : State), PacketReady Op.faultAck m s → (m.words = [w] ∧ x = 0 ∨ m.words = [w, x]) →
      fld w 13 7 = 0 → fld x 13 7 = 0 →
      ∃ t, exec (.faultAck m) s = .next (replied m stOk [] t)
        ∧ t = { takenUp Op.faultAck m s with flt := t.flt, aon := t.aon, wd := t.wd }
        ∧ (∀ d, heldAt t d = if bit w d.val then none else heldAt s d)
        ∧ t.aon = (if bit w 12 ∧ s.aon.fatalHeld then { s.aon with fatalHeld := false, frec := { s.aon.frec with acked := true } } else s.aon)
        ∧ t.flt.cnt = s.flt.cnt.filter (fun e => !bit x (e.1 / 32))
        ∧ t.flt.log = (if bit x 12 then [] else s.flt.log) ∧ t.flt.seq = s.flt.seq ∧ t.flt.heartbeat = s.flt.heartbeat
        ∧ t.wd = (if bit x 11 then { s.wd with early := 0, wrong := 0, foreign := 0, mon := 0 } else s.wd))

/-! ### Watchdog -/

/-- The token rule (R460): t_k = (5 t_(k-1) + 0x1F) mod 2^20, from the previous accepted token or SEED. -/
def Obligations.TokenSequence : Prop :=
  (∀ t : Word, (nextToken t).toNat = (t.toNat * 5 + 0x0001F) % 2 ^ 20)
  ∧ (∀ (m : Msg) (w : Word) (s : State), ServeArrives m w s → s.wd.running = true → s.wd.owner = some m.port →
      wdCount s < s.wd.timeout.toNat → s.wd.close.toNat ≤ wdCount s →
      ∃ t, exec (.wdServe m) s = .next t
        ∧ (t.wd.last = 1 ↔ w = nextToken s.wd.token) ∧ (w = nextToken s.wd.token → t.wd.token = w)
        ∧ (w ≠ nextToken s.wd.token → t.wd.token = s.wd.token))
  ∧ ∀ (seed : Word) (s : State), (wdStart seed s).wd.token = seed

/-- A good serve (R461, R462): C returns to 0, the token moves on, LAST is 1, and the reply OK is queued without payload.

The judgement of a serve in its order (R461): not running, not the owner, after TIMEOUT, before CLOSE, wrong token, good.
Armed injections act at its input (R556): 11/5 exchanges the ports, 11/3 and 11/4 spoil a good serve. -/
def Obligations.ServesAreJudged : Prop :=
  (∀ (m : Msg) (s : State), ServeArrives m (nextToken s.wd.token) s → s.wd.running = true → s.wd.owner = some m.port →
      wdCount s < s.wd.timeout.toNat → s.wd.close.toNat ≤ wdCount s →
      ∃ t, exec (.wdServe m) s = .next t
        ∧ t = { s with wd := t.wd, ports := t.ports, irq := t.irq, taps := t.taps }
        ∧ t.wd = { s.wd with token := nextToken s.wd.token, last := 1, zero := s.now, base := 0, warned := false }
        ∧ (prt t m.port).replyQ = (prt s m.port).replyQ
            ++ [{ status := stOk, tag := m.tag, wake := m.wake, cells := [], queuedAt := s.now }]
        ∧ prt t (pother m.port) = prt s (pother m.port)
        ∧ ∀ k : Fin 32, t.taps[k] = if s.taps[k].holder = some m.port then { s.taps[k] with since := s.now } else s.taps[k])
  ∧ (∀ (p : Port) (k : Word) (s : State),
      (s.wd.running = false → judgeServe p k s = (stState, modWd (fun w => { w with last := 5 }) s))
      ∧ (s.wd.running = true → s.inj.armed = none →
        (s.wd.owner ≠ some p → judgeServe p k s
          = (stDenied, report 11 5 (pidx p).val (modWd (fun w => { w with foreign := satInc w.foreign, last := 4 }) s)))
        ∧ (s.wd.owner = some p →
          (s.wd.timeout.toNat ≤ wdCount s → judgeServe p k s = (stFault, report 11 2 63 (wdStop s)))
          ∧ (wdCount s < s.wd.timeout.toNat → wdCount s < s.wd.close.toNat → judgeServe p k s
            = (stFault, report 11 3 (pidx p).val (modWd (fun w => { w with early := satInc w.early, last := 2 }) s)))
          ∧ (wdCount s < s.wd.timeout.toNat → s.wd.close.toNat ≤ wdCount s → k ≠ nextToken s.wd.token → judgeServe p k s
            = (stFault, report 11 4 (pidx p).val (modWd (fun w => { w with wrong := satInc w.wrong, last := 3 }) s)))
          ∧ (wdCount s < s.wd.timeout.toNat → s.wd.close.toNat ≤ wdCount s → k = nextToken s.wd.token → judgeServe p k s
            = (stOk, modWd (fun w => { w with token := k, last := 1, zero := s.now, base := 0, warned := false }) s))))
      ∧ ∀ a, s.inj.armed = some a → a.dom = 11 → s.wd.running = true → s.wd.owner = some p →
        (a.cause = 5 → judgeServe p k s = (stDenied, injApplied
          (report 11 5 (pidx (pother p)).val (modWd (fun w => { w with foreign := satInc w.foreign, last := 4 }) s))))
        ∧ (a.cause = 3 → wdCount s < s.wd.timeout.toNat → judgeServe p k s = (stFault, injApplied
          (report 11 3 (pidx p).val (modWd (fun w => { w with early := satInc w.early, last := 2 }) s))))
        ∧ (a.cause = 4 → wdCount s < s.wd.timeout.toNat → s.wd.close.toNat ≤ wdCount s → judgeServe p k s = (stFault, injApplied
          (report 11 4 (pidx p).val (modWd (fun w => { w with wrong := satInc w.wrong, last := 3 }) s)))))

/-- WD_CONFIG (R456) by the owner, or where there is none, without the seal: SET loads the parameters that pass their tests, START
runs the counter from 0 with the previous token SEED, STOP stops it in CONFIG and MAINTENANCE. The sender is the owner.

The watchdog's own events: at WARN source 80, once per count (R458); at TIMEOUT the expiry, after which it stands still
(R463); a failed clock in use is replaced by the other, C unchanged, a failed monitoring clock is noted (R464, R465). -/
def Obligations.WatchdogConfigurationAndEvents : Prop :=
  (∀ (m : Msg) (w a b c : Word) (s : State), PacketReady Op.wdConfig m s → isOwned s = false →
      (s.wd.owner = none ∨ s.wd.owner = some m.port) →
      let u := takenUp Op.wdConfig m s
      (m.words = [w, a, b, c] → fld w 0 2 = 0 → fld w 7 13 = 0 → s.wd.running = false →
        (if bit w 6 then s.wd.failedB else s.wd.failedA) = false → fld w 2 4 ≤ 10 → 2 ≤ b.toNat → a.toNat < b.toNat →
        (c = 0 ∨ c.toNat < b.toNat) →
        exec (.wdConfigSet m) s = .next (replied m stOk [] (modWd (fun x => { x with
          owner := some m.port, pre := BitVec.ofNat 4 (fld w 2 4), clk := bit w 6, clkNow := bit w 6, close := a, timeout := b
          warn := c }) u)))
      ∧ (m.words = [w, a] → fld w 0 2 = 1 → fld w 2 18 = 0 → s.wd.running = false →
        wdTests s.wd.pre.toNat s.wd.close s.wd.timeout s.wd.warn = true →
        exec (.wdConfigStart m) s = .next (replied m stOk [] (modWd (fun x => { x with
          owner := some m.port, running := true, token := a, zero := s.now, base := 0, warned := false }) u)))
      ∧ (m.words = [w] → fld w 0 2 = 2 → fld w 2 18 = 0 → inConfMaint s = true →
        exec (.wdConfigStop m) s = .next (replied m stOk [] (modWd (fun x => { x with
          owner := some m.port, running := false, frozen := BitVec.ofNat 20 (wdCount s) }) u))))
  ∧ (∀ s : State,
      (s.wd.running = true → s.wd.warn ≠ 0 → s.wd.warned = false →
        exec .wdWarning s = .next (raise 80 (modWd (fun w => { w with warned := true })
          { s with now := max s.now (s.wd.zero + (s.wd.warn.toNat - s.wd.base) * wdUnit s) })))
      ∧ (s.wd.running = true → exec .wdExpiry s = .next (injReport 11 2 wdExpire
          { s with now := max s.now (s.wd.zero + (s.wd.timeout.toNat - s.wd.base) * wdUnit s) }))
      ∧ (∀ t, wdExpire t = report 11 2 63 (wdStop t))
      ∧ (s.wd.running = false → exec .wdWarning s = .next s ∧ exec .wdExpiry s = .next s)
      ∧ (wdMonitored s = true → ∃ t, exec (.wdClockMonitorTrip true) s = .next t ∧ t.now = s.now ∧ t.cfg = s.cfg ∧ t.wd =
          { s.wd with
            mon := satInc s.wd.mon, monLost := true, failover := true, clkNow := !s.wd.clkNow, base := wdCount s, zero := s.now
            failedA := s.wd.failedA || !s.wd.clkNow, failedB := s.wd.failedB || s.wd.clkNow })
      ∧ (wdMonitored s = true → ∃ t, exec (.wdClockMonitorTrip false) s = .next t ∧ t.now = s.now ∧ t.cfg = s.cfg ∧ t.wd =
          { s.wd with
            mon := satInc s.wd.mon, monLost := true
            failedA := s.wd.failedA || s.wd.clkNow, failedB := s.wd.failedB || !s.wd.clkNow }))

/-! ### Cask -/

/-- CASK_CTRL STATUS, CLEAR and NOTE (R517, R521, R522) are answered at once with the two words of R522. CLEAR frees every closed
slot of an idle cask and drops what automatic racking was writing; NOTE offers its words as a record.

CASK_CTRL START, STOP and FREEZE (R514, R515, R521): START opens the first segment of the next session, STOP closes the open
one and ends the session, FREEZE lets POST further segments follow; STOP and FREEZE are answered when the session is over. -/
def Obligations.CaskCommands : Prop :=
  (∀ (m : Msg) (w : Word) (l : List Word) (s : State), PacketReady Op.caskCtrl m s → m.words = w :: l → fld w 11 9 = 0 →
      let u := takenUp Op.caskCtrl m s
      (fld w 0 3 = 0 → l = [] → exec (.caskStatus m) s = .next (replied m stOk (caskReply u) u))
      ∧ (fld w 0 3 = 4 → l = [] → u.cask.st = .idle → ∃ t, exec (.caskClear m) s = .next (replied m stOk (caskReply t) t)
        ∧ t = { u with mmp := t.mmp, cask := { u.cask with closed := [], rnext := cfgGet s .caskRbase, autoSlot := none, tries := 0 } }
        ∧ ∀ q ∈ t.mmp.reqs, q ∈ u.mmp.reqs ∧ (q.user = .rack → q.reply.isSome = true))
      ∧ (fld w 0 3 = 5 → 1 ≤ l.length → l.length ≤ 7 → u.cask.ending = none →
        (u.cask.st = .recording ∨ u.cask.st = .freezing) →
        exec (.caskNote m) s = .next (let t := recNow 0x10 0 l u; replied m stOk (caskReply t) t))
      ∧ (∀ t, caskReply t = [pack [(0, match t.cask.st with | .idle => 0 | .recording => 1 | .freezing => 2 | .replaying => 3),
          (2, t.cask.slot), (10, t.cask.closed.length)], t.aon.caskSess]))
  ∧ (∀ (m : Msg) (w : Word) (s : State), PacketReady Op.caskCtrl m s → m.words = [w] → fld w 11 9 = 0 →
      let u := takenUp Op.caskCtrl m s
      let n : Word := if s.aon.caskSess = 0xFFFFF then 1 else s.aon.caskSess + 1
      (fld w 0 3 = 1 → u.cask.st = .idle → ∃ t, exec (.caskStart m) s = .next (replied m stOk (caskReply t) t)
        ∧ t = { u with aon := { u.aon with caskSess := n }, cask := t.cask, mems := t.mems, mi := t.mi, irq := t.irq, mmp := t.mmp }
        ∧ (∀ k : Fin 16, k ≠ 8 → t.mems[k] = s.mems[k])
        ∧ t.cask.st = .recording ∧ t.cask.sess = n ∧ t.cask.seg = 0 ∧ t.cask.slot = u.cask.slot
        ∧ (t.cask.opened = true ∨ t.cask.paused = true)
        ∧ (u.cask.closed.contains u.cask.slot = false ∨ cfgBit s .caskCfg 0 = false → t.cask.opened = true))
      ∧ (fld w 0 3 = 2 → (u.cask.st = .recording ∨ u.cask.st = .freezing) → u.cask.ending = none → u.cask.opened = true →
        ∃ t, exec (.caskStop m) s = .next t
          ∧ t = { u with cask := t.cask, mems := t.mems, mi := t.mi, irq := t.irq, mmp := t.mmp }
          ∧ t.cask.opened = false ∧ t.cask.ending = some 2 ∧ t.cask.seg = u.cask.seg + 1
          ∧ t.cask.closed = u.cask.closed ++ [u.cask.slot]
          ∧ t.cask.reply = u.cask.reply ++ [{ op := Op.caskCtrl, port := m.port, tag := m.tag, wake := m.wake }])
      ∧ (fld w 0 3 = 3 → u.cask.st = .recording → u.cask.ending = none →
        exec (.caskFreeze m) s = .next (modCask (fun k => { k with
          st := .freezing, freeze := some (fld w 3 8)
          reply := k.reply ++ [{ op := Op.caskCtrl, port := m.port, tag := m.tag, wake := m.wake }] }) u)))

/-- Reads of protected memories by packets (R251, R297, R473, R529): the words from the named place on, as the memory gives them
one after another; FAULT where one cannot be mended. PAN_READ with RELEASE frees a pan whose words were good. -/
def Obligations.MemoriesAreReadByPackets : Prop :=
  ∀ (m : Msg) (a b : Word) (g : Grp) (q : Fin 16) (s : State), m.words = [a, b] →
    (PacketReady Op.trellisRead m s → fld a 1 19 = 0 → 1 ≤ fld b 10 10 → fld b 10 10 ≤ 682 → fld b 0 10 + fld b 10 10 ≤ 1024 →
      let u := takenUp Op.trellisRead m s
      let k : Fin 16 := if bit a 0 then 1 else 0
      underTest u k = false →
      exec (.trellisRead m) s = .next (
        let r := memReads .host k (3 * fld b 0 10) (3 * fld b 10 10) u
        answer m (.reply (if r.1.2 then stFault else stOk) r.1.1, r.2)))
    ∧ (PacketReady Op.caskRead m s → bit a 19 = false → 1 ≤ fld a 8 11 → fld a 8 11 ≤ 2046 → fld b 12 8 = 0 →
      fld b 0 12 + fld a 8 11 ≤ 4096 →
      let u := takenUp Op.caskRead m s
      underTest u 8 = false →
      exec (.caskRead m) s = .next (
        let r := memReads .host 8 (4096 * fld a 0 8 + fld b 0 12) (fld a 8 11) u
        answer m (.reply (if r.1.2 then stFault else stOk) r.1.1, r.2)))
    ∧ (PacketReady Op.panRead m s → fld a 0 3 = g.val → fld a 3 4 = q.val → bit a 19 = false → 1 ≤ fld a 8 11 →
      fld a 8 11 ≤ 2046 → fld b 0 16 + fld a 8 11 ≤ panSize s g q → fld b 16 4 = 0 →
      (bit a 7 = true → (pan s g q).st ≠ .opened) →
      let u := takenUp Op.panRead m s
      underTest u (panM g) = false →
      exec (.panRead m) s = .next (
        let r := memReads .host (panM g) (panBase u g q + fld b 0 16) (fld a 8 11) u
        answer m (.reply (if r.1.2 then stFault else stOk) r.1.1,
          if bit a 7 = true ∧ r.1.2 = false then panRelease g q r.2 else r.2)))

/-- RACK of one page (R170, R525 to R527), automatic racking off: the oldest waiting slot becomes a write of its 4,096 words to
the page in window 1; where no slot waits the unit fails with STATE. RACK_COMPLETE answers the command, with source 78, and
79 for a failure.

Automatic racking (R525, R528): a page that is written frees its slot and CASK_RNEXT moves on; a page that fails is tried once
more, then racking stops with source 79. -/
def Obligations.RackingWritesPages : Prop :=
  (∀ (m : Msg) (page : Word) (s : State),
      let d : Deferred := { op := Op.rack, port := m.port, tag := m.tag, wake := m.wake }
      let u := takenUp Op.rack m s
      (PacketReady Op.rack m s → m.words = [0, page] → cfgBit s .caskCfg 1 = false → (∀ j ∈ u.cask.rack, j.cmd ≠ d) →
        (∀ slot l, rackable u = slot :: l → inWindowW s 1 (4096 * page.toNat) 4096 = true →
          ∃ t q, exec (.rack m) s = .next t ∧ t.deferred = s.deferred ++ [d]
            ∧ t.cask.rack = u.cask.rack ++ [{ cmd := d, staged := false, pages := [page], slots := [slot], nDone := 0, wait := 1
                                              ended := false, fail := none }]
            ∧ t.mmp.reqs = u.mmp.reqs ++ [q] ∧ q.user = .rack ∧ q.write = true ∧ q.win = 1 ∧ q.word = 4096 * page.toNat
            ∧ q.len = 12288 ∧ q.done = 0 ∧ q.reply = some d)
        ∧ (rackable u = [] → exec (.rack m) s = .next (modCask (fun k => { k with
            rack := k.rack ++ [{ cmd := d, staged := false, pages := [page], slots := [], nDone := 0, wait := 0, ended := true
                                 fail := some (stState, page) }] }) (addDeferred d u))))
      ∧ ∀ j, s.cask.rack.find? (·.ended) = some j → s.deferred.contains j.cmd = true →
        let r := modCask (fun k => { k with rack := k.rack.filter (· != j) }) s
        (j.fail = none → exec .rackComplete s = .next
          (raise 78 (completeDeferred j.cmd stOk (splitReply j.nDone stOk 0 0 false) r)))
        ∧ ∀ st p, j.fail = some (st, p) → j.staged = false → 1 ≤ j.nDone → exec .rackComplete s = .next
          (raise 79 (raise 78 (completeDeferred j.cmd stPartial (splitReply j.nDone st p 0 false) r))))
  ∧ (∀ (q : MmpReq) (slot : Nat) (s : State), autoEnded s = some q → s.cask.autoSlot = some slot →
      (q.failed = none → ∃ t, exec .autoRackPageDone s = .next t ∧ slot ∉ t.cask.closed ∧ t.cask.tries = 0
        ∧ t.cask.rnext = (let b := (cfgGet s .caskRbase).toNat; let n := s.cask.rnext.toNat + 1
            if n < b ∨ b + (cfgGet s .caskRcount).toNat ≤ n then BitVec.ofNat 20 b else BitVec.ofNat 20 n))
      ∧ (q.failed.isSome = true → s.cask.tries = 0 → ∃ t, exec .autoRackPageDone s = .next t ∧ t.cask = { s.cask with tries := 1 }
        ∧ t.mmp.reqs = s.mmp.reqs.filter (· != q) ++ [rackReq s s.cask.rnext slot none])
      ∧ (q.failed.isSome = true → s.cask.tries ≠ 0 → exec .autoRackPageDone s = .next
        (raise 79 (modCask (fun k => { k with autoStop := true, autoSlot := none, tries := 0 })
          (modMmp (fun m => { m with reqs := m.reqs.filter (· != q) }) s)))))

/-- Segments (R509, R519, R520, R523): the timer closes the open segment with code 1 and opens the next; a changed configuration
hash is recorded; the hash of the oldest closed segment is taken, and every 64th is to be signed; a signature that comes
while no segment is open is held for the next. -/
def Obligations.SegmentsRollHashAndSign : Prop :=
  ∀ s : State,
    (∀ k, segTicks s = some k → recOn s = true → s.cask.opened = true → s.cask.freeze = none →
      ∃ t, exec .segmentTimer s = .next t
        ∧ t = { s with now := max s.now (tickOf s (s.cask.base + k)), cask := t.cask, mems := t.mems, mi := t.mi, irq := t.irq, mmp := t.mmp }
        ∧ t.cask.seg = s.cask.seg + 1 ∧ t.cask.slot = (s.cask.slot + 1) % 256 ∧ s.cask.slot ∈ t.cask.closed
        ∧ (t.cask.opened = true ∨ t.cask.paused = true))
    ∧ (recOn s = true → cfgHash s ≠ s.cask.cfgHash →
      exec .cfghashRecord s = .next (recNow 0x0B 0 (cfgHash s) (modCask (fun k => { k with cfgHash := cfgHash s }) s)))
    ∧ (∀ slot seg l, s.cask.toHash = (slot, seg) :: l →
      ∃ t, exec .segmentHashDone s = .next t ∧ t = { s with cask := t.cask, mems := t.mems, mi := t.mi, irq := t.irq }
        ∧ t.cask.toHash = l ∧ t.cask.prevHash = word256 (shaOf (slotStored s slot))
        ∧ (seg % 64 = 0 → t.cask.toSign = s.cask.toSign ++ [(seg, word256 (shaOf (slotStored s slot)))]))
    ∧ ∀ seg h l, s.cask.toSign = (seg, h) :: l → s.cask.ending = none → s.cask.opened = false →
      ∃ t ws, exec .anchorSigned s = .next t ∧ t.cask.toSign = l ∧ t.cask.held = s.cask.held ++ [ws]
        ∧ ws.take 2 = [BitVec.ofNat 20 (seg >>> 20), BitVec.ofNat 20 seg] ∧ t.mems = s.mems ∧ t.cfg = s.cfg

/-- REPLAY (R530, R531): START of an idle cask in MAINTENANCE, no pan open, becomes the replay that REPLAY_BEGIN begins 10 ms
later at the earliest; ABORT without a replay does nothing; one that has come to its end, or is aborted, leaves the cask IDLE,
its RESULT, the tracker STOPPED and both banks UNARMED.

REPLAY_BEGIN and REPLAY_RECORD_ACT (R531 to R533): the replay begins at the CHECKPOINT of its first segment, with the tracker
in the recorded state; a segment without one ends it with RESULT 5. A recorded DI transition sets its comparator at its stamp
plus the offset, a recorded edge meets the tracker, and a record type that acts on nothing is passed over. -/
def Obligations.ReplaysRun : Prop :=
  (∀ (m : Msg) (w a b : Word) (s : State),
      let d : Deferred := { op := Op.replay, port := m.port, tag := m.tag, wake := m.wake }
      let u := takenUp Op.replay m s
      (PacketReady Op.replay m s → m.words = [w, a, b] → bit w 0 = false → fld w 3 17 = 0 → b ≠ 0 → (bit w 1 = true ∨ a.toNat < 256) →
        u.cask.st = .idle → noOpenPan s = true →
        ∃ t r, exec (.replayStart m) s = .next t ∧ t = { u with cask := t.cask, mmp := t.mmp, deferred := s.deferred ++ [d] }
          ∧ t.cask = { u.cask with st := .replaying, replay := some r, rpRes := 0, rpMatch := 0, rpTrunc := false, shadow := false }
          ∧ r.cmd = d ∧ r.pages = bit w 1 ∧ r.strict = bit w 2 ∧ r.first = a.toNat ∧ r.count = b.toNat ∧ r.began = false
          ∧ r.result = none ∧ r.earliest = tbNow s + 2500000
          ∧ (bit w 1 = false → t.mmp = u.mmp))
      ∧ (PacketReady Op.replay m s → m.words = [w] → bit w 0 = true → fld w 3 17 = 0 → d ∉ s.deferred → u.cask.replay = none →
        u.cask.st ≠ .replaying → exec (.replayAbort m) s = .next (replied m stOk [] u))
      ∧ (∀ r, PacketReady Op.replay m s → m.words = [w] → bit w 0 = true → fld w 3 17 = 0 → u.cask.replay = some r →
        u.cask.st = .replaying → r.cmd ≠ d →
        ∃ t, exec (.replayAbort m) s = .next t ∧ t.cask.st = .idle ∧ t.cask.replay = none ∧ t.cask.rpRes = 1
          ∧ t.trk.st = .stopped ∧ (∀ k, (bnk t k).st = .unarmed) ∧ r.cmd ∉ t.deferred)
      ∧ ∀ r x, s.cask.replay = some r → r.result = some x →
        ∃ t, exec .replayEnd s = .next t ∧ t.cask.st = .idle ∧ t.cask.replay = none ∧ t.cask.rpRes = x ∧ t.cask.rpMatch = r.matched
          ∧ t.trk.st = .stopped ∧ (∀ k, (bnk t k).st = .unarmed) ∧ r.cmd ∉ t.deferred)
  ∧ (∀ (r : Replay) (s : State), s.cask.replay = some r → r.result = none →
      (∀ ws u, r.began = false → replayFetch 0 s = (.words ws, u) →
        (checkpointAt ws = none → exec .replayBegin s = .next (modReplay (fun x => { x with result := some 5 }) u))
        ∧ ∀ c, checkpointAt ws = some c → (r.strict = false ∨ matchAtStart c.ws u = 15) →
          ∃ t x, exec .replayBegin s = .next t ∧ t.cask.replay = some x ∧ x.began = true ∧ x.words = ws
            ∧ t.trk.st = trkOfCode (fld (c.ws.getD 15 0) 0 4))
      ∧ (r.began = true → r.pos < segEnd r.words →
        let x := recAt r.words r.pos r.hi
        let u := modReplay (fun y => { y with pos := x.next, hi := x.hi }) s
        let stamp := (x.stamp + s.cask.rpOfs.toNat) % 2 ^ 60
        let last := fun (t : State) => modReplay (fun y => { y with lastEnd := max y.lastEnd (tbNow t) }) t
        (∀ n : Chan, x.type = 4 → x.arg % 64 = n.val → exec .replayRecordAct s = .next (last
          (modSlice n (fun y => { y with comp := x.arg / 64 % 2 == 1 }) { u with now := max s.now (tickOf s stamp) })))
        ∧ (x.type = 3 → ∃ e, e.stamp = stamp ∧ e.level = (x.arg / 4 % 2 == 1) ∧ exec .replayRecordAct s = .next (last
          (meetEdge e { u with now := max s.now (tickOf s (stamp + fld (x.ws.getD 0 0) 0 10)) })))
        ∧ ((x.type = 6 ∨ x.type = 7 ∨ x.type = 8 ∨ x.type = 16) → exec .replayRecordAct s = .next (last u))))

/-! ### Calibration -/

/-- CAL_SET (R363 to R365, R369, R371) by a port that AUTH names: the set's trims become the written ones, or neutral with CLEAR, and
no other trim changes; AEVT.TRIM shows a change; STORE asks for a store operation. -/
def Obligations.CalSetWritesTrims : Prop :=
  ∀ (m : Msg) (w z k : Word) (s : State), PacketReady Op.calSet m s → rising s.cal.trims = true →
    (m.words = [w, z, k] ∧ bit w 9 = false ∨ m.words = [w, 0] ∧ bit w 9 = true ∧ z = 0 ∧ k = 0) → calPlace w = true →
    fld w 11 9 = 0 → fld z 16 4 = 0 → calAuth s (calChan w) m.port = true →
    let n := calChan w
    let e := calSetIx w
    ∃ t, exec (.calSet m) s = .next (replied m stOk [z, k] t)
      ∧ t = { takenUp Op.calSet m s with cal := t.cal, links := t.links, mirrors := t.mirrors, irq := t.irq }
      ∧ trimOf t n e = (z.extractLsb' 0 16, k)
      ∧ (∀ n' e', n' ≠ n ∨ e' ≠ e → trimOf t n' e' = trimOf s n' e')
      ∧ (trimOf s n e ≠ (z.extractLsb' 0 16, k) → bit (mir t n).aevt 4 = true)
      ∧ (bit w 10 = false → t.cal = { s.cal with trims := t.cal.trims })
      ∧ (bit w 10 = true → s.cal.storing = none → t.cal.storing = some s.now ∧ bit t.cal.want n.val = true)
      ∧ (bit w 10 = true → s.cal.storing.isSome = true → t.cal.again = true ∧ bit t.cal.wantNext n.val = true)

/-- CAL_ARM (R366, R367): an arming that its checks admit waits for a button; CANCEL by the port that armed completes it with
ABORTED, RESULT 3 and source 86; 60 s without a press complete it with RESULT 1. A press begins the capture, unless both
buttons are high.

A capture (R368, R369): each of its 1,000 conversions counts when the link is UP and no other conversion of the channel is
near; a failed capture completes with RANGE and RESULT 2, a good one sets the trims and completes with OK; the end of a store
operation makes the written copy the current one and starts the one asked for meanwhile. -/
def Obligations.CalibrationCaptures : Prop :=
  (∀ (m : Msg) (w : Word) (s : State),
      let d : Deferred := { op := Op.calArm, port := m.port, tag := m.tag, wake := m.wake }
      let u := takenUp Op.calArm m s
      (PacketReady Op.calArm m s → m.words = [w] → fld w 10 10 = 0 → s.cal.arm = none → armRangeOk s m = true →
        calAuth s (calChan w) m.port = true →
        exec (.calArm m) s = .next (modCal (fun c => { c with
          arm := some { who := d, n := calChan w, set := calSetIx w, ref := defaultRef (fld w 6 3), store := bit w 9, since := s.now }
          cap := none }) (addDeferred d u)))
      ∧ (∀ a, PacketReady Op.calArm m s → m.words = [w] → fld w 11 9 = 0 → bit w 10 = true → s.cal.arm = some a →
        a.who.port = m.port → a.who ≠ d →
        ∃ t, exec (.calArmCancel m) s = .next (replied m stOk [0] t) ∧ t.cal = { s.cal with arm := none, cap := none }
          ∧ a.who ∉ t.deferred ∧ d ∉ t.deferred ∧ t.cfg = s.cfg ∧ t.mirrors = s.mirrors)
      ∧ (PacketReady Op.calArm m s → m.words = [w] → fld w 11 9 = 0 → bit w 10 = true → s.cal.arm = none → d ∉ s.deferred →
        exec (.calArmCancel m) s = .next (replied m stOk [0] u))
      ∧ (∀ a, s.cal.arm = some a → s.cal.cap = none →
        exec .calArmTimeout s = .next (raise 86 (completeDeferred a.who stAborted [pack [(0, 1), (2, 0)]]
          (modCal (fun c => { c with arm := none, cap := none }) { s with now := max s.now (a.since + 60000 * 250000) })))
        ∧ ∀ span, (isLive s = true → exec (.calButtonPress span false) s = .next (modCal (fun c => { c with
            cap := some { span := span, next := (tbNow s + 250000 + 24999) / 25000 * 25000, tried := 0, made := 0, sum := 0, beyond := false } }) s))
          ∧ exec (.calButtonPress span true) s = .next s))
  ∧ (∀ (x : Int) (b : Bool) (s : State),
      (∀ a c, s.cal.arm = some a → s.cal.cap = some c → c.tried < 1000 →
        ∃ t, exec (.calCaptureConversion x b) s = .next t
          ∧ t = { s with now := max s.now (tickOf s c.next), cal := { s.cal with cap := t.cal.cap } }
          ∧ t.cal.cap = some (if (lnk s (chanGrp a.n)).st = .up ∧ calYields s a.n c.next = false then
              { c with next := c.next + 25000, tried := c.tried + 1, made := c.made + 1, sum := c.sum + x, beyond := c.beyond || b }
            else { c with next := c.next + 25000, tried := c.tried + 1 }))
      ∧ (∀ a c, s.cal.arm = some a → s.cal.cap = some c → 1000 ≤ c.tried →
        (captureResult a c (trimOf s a.n a.set) = none → exec .calCaptureEnd s = .next (raise 86
          (completeDeferred a.who stRange [pack [(0, 2), (2, b2n c.span)]] (modCal (fun k => { k with arm := none, cap := none }) s))))
        ∧ ∀ r, captureResult a c (trimOf s a.n a.set) = some r → rising s.cal.trims = true →
          ∃ t, exec .calCaptureEnd s = .next t ∧ t.cal.arm = none ∧ t.cal.cap = none ∧ trimOf t a.n a.set = r ∧ a.who ∉ t.deferred)
      ∧ (∀ v, s.cal.storing = some v → ∃ t, exec .calStoreOpEnd s = .next t ∧ t = { s with cal := t.cal } ∧ t.cal.cur = !s.cal.cur
        ∧ t.cal.trims = s.cal.trims ∧ (t.cal.copies[calCopyIx (!s.cal.cur)]).good = true
        ∧ (t.cal.copies[calCopyIx (!s.cal.cur)]).seq = (s.cal.copies[calCopyIx s.cal.cur]).seq + 1
        ∧ t.cal.storing = (if s.cal.again then some s.now else none)))

/-! ### Security and update -/

/-- ATTEST (R499, R500) waits for the security engine; its snapshot is taken when its job starts. KIND 1 is answered with the
certificate, KIND 2 with the owner slots, KIND 0 with the snapshot and a signature of 26 words. -/
def Obligations.AttestationIsAnswered : Prop :=
  ∀ (m : Msg) (w : Word) (l : List Word) (s : State), m.words = w :: l →
    let d : Deferred := { op := Op.attest, port := m.port, tag := m.tag, wake := m.wake }
    let u := takenUp Op.attest m s
    (PacketReady Op.attest m s → m.words.length ≤ 16 → fld w 2 18 = 0 →
      (fld w 0 2 = 0 ∧ l ≠ [] ∨ (fld w 0 2 = 1 ∨ fld w 0 2 = 2) ∧ l = []) →
      exec (.attest m) s = .next (modSec (fun x => { x with
        jobs := x.jobs ++ [.attest d m.words (if s.sec.jobs = [] then attestSnap u else [])] }) (addDeferred d u)))
    ∧ ∀ e snap jobs, s.sec.jobs = .attest e m.words snap :: jobs →
      let r := modSec (fun x => { x with jobs := jobs, attests := satInc x.attests }) s
      (fld w 0 2 = 1 → exec .attestComplete s = .next (jobStart (completeDeferred e stOk s.sec.cellar.cert r)))
      ∧ (fld w 0 2 = 2 → exec .attestComplete s = .next (jobStart (completeDeferred e stOk (slotWordsOf s) r)))
      ∧ (fld w 0 2 = 0 → ∃ sig t, exec .attestComplete s = .next (jobStart (completeDeferred e stOk
          ((if snap.isEmpty then attestSnap s else snap) ++ sig) t)) ∧ t = { r with free := t.free } ∧ sig.length = 26)

/-- SEAL_LOAD (R495 to R497): a bundle that its tests refuse is answered with their status and changes nothing; one that the owner
signed becomes a job. When the job is done the bundle takes effect in CONFIG and MAINTENANCE: every sealed register of the
configuration holds its value. Elsewhere it waits for CONFIG. -/
def Obligations.SealBundlesTakeEffect : Prop :=
  ∀ (m : Msg) (w : Word) (raw : List Word) (s : State),
    let d : Deferred := { op := Op.sealLoad, port := m.port, tag := m.tag, wake := m.wake }
    let u := takenUp Op.sealLoad m s
    (PacketReady Op.sealLoad m s → m.words = w :: raw → m.words.length ≤ 2046 → raw.length = bundleLen raw → fld w 1 19 = 0 →
      replaying u = false → (bit w 0 = true → confSession s = false) → d ∉ s.deferred →
      (∀ st, bundleRefused u raw true = some st → exec (.sealLoad m) s = .next (replied m st [] u))
      ∧ (bundleRefused u raw true = none → bundleSigned u raw = true → injAt s 9 1 = none →
        exec (.sealLoad m) s = .next (modSec (fun x => { x with jobs := x.jobs ++ [.sealing d (parseBundle raw) (bit w 0)] })
          (addDeferred d u))))
    ∧ ∀ e b jobs, s.sec.jobs = .sealing e b false :: jobs →
      (inConfMaint s = false → exec .sealLoadComplete s = .next (jobStart (completeDeferred e stOk [0]
        (modSec (fun x => { x with pending := some b, jobs := jobs }) s))))
      ∧ (inConfMaint s = true → s.canonical = true → ∃ t, exec .sealLoadComplete s = .next t ∧ t.sec.bundle = some b
        ∧ t.sec.pending = none ∧ (∀ r ∈ sealedRegs, r ∉ [Reg.wdCfg, .wdClose, .wdTimeout, .wdWarn] → cfgGet t r = bundleValue s b r)
        ∧ t.wd.close = bundleValue s b .wdClose ∧ t.wd.timeout = bundleValue s b .wdTimeout ∧ t.wd.warn = bundleValue s b .wdWarn)

/-- OWNER_ENROLL and OWNER_RELEASE (R490, R491, R493): with a good signature the command becomes a job; where no slot serves the
key, or no owner is there to release, it is DENIED. A finished enrolment of a new slot has programmed the key's hash and removed
the bundle; a finished release has revoked the slot and removed key record and bundle. Both raise source 87. -/
def Obligations.OwnersAreEnrolledAndReleased : Prop :=
  ∀ (m : Msg) (s : State),
    let d : Deferred := { op := Op.ownerEnroll, port := m.port, tag := m.tag, wake := m.wake }
    let e : Deferred := { op := Op.ownerRelease, port := m.port, tag := m.tag, wake := m.wake }
    let x := num256 ((m.words.take 26).take 13)
    let y := num256 ((m.words.take 26).drop 13)
    (PacketReady Op.ownerEnroll m s → m.words.length = 52 → confSession s = false → d ∉ s.deferred →
      let u := takenUp Op.ownerEnroll m s
      (enrollSlot s (keyHash x y) = none → exec (.ownerEnroll m) s = .next (replied m stDenied [] u))
      ∧ ∀ k fresh, enrollSlot s (keyHash x y) = some (k, fresh) → injAt s 9 1 = none →
        ecdsaVerify x y ([0x13#20] ++ serial2 s ++ m.words.take 26) (sigOf (tailSig m.words)).1 (sigOf (tailSig m.words)).2 = true →
        exec (.ownerEnroll m) s = .next (modSec (fun c => { c with jobs := c.jobs ++ [.enroll d x y (BitVec.ofNat 2 k.val) fresh] })
          (addDeferred d u)))
    ∧ (PacketReady Op.ownerRelease m s → m.words.length = 26 → confSession s = false → e ∉ s.deferred →
      let u := takenUp Op.ownerRelease m s
      (curSlot s = none → exec (.ownerRelease m) s = .next (replied m stDenied [] u))
      ∧ ∀ k kx ky, curSlot s = some k → ownerKey s = some (kx, ky) → injAt s 9 1 = none →
        ecdsaVerify kx ky ([0x12#20] ++ serial2 s ++ [BitVec.ofNat 20 k.val]) (sigOf m.words).1 (sigOf m.words).2 = true →
        exec (.ownerRelease m) s = .next (modSec (fun c => { c with jobs := c.jobs ++ [.release e (BitVec.ofNat 2 k.val)] })
          (addDeferred e u)))
    ∧ (∀ who kx ky k jobs, isLive s = true → s.sec.jobs = .enroll who kx ky k true :: jobs →
      ∃ t, exec .ownerEnrollComplete s = .next t ∧ (t.sec.cellar.slots[(⟨k.toNat, k.isLt⟩ : Fin 4)]).hash = some (keyHash kx ky)
        ∧ t.sec.bundle = none ∧ t.sec.pending = none ∧ (t.sec.confs[otherConf s]).key = some (kx, ky)
        ∧ (t.sec.confs[otherConf s]).bundle = [] ∧ t.sec.jobs.length = jobs.length ∧ shows t 87 = true ∧ t.cfg = s.cfg)
    ∧ ∀ who k jobs, isLive s = true → s.sec.jobs = .release who k :: jobs →
      ∃ t, exec .ownerReleaseComplete s = .next t ∧ (t.sec.cellar.slots[(⟨k.toNat, k.isLt⟩ : Fin 4)]).revoked = true
        ∧ t.sec.bundle = none ∧ t.sec.pending = none ∧ (t.sec.confs[otherConf s]).key = none
        ∧ (t.sec.confs[otherConf s]).bundle = [] ∧ t.sec.jobs.length = jobs.length ∧ shows t 87 = true ∧ t.cfg = s.cfg
        ∧ t.wd = s.wd

/-- NV_UPDATE_BEGIN, its ABORT, and the end of the erase (R503, R507), without the seal: BEGIN opens a session and erases its
region; ABORT by its port closes it with LAST 2; when the region is erased the session takes words and source 93 is raised.

NV_UPDATE_DATA and COMMIT (R504, R505) of an open session of the port: the words follow those that came before, and the reply
tells how many there are; COMMIT of a complete session begins its end.

The end of a COMMIT (R505, R506): words whose hash is not the announced one close the session with LAST 4 and CHECK; a complete
configuration becomes the current copy, or signed firmware the spare bank, with LAST 1, and the reboot follows 10 ms later. -/
def Obligations.UpdateSessions : Prop :=
  (∀ (m : Msg) (s : State),
      let d : Deferred := { op := Op.nvBegin, port := m.port, tag := m.tag, wake := m.wake }
      let u := takenUp Op.nvBegin m s
      (PacketReady Op.nvBegin m s → m.words.length = 17 → isOwned s = false → s.sec.sess = none → updRange m = true →
        updAborts m = false → (updConf m = true ∨ rbCount s ≤ fld (pword m 3) 0 7) →
        ∃ t x, exec (.nvUpdateBegin m) s = .next t
          ∧ t = { u with deferred := s.deferred ++ [d], sec := t.sec, aon := { u.aon with updFlag := true } }
          ∧ t.sec = { s.sec with sess := some x, banks := t.sec.banks, confs := t.sec.confs }
          ∧ x.phase = .erasing ∧ x.conf = updConf m ∧ x.port = m.port ∧ x.version = pword m 1 ∧ x.length = (pword m 2).toNat
          ∧ x.data = [] ∧ x.cmd = d
          ∧ (updConf m = false → t.sec.banks[spareBank s] = .blank ∧ t.sec.confs = s.sec.confs)
          ∧ (updConf m = true → (t.sec.confs[otherConf s]).good = false ∧ t.sec.banks = s.sec.banks))
      ∧ (PacketReady Op.nvBegin m s → m.words = [2] → d ∉ s.deferred →
        (s.sec.sess = none → exec (.nvUpdateAbort m) s = .next (replied m stOk [] u))
        ∧ ∀ x, s.sec.sess = some x → x.port = m.port → (x.phase ≠ .opened → x.cmd ≠ d) →
          ∃ t, exec (.nvUpdateAbort m) s = .next (replied m stOk [] t)
            ∧ t.sec = { s.sec with sess := none } ∧ t.aon = { s.aon with updLast := 2, updFlag := false }
            ∧ (x.phase ≠ .opened → x.cmd ∉ t.deferred))
      ∧ ∀ x, s.sec.sess = some x → x.phase = .erasing → s.deferred.contains x.cmd = true →
        exec .nvUpdateEraseDone s = .next (raise 93 (completeDeferred x.cmd stOk []
          (modSec (fun c => { c with sess := some { x with phase := .opened } }) s))))
  ∧ (∀ (m : Msg) (x : Session) (s : State), s.sec.sess = some x → x.phase = .opened → x.port = m.port →
      let d : Deferred := { op := Op.nvCommit, port := m.port, tag := m.tag, wake := m.wake }
      (PacketReady Op.nvData m s → m.words ≠ [] → m.words.length ≤ 2046 → x.data.length + m.words.length ≤ x.length →
        exec (.nvUpdateData m) s = .next (replied m stOk [BitVec.ofNat 20 (x.data.length + m.words.length)]
          (modSec (fun c => { c with sess := some { x with data := x.data ++ m.words } }) (takenUp Op.nvData m s))))
      ∧ (PacketReady Op.nvData m s → m.words ≠ [] → m.words.length ≤ 2046 → x.length < x.data.length + m.words.length →
        exec (.nvUpdateData m) s = .next (replied m stRange [] (takenUp Op.nvData m s)))
      ∧ (PacketReady Op.nvCommit m s → m.words.length = (if x.conf then 1 else 27) → pword m 0 = 0 → x.data.length = x.length →
        exec (.nvUpdateCommit m) s = .next (modSec (fun c => { c with
          sess := some { x with phase := .committing, sig := sigOf (m.words.drop 1), cmd := d } })
          (addDeferred d (takenUp Op.nvCommit m s)))))
  ∧ (∀ (x : Session) (s : State), s.sec.sess = some x → x.phase = .committing → s.deferred.contains x.cmd = true →
      (shaOf x.data ≠ x.hash → exec .nvUpdateCommitDone s = .next (completeDeferred x.cmd stCheck []
        (modAon (fun a => { a with updLast := 4, updFlag := false }) (modSec (fun c => { c with sess := none }) s))))
      ∧ (shaOf x.data = x.hash →
        (x.conf = true ∨ injAt s 9 1 = none ∧ ecdsaVerify Config.knadinX Config.knadinY
          ([0x21#20, x.version, BitVec.ofNat 20 x.rollback, BitVec.ofNat 20 x.length] ++ word256 x.hash) x.sig.1 x.sig.2 = true) →
        ∃ t, exec .nvUpdateCommitDone s = .next t ∧ t.sec.sess = none ∧ t.aon = { s.aon with updLast := 1, updFlag := false }
          ∧ t.sec.rebootDue = some (x.cmd.port, x.cmd.tag, s.now + 2500000) ∧ x.cmd ∉ t.deferred
          ∧ (x.conf = true → (t.sec.confs[otherConf s]).image = x.data ∧ (t.sec.confs[otherConf s]).good = true
            ∧ t.sec.banks = s.sec.banks)
          ∧ (x.conf = false → (t.sec.banks[spareBank s]).image = x.data ∧ (t.sec.banks[spareBank s]).version = x.version
            ∧ (t.sec.banks[spareBank s]).commitSeq = some (BitVec.ofNat 20 (topSeq s + 1)) ∧ t.sec.confs = s.sec.confs))
      ∧ ∀ (v : State) (p : Port) (tag : BitVec 7) (k : Nat), v.sec.rebootDue = some (p, tag, k) → v.pw.resetSeq = none →
        exec .updateReboot v = .next (startReset 0x20 false (modSec (fun c => { c with rebootDue := none }) { v with now := max v.now k })))

/-! ### Injection -/

/-- INJECT (R557 to R560): a point that its checks admit is armed, numbered and answered with its number; one that is complete with
its acceptance raises source 95 at once. A timed point ends at its time with DONE and source 95. -/
def Obligations.InjectionsAreArmed : Prop :=
  ∀ (m : Msg) (r : InjRow) (s : State),
    let u := takenUp Op.inject m s
    let arm : InjArm := { dom := BitVec.ofNat 4 (injDom m), cause := BitVec.ofNat 5 (injCause m), unit := BitVec.ofNat 6 (injUnit m)
                          arg := injArg m r, left := injLeft (injDom m) (injCause m) (injArg m r), since := tbNow s
                          until_ := injUntil s r (injArg m r) }
    let armed := modInj (fun i => { i with
      armed := some arm, done := false, num := i.num + 1, runCnt := if s.pw.dev = .run then i.runCnt + 1 else i.runCnt
      point := pword m 0, arg := injArg m r }) u
    (PacketReady Op.inject m s → 1 ≤ m.words.length → m.words.length ≤ 8 → injPoint m = some r → injStateOk u m = true →
      injAuth u m = true →
      (injAtOnce (injDom m) (injCause m) = false → (∀ x, injAct (injDom m) (injCause m) (injUnit m) x = x) →
        exec (.inject m) s = .next (replied m stOk [(s.inj.num + 1).setWidth 20] armed))
      ∧ (injDom m = 7 → injCause m = 6 →
        exec (.inject m) s = .next (replied m stOk [(s.inj.num + 1).setWidth 20] (raise 95 (modInj (fun i => { i with
          armed := none, done := true, last := 1, lseq := injSeq s arm.dom arm.since })
          (modAon (fun a => { a with inj76 := true }) armed)))))
      ∧ (injDom m = 11 → injCause m = 2 → ∃ t, exec (.inject m) s = .next (replied m stOk [(s.inj.num + 1).setWidth 20] t)
        ∧ t.wd = { s.wd with base := s.wd.timeout.toNat - 1, zero := s.now } ∧ t.inj.armed = none ∧ t.inj.done = true))
    ∧ ∀ a k, s.inj.armed = some a → a.until_ = some k →
      exec .injectTimedEnd s = .next (raise 95 (modInj (fun i => { i with
        armed := none, done := true, last := 1, lseq := injSeq s a.dom a.since }) { s with now := max s.now k }))

/-! ### Supplies, resets, BOOT -/

/-- POWER_ON, the loss of a supply, RESET_N (R76, R79 to R83, R106): POWER_ON of a device that is OFF brings BOOT with the
always-on domain cleared and RESET_CAUSE POR; the loss of VSUP leads to OFF. A brown-out, the loss of VIO and a low pulse of 1 µs
on RESET_N are recognised as resets, whose causes coincide where one is under way; a pulse below 0.5 µs is ignored.

RESET_TAKE_HOLD (R81, R83, R103, R106): the logic die stands at its reset values in BOOT, the cause is added to RESET_CAUSE; the
fatal record, the cask's session number, the non-volatile stores and the pins keep what they held, and the update session is over. -/
def Obligations.ResetsTakeHold : Prop :=
  (∀ (ns : Nat) (s : State),
      (s.pw.dev = .off → ∃ t, exec .powerOn s = .next t ∧ t.pw.dev = .boot ∧ t.pw.boot.phase = .waiting ∧ t.aon = Aon.reset
        ∧ t.pw.vsupGood = true ∧ t.pw.vioGood = true ∧ t.cfg = [] ∧ t.pending = s.pending)
      ∧ (s.pw.dev ≠ .off → exec .powerOn s = .next s)
      ∧ (s.pw.dev ≠ .off → ∃ t, exec .vsupLoss s = .next t ∧ t.pw.dev = .off ∧ t.pw.vsupGood = false
        ∧ t.aon = { Aon.reset with resetCause := 0 } ∧ t.deferred = [] ∧ t.cfg = [])
      ∧ (s.pw.dev ≠ .off → s.pw.vsupGood = true →
        exec (.vsupBrownout false) s = .next (startReset 0x02 false (modPw (fun p => { p with vsupGood := false }) s))
        ∧ ∃ t, exec (.vsupBrownout true) s = .next t ∧ t.pw.vsupGood = false
          ∧ (t.pw.resetSeq.isSome = true ∨ t.pw.dev = .boot ∧ t.pw.boot.phase = .waiting ∧ t.aon.resetCause &&& 2 = 2))
      ∧ (s.pw.dev ≠ .off → s.pw.vioGood = true →
        exec .vioLoss s = .next (startReset 0x04 false (modPw (fun p => { p with vioGood := false }) s)))
      ∧ (s.pw.dev ≠ .off → 1000 ≤ ns → exec (.resetNPulse ns) s = .next (startReset 0x08 false
        (modPw (fun p => { p with resetLowUntil := max p.resetLowUntil (s.now + (ns + 3) / 4) }) s)))
      ∧ (ns < 500 → exec (.resetNPulse ns) s = .next s)
      ∧ ∀ (c : BitVec 7) (f : Bool),
        startReset c f s = { s with
          pw := { s.pw with resetSeq := some (match s.pw.resetSeq with
            | some q => { q with cause := q.cause ||| c, fatal := q.fatal || f, recordStored := q.recordStored && !f }
            | none => { cause := c, fatal := f, sent := Vector.replicate 6 0, since := s.now, recordStored := !f }) }
          ports := s.ports.map fun x => { x with ignoring := true, rx := .header, tx := [] } })
  ∧ (∀ s : State,
      (s.pw.resetSeq = none → exec .resetTakeHold s = .next s)
      ∧ ∀ q, s.pw.resetSeq = some q →
        ∃ t, exec .resetTakeHold s = .next t ∧ t.pw.dev = .boot ∧ t.pw.boot = Boot.reset ∧ t.pw.resetSeq = none ∧ t.pw.stby = .none
          ∧ t.pw.tb0 = none ∧ t.aon.resetCause = s.aon.resetCause ||| q.cause ∧ t.aon.frec = s.aon.frec
          ∧ t.aon.fatalHeld = s.aon.fatalHeld ∧ t.aon.fatalCnt = s.aon.fatalCnt ∧ t.aon.caskSess = s.aon.caskSess
          ∧ t.aon.updFlag = (if s.sec.sess.isSome then false else s.aon.updFlag)
          ∧ t.ports = State.reset.ports ∧ t.taps = State.reset.taps ∧ t.cfg = [] ∧ t.deferred = [] ∧ t.irq = Irq.reset
          ∧ t.flt = Faults.reset ∧ t.wd = Wdog.reset ∧ t.trk = Tracker.reset ∧ t.seq = Seq.reset ∧ t.smp = Smp.reset
          ∧ t.links = State.reset.links ∧ t.gov = Gov.reset ∧ t.cask = Cask.reset ∧ t.mmp = Mmp.reset ∧ t.inj = Inj.reset
          ∧ t.sec.cellar = s.sec.cellar ∧ t.sec.banks = s.sec.banks ∧ t.sec.confs = s.sec.confs ∧ t.sec.sess = none
          ∧ t.cal.copies = s.cal.copies ∧ t.pw.safePin = s.pw.safePin ∧ t.pw.stbyLow = s.pw.stbyLow ∧ t.pending = s.pending)

/-- The rows of BOOT (R63, R87 to R91, R194, R381, R443, R470, R478, R486, R488): the straps are sampled at t0; the timebase starts
at 0 with the lock of the PLL and every valid bit is cleared; the pattern test ends with every memory cleared; a security failure
leads to LOCKDOWN, a bank that boots is named; a group is ranged at least 2 ms after the one before; BOOT ends in SAFE with a fatal
record held, a failed pattern test or SAFE_N asserted, else in CONFIG. -/
def Obligations.BootRuns : Prop :=
  ∀ (a b ok : Bool) (l : List PatternFault) (g : Grp) (s : State),
    (bootAt s .waiting = true → ∃ t, exec (.bootBegin a b) s = .next t ∧ t.now = max s.now s.pw.resetLowUntil
      ∧ t.pw.boot = { s.pw.boot with phase := .pll, t0 := t.now } ∧ t.pw.dev = .boot
      ∧ prt t .a = { prt s .a with daisy := a, awake := !a } ∧ prt t .b = { prt s .b with daisy := b, awake := !b }
      ∧ t = { s with now := t.now, pw := t.pw, ports := t.ports })
    ∧ (bootAt s .pll = true → s.now ≤ s.pw.boot.t0 + 250000 → ∃ t, exec .pllLock s = .next t ∧ tbNow t = 0
      ∧ t = { s with
        pw := { s.pw with tb0 := some s.now, boot := { s.pw.boot with phase := .pattern } }, mems := Vector.replicate 16 [] })
    ∧ (bootAt s .pll = true → exec .pllLockTimeout s = .next { s with
        now := max s.now (s.pw.boot.t0 + 250000)
        pw := { s.pw with boot := { s.pw.boot with t0 := max s.now (s.pw.boot.t0 + 250000) } } })
    ∧ (bootAt s .pattern = true → s.aon.inj75 = none → s.cask.st = .idle → ∃ t, exec (.patternTestEnd l) s = .next t
      ∧ t.pw.boot.phase = .firmware ∧ (∀ k : Fin 16, t.mems[k] = []) ∧ t.pw.patternFail = l.any (fun f => !f.mendable)
      ∧ ((∃ f ∈ l, f.mendable = false) → t.aon.fatalHeld = true))
    ∧ (bootAt s .firmware = true →
      (bootCauses ok s ≠ [] → ∃ t, exec (.firmwareVerify ok) s = .next t ∧ t.pw.dev = .lockdown)
      ∧ (bootCauses ok s = [] → isOwned s = false → s.pw.boot.secFail = 0 → s.cal.copies[calCopyIx s.cal.cur].good = true → s.aon.inj76 = false →
        ∃ t, exec (.firmwareVerify ok) s = .next t ∧ t.pw.dev = .boot ∧ t.pw.boot.phase = .groups
          ∧ t.cal.trims = s.cal.copies[calCopyIx s.cal.cur].trims
          ∧ ∀ k fb, bootBank s = some (k, fb) → t.pw.bank = (k == 1) ∧ t.pw.fallback = fb
            ∧ t.sec.cfgSeq = (s.sec.banks[k]).commitSeq.getD 0))
    ∧ (linksRun s = true → bootSlot s g = true → s.pw.resetSeq = none → ∃ t, exec (.groupBringUp g) s = .next t
      ∧ t.now = (match s.pw.lastBringUp with | some k => max s.now (k + 500000) | none => s.now)
      ∧ t.pw.lastBringUp = some t.now ∧ (lnk t g).st = .ranging ∧ (lnk t g).rangingAt = t.now ∧ (lnk t g).bringUps = 1
      ∧ ∀ k : Grp, k ≠ g → lnk t k = lnk s k)
    ∧ (bootAt s .groups = true → ∃ t, exec (.bootEnd true true) s = .next t
      ∧ t.pw.dev = (if s.aon.fatalHeld ∨ s.pw.patternFail ∨ s.pw.safePin then .safe else .config)
      ∧ t.pw.boot.phase = .idle
      ∧ t.pw.bootMs = BitVec.ofNat 8 (min 255 ((s.now - s.pw.boot.t0) / 250000)))

/-- SAFE_N (R40, R72, R95, R102, R104): while asserted CONFIG, RUN and MAINTENANCE go to SAFE without a reset and every link that
is not DOWN owes SAFE frames; before the end of BOOT and in STANDBY the pin is only noted.

STATE_REQ (R95, R97, R105, R578): a transition of the table that is not refused is made and answered OK with DEV_STATE; out of
RUN the answer waits until every group that is UP has acknowledged a SAFE frame. STANDBY waits for the fetch of the reply. SAFE to
CONFIG is answered FAULT while a fault is held; other codes are RANGE, other transitions STATE. -/
def Obligations.StateChanges : Prop :=
  (∀ s : State,
      exec .safeNRelease s = .next { s with pw := { s.pw with safePin := false } }
      ∧ (isLive s = false → exec .safeNAssert s = .next { s with pw := { s.pw with safePin := true } })
      ∧ (isLive s = true → s.pw.resetSeq = none → s.pw.stby ≠ .entering →
        ∃ t, exec .safeNAssert s = .next t ∧ t.pw.safePin = true ∧ t.pw.resetSeq = none
          ∧ t.pw.dev = (if s.pw.dev = .lockdown then .lockdown else .safe)
          ∧ (∀ g : Grp, (lnk s g).st ≠ .down → (lnk t g).safeLeft = 3 ∧ (lnk t g).safeFrom = some (lnk s g).seqDown)
          ∧ (s.pw.dev = .run → (∀ b, (bnk t b).st = .unarmed) ∧ t.seq.acts = [] ∧ t.gov.waiting = [])))
  ∧ (∀ (m : Msg) (w : Word) (s : State),
      let d : Deferred := { op := Op.stateReq, port := m.port, tag := m.tag, wake := m.wake }
      let u := takenUp Op.stateReq m s
      (PacketReady Op.stateReq m s → m.words = [w] → d ∉ s.deferred →
        (fld w 4 16 = 0 → ∀ tgt, reqTarget m = some tgt → transitionOk u tgt = true →
          (tgt = .run → isOwned s = false) →
          (configBlocked s tgt = false → tgt ≠ .standby → s.pw.dev ≠ .run → u.pw.resetSeq = none →
            ∃ t, exec (.stateReq m) s = .next (replied m stOk [devStateWord t] t) ∧ t.pw.dev = tgt ∧ t.pw.prev = s.pw.dev
              ∧ d ∉ t.deferred ∧ t.cfg = (if tgt = .config ∧ s.sec.pending.isSome then t.cfg else s.cfg))
          ∧ (tgt ≠ .standby → s.pw.dev = .run → (∃ g, (lnk s g).st = .up) →
            ∃ t, exec (.stateReq m) s = .next t ∧ t.pw.dev = tgt ∧ t.pw.leaveRun = s.pw.leaveRun ++ [d] ∧ d ∈ t.deferred
              ∧ (∀ b, (bnk t b).st = .unarmed) ∧ t.seq.acts = [] ∧ t.gov.waiting = []
              ∧ ∀ g : Grp, (lnk s g).st = .up → (lnk t g).safeLeft = 3 ∧ (lnk t g).safeFrom = some (lnk s g).seqDown)
          ∧ (tgt = .standby → s.pw.stby = .none → exec (.stateReq m) s = .next (replied m stOk [devStateWord s]
              { u with pw := { u.pw with stby := .awaitFetch m.port m.tag s.now } }))
          ∧ (configBlocked s tgt = true → exec (.stateReq m) s = .next (replied m stFault [devStateWord s] u)))
        ∧ (∀ tgt, reqTarget m = some tgt → transitionOk u tgt = false →
          exec (.stateReq m) s = .next (replied m stState [devStateWord s] u))
        ∧ (reqTarget m = none → exec (.stateReq m) s = .next (replied m stRange [devStateWord s] u)))
      ∧ ∀ e, s.pw.leaveRun = [e] → s.deferred.contains e = true → s.pw.resetSeq = none →
        (∀ g : Grp, (lnk s g).st = .up → (lnk s g).safeFrom = none) →
        exec .stateReqComplete s = .next (queueReply e.port stOk e.tag e.wake [devStateWord s]
          { s with pw := { s.pw with leaveRun := [] }, deferred := s.deferred.filter (· != e) }))

/-- Standby (R98 to R101, R106 to R108): a falling edge of STBY_N in a working state begins entry, in which the watchdog and both
banks stop and every command under way is answered; in BOOT it is remembered, in LOCKDOWN ignored. When entry ends the device is in
STANDBY, or in BOOT where a source was latched. Each source wakes it with its bits in WAKE_CAUSE and the wake bit in RESET_CAUSE. -/
def Obligations.StandbyEntersAndWakes : Prop :=
  ∀ (csA csB stby : Bool) (s : State),
    (s.pw.stbyLow = true → exec .stbyNFall s = .next s)
    ∧ (s.pw.stbyLow = false → s.pw.resetSeq = none →
      (s.pw.dev = .boot → exec .stbyNFall s = .next { s with pw := { s.pw with stbyLow := true, stbyRemembered := true } })
      ∧ (s.pw.dev = .lockdown → exec .stbyNFall s = .next { s with pw := { s.pw with stbyLow := true } })
      ∧ (s.pw.dev ∈ [DevState.config, .run, .maint, .safe] → s.pw.stby ≠ .entering → ∃ t, exec .stbyNFall s = .next t
        ∧ t.pw.stby = .entering ∧ t.pw.dev = s.pw.dev ∧ t.wd.running = false ∧ (∀ b, (bnk t b).st = .unarmed) ∧ t.seq.acts = []
        ∧ t.deferred = [] ∧ t.sec.sess = none ∧ (∀ p, (prt t p).cmdBuf = []) ∧ t.cfg = s.cfg ∧ t.fields.map (·.cfg) = s.fields.map (·.cfg)))
    ∧ (s.pw.resetSeq = none → s.pw.stby = .entering →
      ∃ t, exec .standbyEntry s = .next t ∧ t.pw.stby = .none
        ∧ (s.pw.latched = 0 → t.pw.dev = .standby ∧ t.aon.stbyFrom = s.now ∧ t.aon.resetCause = s.aon.resetCause)
        ∧ (s.pw.latched ≠ 0 → t.pw.dev = .boot ∧ t.pw.boot.phase = .waiting ∧ t.pw.boot.fromStandby = true
          ∧ t.aon.resetCause = s.aon.resetCause ||| 0x40 ∧ t.aon.wakeCause = BitVec.ofNat 5 (s.pw.latched.toNat + 16)))
    ∧ (∀ p tag k, s.pw.resetSeq = none → s.pw.stby = .awaitFetch p tag k →
      ∃ t, exec .standbyEntry s = .next t ∧ t.pw.dev = .standby ∧ t.now = max s.now (k + 250000) ∧ t.pw.stby = .none)
    ∧ (s.pw.resetSeq = none → s.pw.dev = .standby →
      let c := b2n csA + 2 * b2n csB + 4 * b2n (stby && s.pw.stbyLow)
      let wake := fun (k : Nat) (u : State) => { u with
        aon := { u.aon with resetCause := u.aon.resetCause ||| 0x40, wakeCause := BitVec.ofNat 5 k }
        pw := { u.pw with dev := .boot, prev := .boot, boot := { Boot.reset with fromStandby := true } } }
      let rise := fun (u : State) => { u with pw := { u.pw with stbyLow := false } }
      exec (.standbyWake csA csB stby) s
          = .next (let u := if stby && s.pw.stbyLow then rise s else s; if c = 0 then u else wake c u)
        ∧ (s.pw.stbyLow = true → exec .stbyNRise s = .next (wake 4 (rise s)))
        ∧ (s.aon.stbyCount ≠ 0 → exec .standbyTimerWake s = .next (wake 8 { s with
            now := max s.now (s.aon.stbyFrom + s.aon.stbyCount.toNat * (if s.aon.stbyUnit then 250000000 else 7812500)) }))
        ∧ (s.aon.stbyCount = 0 → exec .standbyTimerWake s = .next s))
    ∧ (s.pw.resetSeq = none → s.pw.dev ≠ .standby → s.pw.stby = .entering →
      ∃ t, exec (.standbyWake csA csB stby) s = .next t
        ∧ t.pw.latched = s.pw.latched ||| BitVec.ofNat 3 (b2n csA + 2 * b2n csB + 4 * b2n (stby && s.pw.stbyLow))
        ∧ t.pw.dev = s.pw.dev)
    ∧ (s.pw.stbyLow = true → s.pw.dev ≠ .standby → s.pw.stby ≠ .entering →
      exec .stbyNRise s = .next { s with pw := { s.pw with stbyLow := false } })

/-! ### Front ends -/

/-- Selects in packet mode (R101, R111, R113, R114, R125, R147, R190): a falling edge of CS_N begins a select and restarts the idle
timers of the port's taps; while the front ends do not work the select is ignored. A rising edge ends it: without a packet it is
counted in FRAG, with clocks after the last packet in TAIL, inside a payload the packet is answered ABORTED, and a stream is whole.

REPLY_FETCH (R121 to R123, R142, R160): a fetch header makes the device drive the reply at the head of the queue: its header,
payload, check word and fill word; with an empty queue LENGTH 0 and the empty flag. A reply clocked out whole leaves the queue and
frees its tag; one cut short stays. -/
def Obligations.SelectsAndFetches : Prop :=
  (∀ (p : Port) (mid : Bool) (s : State), (prt s p).daisy = false →
      (portOpen s = true → (prt s p).selected = false → (prt s p).awake = true →
        ∃ t, exec (.selectBegin p) s = .next t ∧ t = { s with ports := t.ports, taps := t.taps }
          ∧ prt t p = { prt s p with
            selected := true, ignoring := false, gotPacket := false, rx := .header, tx := [], lastCs := s.now, wakeLvl := false }
          ∧ prt t (pother p) = prt s (pother p)
          ∧ ∀ k : Fin 32, t.taps[k] = if s.taps[k].holder = some p then { s.taps[k] with since := s.now } else s.taps[k])
      ∧ (portOpen s = false → (prt s p).selected = false → s.pw.dev ≠ .off → s.pw.dev ≠ .standby → s.pw.stby ≠ .entering →
        exec (.selectBegin p) s = .next (modPort p (fun x => { x with
          selected := true, ignoring := true, gotPacket := false, rx := .header, tx := [] }) s))
      ∧ ((prt s p).selected = true →
        let done := modPort p (fun x => { x with selected := false, ignoring := false, gotPacket := false, rx := .header, tx := [] })
        ((prt s p).ignoring = true → exec (.selectEnd p mid) s = .next (done s))
        ∧ ((prt s p).ignoring = false →
          ((prt s p).rx = .header → (prt s p).gotPacket = false →
            exec (.selectEnd p mid) s = .next (done (modPort p (fun x => { x with frag := satInc x.frag }) s)))
          ∧ ((prt s p).rx = .header → (prt s p).gotPacket = true → exec (.selectEnd p mid) s
            = .next (done (if mid then modPort p (fun x => { x with tail := satInc x.tail }) s else s)))
          ∧ (∀ h0 h1, (prt s p).rx = .payload h0 h1 .accept → 
            let t := report 8 2 (pidx p).val (modPort p (fun x => { x with rx := .header, aborted := satInc x.aborted }) s)
            exec (.selectEnd p mid) s = .next (done (queueReply p stAborted (hdrTag h0) (bit h0 2)
              (refusalWords (hdrOp h0) stAborted (devStateWord t)) t)))
          ∧ ∀ h0 ws n k, (prt s p).rx = .stream h0 ws n k false → mid = false → s.mi.fArmed = false →
            exec (.selectEnd p mid) s = .next (done (modPort p (fun x => { x with cmdBuf := x.cmdBuf ++ [{
              op := hdrOp h0, cells := (streamEnd ws).1.map encWord
              msg := { port := p, tag := hdrTag h0, lanes := h0.extractLsb' 3 2, wake := bit h0 2, words := (streamEnd ws).1
                       good := (streamEnd ws).2.1, stream := (streamEnd ws).2.2 } }] }) s)))))
  ∧ (∀ (p : Port) (lanes : BitVec 2) (s : State), (prt s p).daisy = false → portOpen s = true → lanes ≠ 3 → s.cfgJob = none →
      injAt s 8 1 = none →
      (∀ r l ws, (prt s p).replyQ = r :: l → r.cells = ws.map encWord →
        let h := pack [(12, r.status.toNat), (5, r.tag.toNat), (3, lanes.toNat), (2, b2n r.wake), (1, b2n !l.isEmpty)]
        let out := [h, hdrWord1 h ws.length] ++ (if ws = [] then [] else ws ++ [checkWord ws] ++ (if ws.length % 2 = 0 then [0] else []))
        (takesBeat s p = true → (prt s p).rx = .header → exec (.headerBeat p (fetchH0 lanes) (hdrWord1 (fetchH0 lanes) 0)) s
          = .next (modPort p (fun x => { x with rx := .reply true, tx := out, gotPacket := true }) s))
        ∧ ((prt s p).selected = false → (prt s p).ignoring = false → (prt s p).awake = true → (prt s p).waiting = [] →
            s.sec.rebootDue = none → s.pw.stby = .none →
          (∃ t, exec (.replyFetch p lanes true) s = .next t ∧ t = { s with ports := t.ports, taps := t.taps }
            ∧ (prt t p).replyQ = l ∧ (prt t p).tags = setBit (prt s p).tags r.tag.toNat false ∧ (prt t p).selected = false
            ∧ prt t (pother p) = prt s (pother p))
          ∧ ∃ t, exec (.replyFetch p lanes false) s = .next t ∧ t = { s with ports := t.ports, taps := t.taps }
            ∧ (prt t p).replyQ = (prt s p).replyQ ∧ (prt t p).tags = (prt s p).tags ∧ (prt t p).selected = false))
      ∧ ((prt s p).replyQ = [] → takesBeat s p = true → (prt s p).rx = .header →
        let h := pack [(3, lanes.toNat), (0, 1)]
        exec (.headerBeat p (fetchH0 lanes) (hdrWord1 (fetchH0 lanes) 0)) s
          = .next (modPort p (fun x => { x with rx := .reply false, tx := [h, hdrWord1 h 0], gotPacket := true }) s)))

/-- A completed header (R125, R126, R143, R144, R151, R164): with a bad CRC it is counted and reported and the select is ignored; with
a tag in flight the packet is discarded without an answer; a command that fits is received under its tag, at once when it has no
payload; an opcode that is unknown, a length out of range and a full buffer are answered under the tag.

Payloads (R120, R126, R146): the last beat of an accepted packet puts it into the command buffer with its check word judged; that
of a refused one is discarded. A stream beat brings two words, or OVERRUN once when the buffer has no room. -/
def Obligations.HeadersAndPayloads : Prop :=
  (∀ (p : Port) (h0 h1 : Word) (s : State), takesBeat s p = true → (prt s p).rx = .header → s.cfgJob = none →
      injAt s 8 1 = none →
      (hdrWord1 h0 (hdrLen h1) ≠ h1 → exec (.headerBeat p h0 h1) s = .next (modPort p (fun x => { x with rx := .ignore })
        (report 8 1 (pidx p).val (modPort p (fun x => { x with hdrBad := satInc x.hdrBad }) s))))
      ∧ (hdrWord1 h0 (hdrLen h1) = h1 → hdrOp h0 ≠ Op.fetch →
        (bit (prt s p).tags (hdrTag h0).toNat = true → ∃ t, exec (.headerBeat p h0 h1) s = .next t ∧ t = { s with ports := t.ports }
          ∧ prt t (pother p) = prt s (pother p)
          ∧ prt t p = { prt s p with
            discard := satInc (prt s p).discard, rx := (prt t p).rx, gotPacket := (prt t p).gotPacket })
        ∧ (bit (prt s p).tags (hdrTag h0).toNat = false → hdrLanes h0 ≠ 3 → fld h0 0 2 = 0 → wakeOk s p h0 = true →
          (∀ i, opInfo (hdrOp h0) = some i → hdrLen h1 ≤ i.hi → hdrLen h1 ≤ 2048 → packetWords (hdrLen h1) ≤ cmdFree s (prt s p) →
            (hdrLen h1 ≠ 0 → exec (.headerBeat p h0 h1) s = .next (modPort p (fun x => { x with
              tags := setBit x.tags (hdrTag h0).toNat true, rx := .payload h0 h1 .accept }) s))
            ∧ (hdrLen h1 = 0 → exec (.headerBeat p h0 h1) s = .next (modPort p (fun x => { x with
              tags := setBit x.tags (hdrTag h0).toNat true, rx := .header, gotPacket := true
              cmdBuf := x.cmdBuf ++ [{
                op := hdrOp h0, cells := []
                msg := { port := p, tag := hdrTag h0, lanes := h0.extractLsb' 3 2, wake := bit h0 2, words := [], good := true
                         stream := .none } }] }) s)))
          ∧ ∀ st, hdrLen h1 ≠ 0 → hdrLen h1 ≠ 4095 →
            (opInfo (hdrOp h0) = none ∧ hdrLen h1 ≤ 2048 ∧ st = stUnknown
              ∨ opInfo (hdrOp h0) = none ∧ 2048 < hdrLen h1 ∧ st = stLength
              ∨ (∃ i, opInfo (hdrOp h0) = some i ∧ (i.hi < hdrLen h1 ∨ 2048 < hdrLen h1)) ∧ st = stLength
              ∨ (∃ i, opInfo (hdrOp h0) = some i ∧ hdrLen h1 ≤ i.hi ∧ hdrLen h1 ≤ 2048
                ∧ cmdFree s (prt s p) < packetWords (hdrLen h1)) ∧ st = stFull) →
            exec (.headerBeat p h0 h1) s = .next (modPort p (fun x => { x with rx := .payload h0 h1 .drop })
              (queueReply p st (hdrTag h0) (bit h0 2) (refusalWords (hdrOp h0) st (devStateWord s))
                (modPort p (fun x => { x with tags := setBit x.tags (hdrTag h0).toNat true, discard := satInc x.discard }) s))))))
  ∧ (∀ (p : Port) (h0 h1 c w0 w1 : Word) (ws : List Word) (s : State), takesBeat s p = true →
      ((prt s p).rx = .payload h0 h1 .accept → ws.length = hdrLen h1 → s.cfgJob = none → injAt s 8 2 = none → s.mi.fArmed = false →
        hdrOp h0 ≠ Op.wdServe → exec (.packetComplete p ws c) s = .next (modPort p (fun x => { x with
          rx := .header, gotPacket := true
          cmdBuf := x.cmdBuf ++ [{
            op := hdrOp h0, cells := ws.map encWord
            msg := { port := p, tag := hdrTag h0, lanes := h0.extractLsb' 3 2, wake := bit h0 2, words := ws
                     good := decide (checkWord ws = c), stream := .none } }] }) s))
      ∧ ((prt s p).rx = .payload h0 h1 .drop → ws.length = hdrLen h1 →
        exec (.packetComplete p ws c) s = .next (modPort p (fun x => { x with rx := .header, gotPacket := true }) s))
      ∧ ∀ l n k overran, (prt s p).rx = .stream h0 l n k overran →
        (overran = true → exec (.streamBeat p w0 w1) s = .next s)
        ∧ (overran = false → cmdFree s (prt s p) < 2 → exec (.streamBeat p w0 w1) s = .next (modPort p (fun x => { x with
            rx := .stream h0 l 2048 k true, overrun := satInc x.overrun }) s))
        ∧ (overran = false → 2 ≤ cmdFree s (prt s p) → ∃ k', exec (.streamBeat p w0 w1) s = .next (modPort p (fun x => { x with
            rx := .stream h0 (l ++ [w0, w1]) (streamFill s (prt s p) + 2) k' false }) s)))

/-- Daisy ports (R128, R130, R133 to R136, R138): a select captures DCFG, DMAP and the input image; a frame of a bad length or CRC is
counted, reported and does nothing else; a good one sets the output image, and in RUN each bit that changes, or every bit of the
first frame in RUN, acts as an item of CHAN_SET. The timeout is noted and reported once. -/
def Obligations.DaisyFrames : Prop :=
  ∀ (p : Port) (edges : Nat) (bits : BitVec 32) (s : State), (prt s p).daisy = true → portOpen s = true →
    let x := prt s p
    let done := modPort p (fun y => { y with selected := false, ignoring := false })
    let img := bits &&& BitVec.ofNat 32 (2 ^ daisyW x.dcfg - 1)
    let crcOk : Bool := decide (daisyW x.dcfg < 12) || imageCrc x.dcfg img == img.extractLsb' 0 4
    (x.selected = false → exec (.daisySelectBegin p) s = .next (modPort p (fun y => { y with
        selected := true, ignoring := false, dcfg := cfgGet s (.portDcfg p), dmap := cfgGet s (.portDmap p), lastCs := s.now
        inImage := inputImage s (cfgGet s (.portDcfg p)) (cfgGet s (.portDmap p)) }) s))
    ∧ (x.selected = true → x.ignoring = false → injAt s 8 3 = none →
      (daisyLenOk x.dcfg edges = false → exec (.daisyFrame p edges bits) s = .next (done (report 8 3 (pidx p).val
        (modPort p (fun y => { y with lenRej := satInc y.lenRej, lastFrame := 2 }) s))))
      ∧ (daisyLenOk x.dcfg edges = true → crcOk = false → exec (.daisyFrame p edges bits) s = .next (done (report 8 3 (pidx p).val
        (modPort p (fun y => { y with crcRej := satInc y.crcRej, lastFrame := 3 }) s))))
      ∧ (daisyLenOk x.dcfg edges = true → crcOk = true →
        let u := modPort p (fun y => { y with
          outImage := img, accepted := y.accepted + 1, lastFrame := 1, lastAccept := s.now, timerOff := false
          fresh := y.fresh && !decide (s.pw.dev = .run) }) s
        (s.pw.dev ≠ .run → exec (.daisyFrame p edges bits) s = .next (done u))
        ∧ (s.pw.dev = .run → fld x.dmap 0 6 ≠ 63 → exec (.daisyFrame p edges bits) s = .next (done
          (foldSt (List.range (daisyD x.dcfg)) (fun i v =>
            let k := i + daisyLow x.dcfg
            if x.fresh = true ∨ bit img k ≠ bit x.outImage k then daisyAct p (fld x.dmap 0 6 + i) (bit img k) v else v) u)))
        ∧ (s.pw.dev = .run → fld x.dmap 0 6 = 63 → exec (.daisyFrame p edges bits) s = .next (done u))))
    ∧ (x.timerOff = false → daisyTicks x.dcfg ≠ 0 → exec (.daisyTimeout p) s = .next (report 8 4 (pidx p).val
        (modPort p (fun y => { y with timedOut := true, timerOff := true })
          { s with now := max s.now (x.lastAccept + daisyTicks x.dcfg) })))
    ∧ (x.timerOff = true → exec (.daisyTimeout p) s = .next s)

/-! ### Trellis and sequencer -/

/-- TRELLIS_LOAD (R246 to R250, R470): in vintages 2 and 3 the words go into the bank from entry FIRST on, and no other word
changes; with LAST the count becomes FIRST plus the entries and the bank is LOADED, else the count is 0. An armed bank is refused with
STATE.

TRELLIS_ARM (R252, R253, R255, R265): ARM of a bank that every check of the validation passes makes it WAITING and VALID, and
the arming the latest one; a refused one leaves it not armed, with the reason in the reply and in BANKb.STAT. STOP of a WAITING bank
disarms it, of the ACTIVE one waits for its boundary. HALT withdraws every placed action and disarms both banks. -/
def Obligations.BanksAreLoadedAndArmed : Prop :=
  (∀ (m : Msg) (w : Word) (ws : List Word) (s : State), PacketReady Op.trellisLoad m s → m.words = w :: ws →
      (m.stream = .none → m.words.length ≤ 2046) →
      let u := takenUp Op.trellisLoad m s
      let b := bankOf w
      let n := if bit w 11 then fld w 1 10 + ws.length / 3 else 0
      replaying u = false →
      (bankArmed s b = true → exec (.trellisLoad m) s = .next (replied m stState [] u))
      ∧ (bankArmed s b = false → ws.length % 3 = 0 → fld w 12 8 = 0 → fld w 1 10 + ws.length / 3 ≤ 1024 →
        tapHeld s m.port 0 = false → 2 ≤ portVintage s m.port → (bnk s b).lineChk = false → s.mi.fArmed = false → s.canonical = true →
        ∃ t, exec (.trellisLoad m) s = .next (replied m stOk [BitVec.ofNat 20 n] t)
          ∧ t = { u with cfg := t.cfg, seq := t.seq, mems := t.mems, mi := t.mi }
          ∧ bankCount t b = n ∧ (bnk t b).loaded = bit w 11 ∧ (bnk t b).valid = false
          ∧ (∀ r : Reg, r.addr ≠ (Reg.bankCfg b).addr → cfgGet t r = cfgGet s r)
          ∧ (∀ k (h : k < ws.length), memCell t (bankIx b) (3 * fld w 1 10 + k) = encWord ws[k])
          ∧ (∀ a, a < 3 * fld w 1 10 ∨ 3 * fld w 1 10 + ws.length ≤ a → memCell t (bankIx b) a = memCell s (bankIx b) a)
          ∧ (∀ k : Fin 16, k ≠ 8 → k ≠ bankIx b → t.mems[k] = s.mems[k])
          ∧ ∀ c : Fin 2, c ≠ b → bnk t c = bnk s c))
  ∧ (∀ (m : Msg) (w : Word) (s : State), PacketReady Op.trellisArm m s → m.words = [w] → fld w 3 17 = 0 →
      tapHeld s m.port 0 = false →
      let u := takenUp Op.trellisArm m s
      let b := bankOf w
      let o : Fin 2 := if bit w 0 then 0 else 1
      replaying u = false →
      (fld w 1 2 = 0 → (bnk s b).st ≠ .active →
        ((validate u b).1.reason = 0 → ∃ t, exec (.trellisArm m) s = .next (replied m stOk [pack [(0, 0), (4, 0), (14, 7)]] t)
          ∧ t = { u with seq := t.seq, cask := t.cask, mems := t.mems, irq := t.irq, mi := t.mi, mmp := t.mmp }
          ∧ (bnk t b).st = .waiting ∧ (bnk t b).valid = true ∧ (bnk t b).armedAt = tbNow s ∧ (bnk t b).order = s.seq.arms + 1
          ∧ (bnk t b).reason = 0 ∧ (bnk t b).check = bankCrc u b ∧ (bnk t b).worst = (validate u b).2.1 ∧ bnk t o = bnk s o
          ∧ t.seq.acts = s.seq.acts)
        ∧ ((validate u b).1.reason ≠ 0 → ∃ t, exec (.trellisArm m) s
              = .next (replied m (armStatus (validate u b).1.reason) [armWord (validate u b).1] t)
          ∧ t = { u with seq := t.seq }
          ∧ (bnk t b).st = .unarmed ∧ (bnk t b).valid = false ∧ (bnk t b).reason = BitVec.ofNat 4 (validate u b).1.reason
          ∧ (bnk t b).failEntry = BitVec.ofNat 10 (validate u b).1.entry ∧ bnk t o = bnk s o ∧ t.seq.acts = s.seq.acts))
      ∧ (fld w 1 2 = 1 → ∃ t, exec (.trellisStop m) s = .next (replied m stOk [pack [(0, 0), (4, 0), (14, 7)]] t)
          ∧ t = { u with seq := t.seq, cask := t.cask, mems := t.mems, irq := t.irq, mi := t.mi, mmp := t.mmp }
          ∧ bnk t o = bnk s o ∧ t.seq.acts = s.seq.acts
          ∧ bnk t b = (match (bnk s b).st with
            | .unarmed => bnk s b
            | .waiting => { bnk s b with st := .unarmed, stopPend := false }
            | .active => { bnk s b with stopPend := true }))
      ∧ (fld w 1 2 = 2 → ∃ t, exec (.trellisHalt m) s = .next (replied m stOk [pack [(0, 0), (4, 0), (14, 7)]] t)
          ∧ t = { u with
            seq := t.seq, smp := t.smp, links := t.links, cask := t.cask, mems := t.mems, irq := t.irq, mi := t.mi, mmp := t.mmp }
          ∧ (∀ c, (bnk t c).st = .unarmed) ∧ t.seq.acts = [] ∧ t.seq.walking = false ∧ t.seq.withdraw = satInc s.seq.withdraw
          ∧ ∀ g : Grp, (lnk s g).st = .up → (lnk t g).withdraw = some .all))

/-- Banks come and go (R219, R247, R255, R256, R264): at the decision instant, SEQ_CFG's lookahead before a cycle boundary, the
WAITING angle bank becomes ACTIVE, or the ACTIVE one goes on, or its STOP is decided, which takes effect at the boundary. A time bank
becomes ACTIVE for its first period, goes on from period to period, and stops at a period's start. -/
def Obligations.BanksTakeTheirCycles : Prop :=
  ∀ (b : Fin 2) (s : State), s.seq.left = 0 →
    let o : Fin 2 := if b = 0 then 1 else 0
    (decides s = true →
      (takerBank s = some b → ∃ t, exec .bankDecision s = .next t
        ∧ t = { s with now := max s.now (tickOf s (boundaryInstant s - lookTicks s).toNat), seq := t.seq }
        ∧ (bnk t b).st = .active ∧ (bnk t o).st ≠ .active ∧ t.seq.decided = some (some (b != 0)) ∧ t.seq.left = bankCount s b
        ∧ t.seq.walking = true ∧ t.seq.walkCyc = s.trk.cyc + 1 ∧ t.seq.acts = s.seq.acts)
      ∧ (takerBank s = none → activeBank s = some b → bankTime s b = false → ∃ t, exec .bankDecision s = .next t
        ∧ t = { s with now := max s.now (tickOf s (boundaryInstant s - lookTicks s).toNat), seq := t.seq }
        ∧ (bnk t b) = (bnk s b) ∧ t.seq.decided = (if (bnk s b).stopPend then some none else some (some (b != 0)))))
    ∧ ((s.trk.st = .cycleSync ∨ s.trk.st = .holdover) → s.trk.predOk = true → decides s = false →
      ∃ t, exec .cycleBoundary s = .next t ∧ t.now = max s.now (tickOf s (boundaryInstant s).toNat)
        ∧ t.trk = { s.trk with cyc := s.trk.cyc + 1 } ∧ t.seq.decided = none ∧ t.seq.acts = s.seq.acts
        ∧ (s.seq.decided ≠ some none → t.fields = s.fields ∧ t.seq.banks = s.seq.banks)
        ∧ (s.seq.decided = some none → activeBank s = some b → (bnk t b).st = .unarmed ∧ t.seq.walking = false))
    ∧ (walks s = true → timeTaker s = some b → activeBank s = none →
      ∃ t, exec .timeBankPeriod s = .next t
        ∧ t = { s with now := max s.now (tickOf s ((firstPeriod s b : Int) - lookTicks s).toNat), seq := t.seq }
        ∧ (bnk t b).st = .active ∧ (bnk t b).period0 = firstPeriod s b ∧ t.seq.walking = true ∧ t.seq.left = bankCount s b)
    ∧ (walks s = true → timeTaker s = none → activeBank s = some b → bankTime s b = true →
      ∃ t, exec .timeBankPeriod s = .next t
        ∧ ((bnk s b).stopPend = true → (bnk t b).st = .unarmed ∧ t.now = max s.now (tickOf s (periodEnd s b)))
        ∧ ((bnk s b).stopPend = false → bnk t b = { bnk s b with period0 := periodEnd s b } ∧ t.seq.walking = true
          ∧ t.now = max s.now (tickOf s ((periodEnd s b : Int) - lookTicks s).toNat)))

/-- Entries become actions (R258, R240, R244): when the next entry of the walk comes within the lookahead its words are read, its
stamp is computed, and a first message is queued for every group of its target that is up; the walk goes on to the entry after it. A
NOP places nothing.

Placed actions (R243, R259, R260, R287): 1 µs before its stamp an action is committed, and an open or close of a pan then waits for
it at every group that is up; at its stamp the skew of a committed angle action is judged against SKEW_LIM, counted and reported when
it is beyond; a MARK keeps the cycle count and raises its source. -/
def Obligations.EntriesBecomeActions : Prop :=
  (∀ (b : Fin 2) (i : Int) (w0 w1 w2 : Word) (v s : State), activeBank s = some b → nextInstant s b = some i → walks s = true →
      mayPlace s b = true → s.cask.st ≠ .replaying →
      memReads .sequencer (bankIx b) (3 * s.seq.next.toNat) 3 { s with now := max s.now (tickOf s (i - lookTicks s).toNat) }
        = (([w0, w1, w2], false), v) → v.cask.st ≠ .replaying →
      ∃ t, exec .lookaheadEntry s = .next t ∧ t = { v with seq := t.seq, links := t.links }
        ∧ t.seq.left = v.seq.left - 1 ∧ t.seq.banks = v.seq.banks
        ∧ (entAction w1 = aNop → t.seq.acts = v.seq.acts ∧ t.links = v.links)
        ∧ (entAction w1 ≠ aNop → ∃ a, t.seq.acts = v.seq.acts ++ [a]
          ∧ a.bank = (b != 0) ∧ a.entry = s.seq.next ∧ (a.w0, a.w1, a.w2) = (w0, w1, w2) ∧ a.timeBank = bankTime v b
          ∧ (a.stamp, a.endStamp) = entryStamp v (bankTime v b) v.seq.walkCyc (bnk v b).period0 w0 w1 w2 ∧ a.committed = false
          ∧ a.grps = (actGroups v w1).map (fun g => (g, none))
          ∧ ∀ g : Grp, (lnk t g).sched = (if g ∈ actGroups v w1 then (lnk v g).sched ++ [schedOf a true 0] else (lnk v g).sched)))
  ∧ (∀ (a : Act) (t0 : Nat) (s : State), s.cask.st ≠ .replaying →
      let put := fun (x : Act) (u : State) => { u with seq := { u.seq with acts := u.seq.acts.map fun y => if y.id = x.id then x else y } }
      let u := fun (k : Int) => { s with now := max s.now (tickOf s k.toNat) }
      (firstAct s.seq.acts horizonOf = some (a, t0) →
        (a.committed = true → exec .commitHorizon s = .next (reapActs (put { a with endCommitted := true } (u ((t0 : Int) - 250)))))
        ∧ (a.committed = false →
          let v := put { a with committed := true } (u ((t0 : Int) - 250))
          (entAction a.w1 ≠ aPanOpen → entAction a.w1 ≠ aPanClose → exec .commitHorizon s = .next (reapActs v))
          ∧ ((entAction a.w1 = aPanOpen ∨ entAction a.w1 = aPanClose) → exec .commitHorizon s = .next (reapActs (modSmp (fun m => { m with
            evs := m.evs ++ ((targetGrps (entTarget a.w1)).filter fun g => (lnk s g).st = .up).map fun g =>
              { g := g, pan := ⟨entArgA a.w1 % 16, Nat.mod_lt _ (by decide)⟩, opens := decide (entAction a.w1 = aPanOpen)
                stamp := a.stamp, origin := if a.timeBank then 1 else 0, decim := a.w2, cycle := a.cyc.extractLsb' 0 20
                angle := a.w0, entry := a.entry } }) v)))))
      ∧ (firstAct s.seq.acts (fun x => if x.committed ∧ !x.checked then some x.stamp else none) = some (a, t0) →
        predicts s = true → injStim s 6 5 = none → (0 ≤ distCyc s a.cyc a.w0 ∨ s.trk.prevOk = true) →
        let m := (instantOf s (distCyc s a.cyc a.w0) - a.stamp).natAbs
        let v := modSeq (fun q => { q with skMax := BitVec.ofNat 20 (max q.skMax.toNat (min m 0xFFFFF)) }) (put { a with checked := true } (u t0))
        exec .skewCheck s = .next (reapActs (if 2 ^ (cfgFld s .seqCfg 8 4 + 2) < m then
          report 6 5 (actUnit a.w1) (modSeq (fun q => { q with skew := satInc q.skew }) v) else v)))
      ∧ (firstAct s.seq.acts (fun x => if x.committed ∧ entAction x.w1 = aMark ∧ !x.endCommitted then some x.stamp else none)
          = some (a, t0) →
        let k := entArgA a.w1 % 8
        let cyc := if a.timeBank then s.trk.cyc else a.cyc
        exec .markExecute s = .next (reapActs (raiseNat (54 + k) (put { a with endCommitted := true }
          (modSeq (fun q => { q with marks := q.marks.set k (cyc.extractLsb' 0 20) (Nat.mod_lt _ (by decide)) }) (u t0)))))))

/-! ### Tracker -/

/-- Edges (R33, R202, R204, R206, R212, R213, R221, R223): the filter of an angle input accepts an edge, which waits at the die with its
stamp; one that has arrived is taken up, live edges being passed over in a replay. An ANGB edge sets the level, an ANGZ edge the
index; in REV_SYNC and CYCLE_SYNC an active ANGA edge in the window of an expected tooth is accepted as that tooth.

Missing edges and the stop (R225, R226, R230): when the window of the next expected tooth has passed, REV_SYNC returns to SEEKING,
CYCLE_SYNC goes to HOLDOVER, or to LOST where HOLD_MAX is 0 and the speed is not below SPD_MIN, and HOLDOVER goes on to LOST at
HOLD_MAX; each counts as missed. Without an ANGA edge for T_stop the tracker is STOPPED. -/
def Obligations.EdgesAndTheirAbsence : Prop :=
  (∀ (i : AngIn) (lv : Bool) (e : Edge) (l : List Edge) (s : State),
      ((fdie s 0).powered = true → (lnk s 0).st = .up →
        ∃ x : Edge, exec (.angleEdge i lv) s = .next (modField 0 (fun d => { d with edges := insEdge x d.edges }) s)
          ∧ x.inp = i ∧ x.level = lv ∧ x.stamp = dieTime s - 10 * fld (dieReg s 0 .angIn) (match i with | .anga => 3 | .angb => 7 | .angz => 11) 4
          ∧ x.lostQ = decide (16 ≤ ((fdie s 0).edges.filter fun y => !y.lostQ).length))
      ∧ (s.trk.queue = e :: l → (lnk s 0).badUp = [] →
        let u := modTrk (fun t => { t with queue := l }) { s with now := max s.now e.usable }
        (isLive s = true → s.cask.st = .replaying → exec .edgeTakeup s = .next u)
        ∧ (isLive s = true → s.cask.st = .idle → exec .edgeTakeup s = .next (meetEdge e u)))
      ∧ (e.lostQ = false → e.inp = .angb →
        meetEdge e s = modTrk (fun t => { t with bOld := t.bLevel, bLevel := e.level, bStamp := e.stamp }) s)
      ∧ (trkRuns s = true → e.lostQ = false → e.inp = .angz → wheelZ s = true → e.level ≠ cfgBit s .angIn 2 →
        meetEdge e s = modTrk (fun t => { t with zPend := true }) s)
      ∧ (trkRuns s = true → e.lostQ = true → (s.trk.st = .revSync ∨ s.trk.st = .cycleSync ∨ s.trk.st = .holdover) →
        (meetEdge e s).trk.st = .lost ∧ (meetEdge e s).trk.cause = 8 ∧ (meetEdge e s).trk.losses = satInc s.trk.losses)
      ∧ (trkRuns s = true → e.lostQ = false → e.inp = .anga → e.level ≠ cfgBit s .angIn 1 →
        (s.trk.st = .stopped → s.trk.posHeld = false → s.trk.zPend = false → wheelB s = 0 → cfgBit s .trkCfg 2 = s.trk.rev →
          (meetEdge e s).trk.st = .seeking ∧ (meetEdge e s).trk.edges = 1 ∧ (meetEdge e s).trk.tk = e.stamp
            ∧ (meetEdge e s).trk.predOk = false)
        ∧ ((s.trk.st = .revSync ∨ s.trk.st = .cycleSync) → s.trk.predOk = true → wheelB s ≠ 2 → rotationAt s e.stamp = s.trk.rev →
          ∀ k r, (stepsAhead s 5 (lastTooth s)).find? (fun x => inWindow s e.stamp (distTo s (toothAngle s x.1 x.2))) = some (k, r) →
            isTooth s k = true →
            (meetEdge e s).trk.tooth = BitVec.ofNat 10 k ∧ (meetEdge e s).trk.cycRev = r ∧ (meetEdge e s).trk.tk = e.stamp
              ∧ (meetEdge e s).trk.uk = toothAngle s k r)))
  ∧ (∀ s : State, trkRuns s = true →
      (s.trk.predOk = true → (lnk s 0).badUp = [] → edgeComing s (windowEnd s) = false →
        let at_ := (windowEnd s).toNat + 589 + 10 * cfgFld s .angIn 3 4
        (∀ a, s.trk.lastA = some a → at_ < a + stopTicks s) →
        (s.trk.st = .revSync → ∃ t, exec .edgeMissing s = .next t ∧ t.now = max s.now (tickOf s at_) ∧ t.trk.st = .seeking
          ∧ t.trk.missed = satInc s.trk.missed ∧ t.trk.predOk = false)
        ∧ (s.trk.st = .cycleSync → (cfgFld s .trkCfg 7 4 ≠ 0 ∨ belowMin s = true) → ∃ t, exec .edgeMissing s = .next t
          ∧ t.now = max s.now (tickOf s at_) ∧ t.trk.st = .holdover ∧ t.trk.missed = satInc s.trk.missed ∧ t.trk.predOk = true
          ∧ t.trk.lowHold = belowMin s ∧ t.trk.holdCnt = 0 ∧ t.trk.tk = s.trk.tk ∧ t.trk.cyc = s.trk.cyc)
        ∧ (s.trk.st = .cycleSync → cfgFld s .trkCfg 7 4 = 0 → belowMin s = false → ∃ t, exec .edgeMissing s = .next t
          ∧ t.trk.st = .lost ∧ t.trk.cause = 1 ∧ t.trk.losses = satInc s.trk.losses ∧ t.trk.missed = satInc s.trk.missed)
        ∧ (s.trk.st = .holdover → ∃ t, exec .edgeMissing s = .next t ∧ t.trk.missed = satInc s.trk.missed
          ∧ (if s.trk.lowHold = false ∧ cfgFld s .trkCfg 7 4 ≤ s.trk.holdCnt + 1 then t.trk.st = .lost ∧ t.trk.cause = 1
            else t.trk.st = .holdover ∧ t.trk.holdCnt = s.trk.holdCnt + 1)))
      ∧ (∀ a, s.trk.lastA = some a → s.trk.st ≠ .stopped → ∃ t, exec .trackerStopTimeout s = .next t
        ∧ t.now = max s.now (tickOf s (a + stopTicks s)) ∧ t.trk.st = .stopped ∧ t.trk.predOk = false
        ∧ t.trk.posHeld = (wheelB s = 1 && (s.trk.st = .cycleSync || (s.trk.st = .holdover && s.trk.lowHold)))
        ∧ t.trk.uk = s.trk.uk ∧ t.cfg = s.cfg))

/-! ### Field dies and links -/

/-- A field die executes what it holds for its next instant in the order of R387, and the end of a SAFE_HOLD time switches the
output off (R239, R241, R242, R387, R390). ON and OFF set a switch, AO_SET the code of a current output, DI_LATCH the latched word; a
pulse keeps its slot until its end, every other action frees it and reports so. -/
def Obligations.ActionsExecute : Prop :=
  ∀ (g : Grp) (m : SchedMsg) (n : Chan) (i : Nat) (s : State), (fdie s g).powered = true →
    (nextDue (fdie s g) = some i → (fdie s g).staged = [] →
      exec (.actionExecute g) s = .next (foldSt (execOrder ((fdie s g).slots.filter fun x => decide (x.stamp ≤ i))) (execAct g)
        { s with now := s.now + (i - dieTime s) }))
    ∧ (nextDue (fdie s g) = none → exec (.actionExecute g) s = .next s)
    ∧ (m.running = false → chanGrp n = g → m.target.toNat = n.val → safeBars s n m.bank = false →
      let t := execAct g m s
      ((m.action = 1 ∨ m.action = 3) → dieMode s n = mDo → mayConduct (slc s n) = true →
        (slc t n).cmd = true ∧ (slc t n).out = true ∧ (slc t n).safe = false)
      ∧ (m.action = 2 → dieMode s n = mDo → (slc t n).cmd = false ∧ (slc t n).out = false)
      ∧ (m.action = 7 → dieMode s n = mAoI → (slc t n).code = m.arg)
      ∧ (m.action = 12 → isDigIn (dieMode s n) = true →
        (slc t n).lstate = BitVec.ofNat 2 (b2n (slc s n).inp + 2) ∧ (slc t n).lstamp = m.stamp)
      ∧ (m.action ≠ 3 → m.action ≠ 4 → (∀ x ∈ (fdie t g).slots, x.id ≠ m.id) ∧ Report.slotFree m.id ∈ (fdie t g).reports)
      ∧ (∀ k : Chan, k ≠ n → slc t k = slc s k) ∧ t = { s with fields := t.fields, smp := t.smp })
    ∧ (∀ h, chanGrp n = g → (slc s n).holdEnd = some h →
      ∃ t, exec (.safeHoldEnd n) s = .next t ∧ t = { s with now := max s.now h, fields := t.fields }
        ∧ (slc t n).holdEnd = none ∧ (slc t n).safe = (slc s n).safe
        ∧ (dieMode s n = mDo → (slc t n).cmd = false ∧ (slc t n).out = false)
        ∧ (dieMode s n = mDoPwm → (slc t n).cmd = false ∧ (slc t n).out = false ∧ (slc t n).pwm = false)
        ∧ (dieMode s n = mAoI → (slc t n).code = 0) ∧ ∀ k : Chan, k ≠ n → slc t k = slc s k)

/-- Link states (R381 to R385, R388, R398, R400): ranging that ends in time makes a link UP with its lock, its supply and its events,
a vintage below 3 leaves it DOWN with cause 5; 5 ms of ranging without UP leave it DOWN with cause 1. A link that is lost is DOWN, its
losses count, the group's actions are given up, and the fault is reported; a field die that loses lock keeps its outputs. Beacons
that report a good supply for 10 ms ask for a bring-up.

The field die's own view of its link and its supply (R92, R384, R388, R389, R391, R395 to R397): loss of lock discards stamped
actions and keeps the outputs; the watchdog applies the safe states; 250 ms of silence park the die; VFg low and its end are
reported; a missing VFg stops the die, whose channels are OFF when it comes back. -/
def Obligations.LinksAndSupervision : Prop :=
  (∀ (g : Grp) (v : BitVec 4) (s : State), linksRun s = true →
      ((lnk s g).st = .ranging → (lnk s g).wantUp = false →
        ((fdie s g).powered = true → s.now ≤ (lnk s g).rangingAt + 1250000 → s.pw.resetSeq = none →
          (3 ≤ v.toNat → ∃ t, exec (.linkUp g v) s = .next t ∧ (lnk t g).st = .up ∧ (lnk t g).vintage = v ∧ (lnk t g).tbLock = true
            ∧ (lnk t g).supply = (fdie s g).supply ∧ (lnk t g).vfg = (fdie s g).vfg ∧ (lnk t g).wdExp = (fdie s g).wdExp
            ∧ bit (lnk t g).evt 0 = true ∧ (fdie t g).linked = true ∧ (fdie t g).ranged = true ∧ (fdie t g).lock = true
            ∧ (fdie t g).wdArmed = true ∧ (fdie t g).slices = (fdie s g).slices
            ∧ (∀ k : Grp, k ≠ g → lnk t k = lnk s k ∧ fdie t k = fdie s k) ∧ t.cfg = s.cfg ∧ t.now = s.now)
          ∧ (v.toNat < 3 → ∃ t, exec (.linkUp g v) s = .next t ∧ (lnk t g).st = .down ∧ (lnk t g).cause = 5
            ∧ t.fields = s.fields ∧ ∀ k : Grp, k ≠ g → lnk t k = lnk s k))
        ∧ (∃ t, exec (.linkLockTimeout g) s = .next t ∧ t.now = max s.now ((lnk s g).rangingAt + 1250000)
          ∧ (lnk t g).st = .down ∧ (lnk t g).cause = 1 ∧ t.fields = s.fields ∧ ∀ k : Grp, k ≠ g → lnk t k = lnk s k))
      ∧ ((lnk s g).st = .up → ∃ t, exec (.linkLost g) s = .next t ∧ (lnk t g).st = .down
        ∧ (lnk t g).cause = (if (lnk s g).supply = .missing then 2 else 4) ∧ (lnk t g).losses = satInc (lnk s g).losses
        ∧ (lnk t g).sched = [] ∧ (lnk t g).slots = 0 ∧ (lnk t g).conf = [] ∧ (lnk t g).tbLock = false ∧ bit (lnk t g).evt 1 = true
        ∧ (∀ a ∈ t.seq.acts, ∀ x ∈ a.grps, x.1 ≠ g) ∧ t.fields = s.fields)
      ∧ (∀ b, (lnk s g).beacon = some b → (lnk s g).st = .down → ((lnk s g).cause = 1 ∨ (lnk s g).cause = 2) →
        exec (.supplyGoodWaitEnd g) s = .next (modLink g (fun l => { l with wantUp := true, beacon := none })
          { s with now := max s.now (b + 2500000) })))
  ∧ (∀ (g : Grp) (n : Chan) (hot : BitVec 8) (s : State), chanGrp n = g →
      ((fdie s g).powered = true →
        ((fdie s g).linked = true → (slc s n).pulses = [] → ∃ t, exec (.fieldLinkLost g) s = .next t
          ∧ t = { s with fields := t.fields } ∧ (fdie t g).linked = false ∧ (fdie t g).silentSince = s.now ∧ (fdie t g).slots = []
          ∧ (fdie t g).lock = false ∧ (fdie t g).ranged = false ∧ (fdie t g).cfg = (fdie s g).cfg ∧ slc t n = slc s n
          ∧ ∀ k : Grp, k ≠ g → fdie t k = fdie s k)
        ∧ ((fdie s g).wdArmed = true → ∃ t, exec (.linkWatchdogExpiry g) s = .next t ∧ t = { s with now := t.now, fields := t.fields }
          ∧ t.now = max s.now ((fdie s g).lastGood + (fdie s g).wdTime * 250) ∧ (fdie t g).wdArmed = false ∧ (fdie t g).wdExp = true
          ∧ (fdie t g).slots = [] ∧ Report.grp 4 ∈ (fdie t g).reports
          ∧ (dieMode s n = mDo → (slc s n).safe = false → (slc t n).safe = true
            ∧ (fld (dieCh s n .safe) 0 2 = 0 → (slc t n).cmd = false ∧ (slc t n).out = false ∧ (slc t n).holdEnd = (slc s n).holdEnd)
            ∧ (fld (dieCh s n .safe) 0 2 = 1 → (slc s n).pulses = [] → (slc t n).out = (slc s n).out
              ∧ (slc t n).holdEnd = some (t.now + (dieCh s n .safeT).toNat * 250000)))
          ∧ (dieMode s n = mAoI → (slc s n).safe = false → fld (dieCh s n .safe) 0 2 = 2 → (slc s n).pulses = [] →
            (slc t n).code = dieCh s n .safeV)
          ∧ ((slc s n).safe = true → (slc s n).pulses = [] → slc t n = slc s n)
          ∧ ∀ k : Grp, k ≠ g → fdie t k = fdie s k)
        ∧ ((fdie s g).linked = false → (fdie s g).parked = false → exec (.fieldPark g) s = .next (modField g (fun d => { d with
            parked := true, driven := false, drive := 0 }) { s with now := max s.now ((fdie s g).silentSince + 62500000) }))
        ∧ ((fdie s g).supply = .good → exec (.vfgLow g) s = .next (modField g (fun d => { d with
            supply := .low, reports := d.reports ++ [.grp 2] }) s))
        ∧ ((fdie s g).supply = .low → injRuns s 12 1 g.val = false → exec (.vfgLowEnd g) s = .next (modField g (fun d => { d with
            supply := .good, reports := d.reports ++ [.grp 3] }) s))
        ∧ (∃ t, exec (.vfgMissing g) s = .next t ∧ t = { s with fields := t.fields, links := t.links }
          ∧ (fdie t g).powered = false ∧ (fdie t g).supply = .missing ∧ (fdie t g).vfg = 0 ∧ slc t n = Slice.reset
          ∧ ∀ k : Grp, k ≠ g → fdie t k = fdie s k ∧ lnk t k = lnk s k))
      ∧ ((fdie s g).powered = false → ∃ t, exec (.fieldPowerUp g hot) s = .next t ∧ t = { s with fields := t.fields }
        ∧ (fdie t g).powered = true ∧ (fdie t g).supply = .low ∧ (fdie t g).linked = false ∧ (fdie t g).wdTime = 1000
        ∧ (fdie t g).cfg = [] ∧ slc t n = { Slice.reset with therm := bit hot (chanLidx n).val }
        ∧ ∀ k : Grp, k ≠ g → fdie t k = fdie s k))

/-- Frames (R32, R375, R377 to R383, R387, R391, R580): a downstream frame leaves at a multiple of 250 ticks and becomes usable 275
ticks later; SAFE frames carry no schedule. A good frame renews the watchdog, and a SAFE one applies the safe states; four bad ones
in a row lose the link. An upstream frame carries what the die has queued; a good one brings its edges, reports and samples, a bad one
is counted and reported. -/
def Obligations.FramesCarryMessages : Prop :=
  ∀ (g : Grp) (ph : Int) (f : DownFrame) (l : List DownFrame) (u : UpFrame) (r : List UpFrame) (s : State),
    (linksRun s = true → (lnk s g).st ≠ .down → ∃ t x, exec (.downstreamFrameSend g) s = .next t
      ∧ x.start = max (lnk s g).nextDown ((tbNow s + 249) / 250 * 250) ∧ x.seq = (lnk s g).seqDown
      ∧ (lnk t g).down = (lnk s g).down ++ [x] ∧ (lnk t g).seqDown = (lnk s g).seqDown + 1 ∧ (lnk t g).nextDown = x.start + 250
      ∧ t.now = max s.now (tickOf s x.start) ∧ x.lastUp = (lnk s g).lastUp
      ∧ (sendsSafe s (lnk s g) = true → x.typ = .safe ∧ x.sched = [] ∧ (lnk t g).safeLeft = (lnk s g).safeLeft - 1
        ∧ (lnk t g).sched = (lnk s g).sched)
      ∧ (sendsSafe s (lnk s g) = false → (lnk s g).st = .up → x.typ = .normal ∧ x.conf = (lnk s g).conf ∧ x.sched.length ≤ 8
        ∧ (lnk t g).conf = [])
      ∧ t.fields = s.fields ∧ ∀ k : Grp, k ≠ g → lnk t k = lnk s k)
    ∧ ((lnk s g).st = .down → exec (.downstreamFrameSend g) s = .next s)
    ∧ ((lnk s g).down = f :: l → (fdie s g).powered = true →
      (s.inj.armed = none → ∃ t, exec (.downstreamFrameReceive g true ph) s = .next t ∧ (lnk t g).down = l
        ∧ t.now = max s.now (tickOf s (f.start + 275)) ∧ (fdie t g).linked = true ∧ (fdie t g).badRun = 0
        ∧ (fdie t g).lastDown = some f.seq ∧ (fdie t g).lastGood = t.now ∧ (fdie t g).wdArmed = true ∧ (fdie t g).parked = false
        ∧ (f.typ = .safe → f.conf = [] → f.sched = [] → f.withdraw = none → ∀ n : Chan, chanGrp n = g → isOutput (dieMode s n) = true →
          (slc t n).safe = true)
        ∧ ∀ k : Grp, k ≠ g → fdie t k = fdie s k)
      ∧ ((fdie s g).linked = true → ∃ t, exec (.downstreamFrameReceive g false ph) s = .next t ∧ (lnk t g).down = l
        ∧ (fdie t g).linked = decide ((fdie s g).badRun < 3)
        ∧ ((fdie s g).badRun < 3 → (fdie t g).badRun = (fdie s g).badRun + 1 ∧ (fdie t g).badDown = f.seq :: (fdie s g).badDown)))
    ∧ ((fdie s g).powered = true → linksRun s = true → ((fdie s g).linked = false ∨ (lnk s g).st ≠ .down) →
      ∃ t x, exec (.upstreamFrameSend g) s = .next t ∧ (lnk t g).up = (lnk s g).up ++ [x] ∧ x.beacon = !(fdie s g).linked
        ∧ x.start = max (fdie s g).nextUp ((dieTime s + 249) / 250 * 250) ∧ x.seq = (fdie s g).seqUp
        ∧ (fdie t g).seqUp = (fdie s g).seqUp + 1 ∧ (fdie t g).nextUp = x.start + 250 ∧ x.supply = (fdie s g).supply
        ∧ ((fdie s g).linked = true → (fdie s g).again = [] → x.reports = (fdie s g).reports ∧ x.edges = (fdie s g).edges.take 4
          ∧ (fdie t g).edges = (fdie s g).edges.drop 4 ∧ (fdie t g).reports = [])
        ∧ ∀ k : Grp, k ≠ g → fdie t k = fdie s k ∧ lnk t k = lnk s k)
    ∧ ((lnk s g).up = u :: r → linksRun s = true → u.beacon = false → (lnk s g).st = .up → s.inj.armed = none →
      (u.reports = [] → u.badDown = [] → u.chan = none → ∃ t, exec (.upstreamFrameReceive g true) s = .next t ∧ (lnk t g).up = r
        ∧ (lnk t g).badRun = 0 ∧ (lnk t g).lastUp = some u.seq ∧ (lnk t g).lastGoodUp = u.start ∧ (lnk t g).vfg = u.grp.vfg
        ∧ (lnk t g).tbLock = u.grp.lock ∧ (lnk t g).tbErr = u.grp.phase ∧ (lnk t g).st = .up
        ∧ t.trk.queue = u.edges.foldl (fun q e => insEdge { e with usable := max s.now (s.now + (u.start + 275 - dieTime s)) } q)
          s.trk.queue ∧ t.mirrors = s.mirrors)
      ∧ (∃ t, exec (.upstreamFrameReceive g false) s = .next t
        ∧ ((lnk s g).badRun < 3 → (lnk t g).up = r ∧ (lnk t g).upCrc = satInc (lnk s g).upCrc
          ∧ (lnk t g).badRun = (lnk s g).badRun + 1 ∧ (lnk t g).st = .up)
        ∧ (3 ≤ (lnk s g).badRun → (lnk t g).st = .down ∧ (lnk t g).cause = 3 ∧ (lnk t g).losses = satInc (lnk s g).losses)))
    ∧ ((lnk s g).up = u :: r → linksRun s = true → u.beacon = true → (lnk s g).st = .down → u.supply = .good →
      ∃ t, exec (.upstreamFrameReceive g true) s = .next t ∧ t = { s with now := t.now, links := t.links }
        ∧ (lnk t g).up = r ∧ (lnk t g).supply = .good ∧ (lnk t g).beaconLast = t.now
        ∧ (lnk t g).beacon = (match (lnk s g).beacon with
          | some b => if t.now ≤ (lnk s g).beaconLast + 1000 then some b else some t.now
          | none => some t.now))

/-! ### Sampling -/

/-- Triggers and conversions (R272 to R283, R302, R351, R362): the common timer triggers, at the next multiple of its period, the
channels of every group that is up whose divider divides its index. A channel's next trigger is served at its stamp: a conversion less
than 1 µs after the last is skipped and reported, else the trimmed value becomes a sample word with its flags. -/
def Obligations.ConversionsAreMade : Prop :=
  ∀ (g : Grp) (l : Lidx) (n : Chan) (x : Int) (pin : Bool) (tr : Trig) (s : State),
    (timerTicks s ≠ 0 → trigState s = true → s.pw.tb0.isSome = true →
      let idx := tbNow s / timerTicks s + 1
      ∃ t, exec .sampleTimerInstant s = .next t ∧ t = { s with now := t.now, smp := t.smp, fields := t.fields }
        ∧ t.now = max s.now (tickOf s (idx * timerTicks s)) ∧ t.smp = { s.smp with expect := t.smp.expect }
        ∧ ((lnk s g).st = .up → cfgFld s (.smpCfg (chanOf g l)) 5 8 ≠ 0 → idx % cfgFld s (.smpCfg (chanOf g l)) 5 8 = 0 →
          ∃ y ∈ (fdie t g).trigs, y.l = l ∧ y.stamp = idx * timerTicks s ∧ bit y.src 1 = true)
        ∧ ((lnk s g).st ≠ .up → fdie t g = fdie s g))
    ∧ ((fdie s (chanGrp n)).powered = true → firstTrig ((fdie s (chanGrp n)).trigs.filter fun y => decide (y.l = chanLidx n)) = some tr →
      let m := dieMode s n
      let cfg := smpCfgOf s n
      let v := if hasTrim m then trimIn (slc s n).trims[trimSet m (fld cfg 0 2)] x else x * 2 ^ 24
      let c := codeOf (resBits cfg) (decide (m = mAiDiff)) v
      ∃ t, exec (.conversion n x pin) s = .next t ∧ t = { s with now := t.now, fields := t.fields }
        ∧ t.now = s.now + (tr.stamp - dieTime s) ∧ (fdie t (chanGrp n)).trigs = (fdie s (chanGrp n)).trigs.filter (· != tr)
        ∧ (converts m n = false → (fdie t (chanGrp n)).samples = (fdie s (chanGrp n)).samples)
        ∧ (converts m n = true → ∀ k, (slc s n).lastConv = some k → tr.stamp - k < 250 →
          (fdie t (chanGrp n)).samples = (fdie s (chanGrp n)).samples
            ∧ (fdie t (chanGrp n)).reports = (fdie s (chanGrp n)).reports ++ [.busy tr.l tr.stamp])
        ∧ (converts m n = true → (∀ k, (slc s n).lastConv = some k → 250 ≤ tr.stamp - k) →
          (fdie t (chanGrp n)).samples = (fdie s (chanGrp n)).samples ++ [{
            l := tr.l, word := sampleWord cfg c.1
            flags := flagNibble (c.2 || (decide (m = mAiDiff) && pin)) (openFlag m (slc s n)) false false
            unlocked := !(fdie s (chanGrp n)).lock, src := tr.src, stamp := tr.stamp }]
          ∧ (slc t n).lastConv = some tr.stamp))

/-- Pans (R290 to R296, R303): an open of an enabled pan that is idle makes it OPEN with its record written; one of a pan that is OPEN
or disabled is skipped. A close sets the close stamp and its reason; when every set before it is known the pan is CLOSED and its close
record stands behind the open record. -/
def Obligations.PansOpenAndClose : Prop :=
  ∀ (g : Grp) (q : Fin 16) (v : PanEv) (s : State), panAlt s g q = false → s.cask.st ≠ .replaying →
    let u := { s with now := max s.now (tickOf s v.stamp), smp := { s.smp with evs := s.smp.evs.erase v } }
    (firstPanEv s g q = some v → v.opens = true →
      ((bit (panCfgOf s g q) 11 = false ∨ (pan s g q).st = .opened ∧ (pan s g q).tClose = none) →
        exec (.panOpen g q) s = .next (modSmp (fun m => { m with skipped := vmod m.skipped g satInc }) u))
      ∧ (bit (panCfgOf s g q) 11 = true → (pan s g q).st = .idle → s.mi.fArmed = false → s.canonical = true → v.g = g → v.pan = q →
        ∃ t, exec (.panOpen g q) s = .next t ∧ t = { u with smp := t.smp, mems := t.mems, mi := t.mi }
          ∧ (pan t g q).st = .opened ∧ (pan t g q).tOpen = v.stamp ∧ (pan t g q).tClose = none ∧ (pan t g q).decim = v.decim
          ∧ (pan t g q).mask = (panCfgOf s g q).extractLsb' 0 8 ∧ (pan t g q).src = (panCfgOf s g q).extractLsb' 8 3
          ∧ (pan t g q).sets = 0 ∧ (pan t g q).blocks = 0
          ∧ (∀ k, k < 8 → memCell t (panM g) (panBase s g q + k) = encWord ((openRecord u g q v).getD k 0))
          ∧ (∀ k, 8 ≤ k → k < 16 → memCell t (panM g) (panBase s g q + k) = encWord 0)
          ∧ (∀ a, a < panBase s g q ∨ panBase s g q + 16 ≤ a → memCell t (panM g) a = memCell s (panM g) a)
          ∧ (∀ k : Fin 16, k ≠ panM g → t.mems[k] = s.mems[k])
          ∧ ∀ h k, (h ≠ g ∨ k ≠ q) → pan t h k = pan s h k))
    ∧ (firstPanEv s g q = some v → v.opens = false → v.pan = q → (pan s g q).tClose = none →
      exec (.panClose g q) s = .next (modPan g q (fun k =>
        if k.st = .opened then { k with tClose := some (v.stamp, if v.origin = 2 then 2 else 1) } else k) u))
    ∧ (∀ k r, (pan s g q).st = .opened → (pan s g q).tClose = some (k, r) →
      (∀ e ∈ s.smp.expect, ¬(e.1 = g ∧ e.2.1 < k)) → bit (pan s g q).decim 16 = false → (pan s g q).part = [] →
      s.mi.fArmed = false → s.canonical = true →
      ∃ t, exec (.panClosed g q) s = .next t ∧ t.now = max s.now (tickOf s k) ∧ (pan t g q).st = .closed ∧ (pan t g q).tClose = none
        ∧ (pan t g q).sets = (pan s g q).sets ∧ (pan t g q).blocks = (pan s g q).blocks
        ∧ (∀ i, i < 8 → memCell t (panM g) (panBase s g q + 8 + i) = encWord ((closeRecord s g q k r).getD i 0))
        ∧ (bit (panCfgOf s g q) 15 = true → isLive s = true → shows t ⟨66 + g.val, by omega⟩ = true)
        ∧ ∀ h i, (h ≠ g ∨ i ≠ q) → pan t h i = pan s h i)

/-! ### Channels -/

/-- Inputs (R317 to R321, R509): an edge of the filtered input sets the state and its event and counts where CNTCFG says so; a
comparator transition is recorded where the cask selects the channel; a frequency measurement without an end is given up; a
condition that has been present for its time sets its flag and its event, and one that has gone clears the flag. -/
def Obligations.DigitalInputsAct : Prop :=
  ∀ (n : Chan) (lv : Bool) (c : DigDiag) (s : State), (fdie s (chanGrp n)).powered = true →
    (isDigIn (dieMode s n) = true → (slc s n).inp = !lv → ∃ t, exec (.diEdge n lv) s = .next t ∧ t = { s with fields := t.fields }
      ∧ (slc t n).inp = lv ∧ (slc t n).comp = lv ∧ (slc t n).cnt = (if countsEdge s n lv then (slc s n).cnt + 1 else (slc s n).cnt)
      ∧ Report.dig (chanLidx n) (if lv then 0 else 1) ∈ (fdie t (chanGrp n)).reports
      ∧ (gateTicks s n = 0 → (slc t n).fper = (slc s n).fper ∧ (slc t n).fStart = (slc s n).fStart)
      ∧ ∀ k : Chan, k ≠ n → slc t k = slc s k)
    ∧ (isDigIn (dieMode s n) = true → (slc s n).comp = !lv → s.cask.st ≠ .replaying →
      let u := modSlice n (fun x => { x with comp := lv }) s
      exec (.rawDiTransition n lv) s
        = .next (if (lnk s (chanGrp n)).st = .up ∧ diSelected s n then recNow 0x04 (n.val + 64 * b2n lv) [] u else u))
    ∧ (∀ k, dieMode s n = mDiCount → gateTicks s n ≠ 0 → (slc s n).fStart = some k →
      exec (.freqTimeout n) s = .next (modSlice n (fun x => { x with
        fStart := none, fK := 0, fper := 0, fedg := 0, noFreq := true }) { s with now := max s.now (k + 16 * gateTicks s n) }))
    ∧ (isDigIn (dieMode s n) = true → bit (dieCh s n .dicfg) 11 = true → bit (dieCh s n .dicfg) 12 = true →
      exec (.diagThresholdSwap n) s = .next (modSlice n (fun x => { x with wbTurn := !x.wbTurn }) s))
    ∧ (diagHeld s n c = false →
      (diagJudged s n c = true → diagFlag (slc s n) c = false → ∃ t, exec (.diagTimer n c true) s = .next t
        ∧ t = { s with fields := t.fields } ∧ slc t n = setDiag c true (slc s n)
        ∧ Report.dig (chanLidx n) (match c with | .wireBreak | .openOff | .openOn => 5 | .inputShort | .shortVf => 6 | .swFail => 7)
          ∈ (fdie t (chanGrp n)).reports
        ∧ (c = .swFail → Report.fault 6 (BitVec.ofNat 6 n.val) ∈ (fdie t (chanGrp n)).reports))
      ∧ (diagFlag (slc s n) c = true → exec (.diagTimer n c false) s = .next (modSlice n (setDiag c false) s)))

/-- Protection of a switch (R324 to R329): a trip switches it off, stops its pattern, and pauses or latches it with its events; the
group current guard sums the measured currents and trips the highest after 1 ms above 8 A. The thermal latch holds the switch off; the
end of a pause switches a commanded channel on again and counts the retry, which 4 s of conduction forget.

Self-timed PWM (R333 to R335): a running pattern in its on-phase switches off at the end of D and waits for its period; a period
begins with the duty then in force; the hit phase ends into the pattern, whose period begins there when it is anchored. -/
def Obligations.SwitchesAndPatterns : Prop :=
  (∀ (n : Chan) (g : Grp) (mA : Vector Nat 8) (s : State), (fdie s (chanGrp n)).powered = true → chanGrp n = g →
      (isSwitch (dieMode s n) = true → (slc s n).out = true → (slc s n).inrushEnd = none →
        ∃ t, exec (.limitTimerTrip n) s = .next t ∧ t = { s with fields := t.fields }
          ∧ (slc t n).out = false ∧ (slc t n).pwm = false ∧ (slc t n).cmd = (slc s n).cmd ∧ (slc t n).r = (slc s n).r
          ∧ Report.dig (chanLidx n) 2 ∈ (fdie t g).reports
          ∧ (if (slc s n).r.toNat = fld (dieCh s n .retry) 6 4 then
              (slc t n).retry = .latched ∧ Report.dig (chanLidx n) 3 ∈ (fdie t g).reports
            else (slc t n).retry = .pause ∧ (slc t n).pauseEnd = if (slc s n).therm then none else
              some (s.now + min ((fld (dieCh s n .retry) 0 6 + 1) * 2 ^ (slc s n).r.toNat) 4000 * 250000))
          ∧ ∀ k : Chan, k ≠ n → slc t k = slc s k)
      ∧ (injRuns s 12 6 g.val = false →
        let u := takeCurrents g mA s
        let sum := ((guarded s g).map fun k => mA[chanLidx k]).foldl (· + ·) 0
        ∃ t, exec (.guardStep g mA) s = .next t ∧ t = { s with fields := t.fields }
          ∧ (sum ≤ 8000 → (fdie t g).guard = 0 ∧ (slc t n).curMa = mA[chanLidx n])
          ∧ (8000 < sum → (fdie s g).guard < 100 → (fdie t g).guard = (fdie s g).guard + 1 ∧ (slc t n).curMa = mA[chanLidx n]
            ∧ (slc t n).out = (slc s n).out)
          ∧ (8000 < sum → 100 ≤ (fdie s g).guard → highest u (guarded u g) = some n → (slc t n).out = false ∧ (fdie t g).guard = 0
            ∧ Report.dig (chanLidx n) 10 ∈ (fdie t g).reports))
      ∧ ((slc s n).therm = false → ∃ t, exec (.thermalLatchSet n) s = .next t ∧ t = { s with fields := t.fields }
        ∧ (slc t n).therm = true ∧ (slc t n).out = false ∧ (slc t n).pauseEnd = none ∧ Report.dig (chanLidx n) 4 ∈ (fdie t g).reports)
      ∧ ((slc s n).therm = true → injRuns s 12 5 n.val = false → ∃ t, exec (.thermalLatchClear n) s = .next t
        ∧ t = { s with fields := t.fields } ∧ (slc t n).therm = false
        ∧ ((slc s n).retry = .pause → (slc t n).pauseEnd = some (s.now + pauseOf s n) ∧ (slc t n).out = (slc s n).out)
        ∧ ((slc s n).retry = .normal → (slc s n).cmd = true → dieMode s n = mDo → (slc t n).out = true))
      ∧ (∀ k, (slc s n).pauseEnd = some k → (slc s n).retry = .pause → ∃ t, exec (.retryPauseEnd n) s = .next t
        ∧ t = { s with now := max s.now k, fields := t.fields } ∧ (slc t n).retry = .normal ∧ (slc t n).pauseEnd = none
        ∧ ((slc s n).cmd = false → (slc t n).r = (slc s n).r ∧ (slc t n).out = (slc s n).out)
        ∧ ((slc s n).cmd = true → dieMode s n = mDo → (slc t n).r = (slc s n).r + 1 ∧ (slc t n).out = true))
      ∧ (dieMode s n = mDo → (slc s n).out = true →
        exec (.retryCountReset n) s = .next (modSlice n (fun x => { x with r := 0 })
          { s with now := max s.now ((slc s n).onSince + 1000000000) }))
      ∧ ∀ k, (slc s n).inrushEnd = some k →
        exec (.inrushWindowEnd n) s = .next (modSlice n (fun x => { x with inrushEnd := none }) { s with now := max s.now k }))
  ∧ (∀ (n : Chan) (s : State), (fdie s (chanGrp n)).powered = true → dieMode s n = mDoPwm → (slc s n).pwm = true →
      ((slc s n).hitEnd = none → pwmPer s n ≠ 0 →
        ((slc s n).pwmOn = true → (slc s n).duty < pwmPer s n → ∃ t, exec (.pwmEdge n) s = .next t
          ∧ t = { s with now := s.now + ((slc s n).duty - pwmPos s n), fields := t.fields }
          ∧ (slc t n).pwmOn = false ∧ (slc t n).out = false ∧ (slc t n).pwm = true ∧ (slc t n).duty = (slc s n).duty)
        ∧ (((slc s n).pwmOn = false ∨ pwmPer s n ≤ (slc s n).duty) → ∃ t, exec (.pwmEdge n) s = .next t
          ∧ t = { s with now := s.now + (pwmPer s n - pwmPos s n), fields := t.fields }
          ∧ (slc t n).pwm = true ∧ (slc t n).duty = (dieCh s n .pwmduty).toNat * pwmUnit (dieCh s n .pwmcfg)
          ∧ (slc t n).sqN = 0 ∧ (slc t n).sqSum = 0))
      ∧ ∀ k, (slc s n).hitEnd = some k → ∃ t, exec (.pwmHitEnd n) s = .next t
        ∧ t = { s with now := max s.now k, fields := t.fields } ∧ (slc t n).hitEnd = none ∧ (slc t n).anchor = t.now
        ∧ (slc t n).pwm = true ∧ (slc t n).cmd = (slc s n).cmd)

/-- Analog events (R346 to R348, R357 to R361): the monitor converter's results are kept; a condition that has held for its time sets
its flag and event, and clears with its absence; saturation of an output is noted and reported; the headroom controller's target is
the greatest need plus 2 V within HR_MIN and HR_MAX, 0 while it is off; a supply away from its target for 20 ms is reported. -/
def Obligations.AnalogEvents : Prop :=
  ∀ (n : Chan) (g : Grp) (i : BitVec 12) (v : BitVec 8) (d : BitVec 12) (c : AnaDiag) (b : Bool) (s : State),
    (fdie s (chanGrp n)).powered = true → chanGrp n = g →
    ((isAnalog (dieMode s n) n = true ∨ isDigIn (dieMode s n) = true) →
      exec (.monitorStep n i v) s = .next (modSlice n (fun x => { x with imon := i, vpin := v }) s))
    ∧ (s.inj.armed = none →
      (anaJudged s n c = true → anaFlag (slc s n) c = false → ∃ t, exec (.analogDiagTimer n c true) s = .next t
        ∧ t = { s with fields := t.fields } ∧ slc t n = setAna c true (slc s n)
        ∧ (fdie t g).reports = (fdie s g).reports ++ [.ana (chanLidx n) (match c with | .opened => 0 | .shorted => 1)])
      ∧ (anaFlag (slc s n) c = true → exec (.analogDiagTimer n c false) s = .next (modSlice n (setAna c false) s)))
    ∧ (dieMode s n = mAoI → (slc s n).compl = !b → ∃ t, exec (.complianceTimer n b) s = .next t ∧ t = { s with fields := t.fields }
      ∧ slc t n = { slc s n with compl := b }
      ∧ (fdie t g).reports = (fdie s g).reports ++ (if b then [.ana (chanLidx n) 2] else []))
    ∧ (s.inj.armed = none →
      let w := dieReg s g (.grp g .hrcfg)
      let need := maxNat ((hrChans s g).map fun k => needOf (slc s k))
      (hrOn s g = true → ∃ t, exec (.headroomStep g v d) s = .next t ∧ t = { s with fields := t.fields }
        ∧ (fdie t g).vfg = v ∧ (fdie t g).drive = d ∧ (fdie t g).driven = true
        ∧ (fdie t g).target = BitVec.ofNat 8 (min (max (need + 10) (hrMin w)) (hrMax w))
        ∧ (fdie t g).atMax = decide (hrMax w < need + 10)
        ∧ (slc t n).hrLim = (decide (n ∈ hrChans s g) && decide (hrMax w < needOf (slc s n) + 10)))
      ∧ (hrOn s g = false → ∃ t, exec (.headroomStep g v d) s = .next t ∧ t = { s with fields := t.fields }
        ∧ (fdie t g).vfg = v ∧ (fdie t g).target = 0 ∧ (fdie t g).driven = false ∧ (slc t n).hrLim = false))
    ∧ (hrOn s g = true → (fdie s g).hrErr = !b → exec (.hrErrTimer g b) s = .next (modField g (fun x => { x with
        hrErr := b, reports := x.reports ++ (if b then [.grp 5] else []) }) s))

/-- The governor (R401 to R407, R411, R412): each millisecond a case temperature enters the mean of sixteen, which gives the budget; an
implausible sensor gives 4 W; above the budget OVER and source 85. Every 10 µs the first waiting start of a group is released when the
stagger and the three sums allow it, else it waits and counts as deferred once; one that has waited for DEFER_MAX is dropped. -/
def Obligations.GovernorActs : Prop :=
  ∀ (raw : Int) (g : Grp) (hot : Bool) (w : Start) (s : State),
    (govRuns s = true → s.inj.armed = none → ∃ t, exec (.govTempStep raw) s = .next t
      ∧ t.now = max s.now (tickOf s ((tbNow s / 250000 + 1) * 250000)) ∧ t.gov.samples = (raw :: s.gov.samples).take 16
      ∧ t.gov.tc = roundDiv (tcSum t.gov) (tcLen t.gov) ∧ t.gov.budget = budgetOf t.gov ∧ t.gov.lastRaw = raw
      ∧ ((raw < -240 ∨ 640 < raw) → t.gov.sensorFail = true ∧ t.gov.budget = 4000)
      ∧ (budgetUw t < estModule t → t.gov.overAt.isSome = true ∧ (s.gov.overAt = none → t.gov.cntOver = satInc s.gov.cntOver
        ∧ (isLive s = true → shows t 85 = true)))
      ∧ (estModule t ≤ budgetUw t → t.gov.overAt = none) ∧ t.gov.waiting = s.gov.waiting ∧ t.cfg = s.cfg ∧ t.fields = s.fields)
    ∧ (∀ k, s.gov.overAt = some k → isLive s = true → exec .govOverTimer s = .next (report 10 3 63
      { s with now := max s.now s.gov.overNext, gov := { s.gov with overNext := s.gov.overNext + 2500000000 } }))
    ∧ ((fdie s g).powered = true → (fdie s g).tempArmed = hot → exec (.fieldTempEvent g hot) s = .next (modField g (fun d => { d with
        tempArmed := !hot, reports := d.reports ++ (if hot then [.grp 7] else []) }) s))
    ∧ (s.pw.dev = .run → s.pw.resetSeq = none → s.pw.tb0.isSome = true → s.gov.waiting = [w] →
      let u := { s with now := max s.now (tickOf s ((tbNow s / 2500 + 1) * 2500)) }
      let stag : Bool := match s.gov.lastRel[chanGrp w.n] with | some t => decide (t + staggerTicks s ≤ u.now) | none => true
      (stag = true → startFits u w = true → ∃ t, exec .govReleaseStep s = .next t ∧ t = { u with gov := t.gov, links := t.links }
        ∧ t.gov.waiting = [] ∧ t.gov.lastRel[chanGrp w.n] = some u.now
        ∧ (w.op = .on → (lnk s (chanGrp w.n)).st = .up →
          (lnk t (chanGrp w.n)).conf = (lnk s (chanGrp w.n)).conf ++ [.host (chanLidx w.n) .on]))
      ∧ (startFits u w = false → ∃ t, exec .govReleaseStep s = .next t ∧ t = { u with gov := t.gov, irq := t.irq }
        ∧ t.gov.waiting.map (·.n) = [w.n] ∧ t.gov.cntDef = (if bit w.counted 0 then s.gov.cntDef else satInc s.gov.cntDef))
      ∧ (stag = false → startFits u w = true → ∃ t, exec .govReleaseStep s = .next t ∧ t = { u with gov := t.gov }
        ∧ t.gov.waiting = [{ w with counted := w.counted ||| 2 }] ∧ t.gov.cntDef = s.gov.cntDef))
    ∧ (s.gov.waiting.find? (fun x => decide (x.n = w.n)) = some w → cfgFld s .govCfg 6 4 ≠ 0 →
      exec (.govDeferTimeout w.n) s = .next (modGov (fun x => { x with
        waiting := x.waiting.filter (fun y => y.n != w.n), cntDrop := satInc x.cntDrop })
        { s with now := max s.now (w.since + cfgFld s .govCfg 6 4 * 25000000) }))

/-! ### Memory integrity and the memory master port -/

/-- Scrubbing, pattern tests, refetched lines (R469, R471, R475 to R479): a scrub read mends a word with one error and goes on to the
next; a test that ends has cleared its memories and tells what it found; a refetched line whose check is right is stored again and
reported as corrected, else the bank is spoiled. -/
def Obligations.MemoriesAreKept : Prop :=
  ∀ (b : Bool) (line : Nat) (ws : List Word) (m : Fin 16) (a : Nat) (c : Cell) (s : State),
    (cfgBit s .miCfg 0 = true → isLive s = true → s.pw.dev ≠ .lockdown → scrubAt s.mi.scrub memAll = some (m, a) →
      underTest s m = false → lineBank s m = none →
      ((decCell (memCell s m a)).2 = .ok → exec .scrubRead s = .next (modMi (fun x =>
          if (scrubAt (x.scrub + 1) memAll).isSome then { x with scrub := x.scrub + 1 } else { x with scrub := 0, pass := x.pass + 1 })
          { s with now := max s.now (s.now + (5 * 2 ^ cfgFld s .miCfg 1 4 + 3) / 4) }))
      ∧ (decCell (memCell s m a) = (c, .corrected) → s.canonical = true → m ≠ 8 → ∃ t, exec .scrubRead s = .next t
        ∧ memCell t m a = c ∧ (s.mi.cnt[m].lcorV = false → t.mi.cnt[m].corr = satInc s.mi.cnt[m].corr)))
    ∧ (∀ k sel, s.mi.test = some (k, sel) → ∃ t, exec (.miTestEnd []) s = .next t ∧ t.mi.test = none ∧ t.mi.testRes = 1
      ∧ (∀ j : Fin 16, t.mems[j] = if bit sel j.val then [] else s.mems[j]) ∧ t.flt = s.flt)
    ∧ (s.seq.refetch = some (b, line) → (∀ q ∈ s.mmp.reqs, q.user ≠ .refetch) →
      let k : Fin 2 := if b then 1 else 0
      (ws.length = 8 → crc16 ws = lineCrcOf s k line → s.canonical = true → ∃ t, exec (.lineRefetchDone b ws true) s = .next t
        ∧ t.seq.refetch = none ∧ (∀ i (h : i < ws.length), memCell t (bankIx k) (8 * line + i) = plainCell ws[i])
        ∧ bnk t k = bnk s k)
      ∧ ∃ t, exec (.lineRefetchDone b ws false) s = .next t ∧ t.seq.refetch = none ∧ (bnk t k).loaded = false
        ∧ (bnk t k).st = .unarmed)

/-- The memory master port (R538, R544, R546, R547, R549): a request that its window refuses ends with its error, counted and reported
with source 88; else its transaction takes the bus, and gives it back with the bytes read. A write goes through write enable,
program and status; a device that stays busy, or does not drive its strobe, ends the request with an error. -/
def Obligations.MemoryMasterPortTransfers : Prop :=
  ∀ (q : MmpReq) (data : List (BitVec 8)) (st : BitVec 8) (t0 : Nat) (s : State), q.user = .refetch →
    (s.mmp.bus = none → mmpNext s = some (.refetch, q) →
      (∀ kind, q.done = 0 → q.step = 0 → mmpCheck s q = some kind → ∃ t, exec .mmpTransactionStart s = .next t
        ∧ t.mmp.bus = none ∧ t.mmp.errors = satInc s.mmp.errors ∧ t.mmp.lastKind = BitVec.ofNat 3 kind
        ∧ (isLive s = true → shows t 88 = true) ∧ (mmpEnded t .refetch).isSome = true)
      ∧ (mmpCheck s q = none → q.write = false → ∃ t, exec .mmpTransactionStart s = .next t
        ∧ t = { s with now := t.now, mmp := { s.mmp with bus := some (.refetch, t.now) } }
        ∧ t.now = max s.now (s.mmp.lastEnd + mckTicks s 2)))
    ∧ (s.mmp.bus = some (.refetch, t0) → mmpHead s .refetch = some q →
      let free := fun (k : Nat) (r : MmpReq) => { s with
        now := max s.now (t0 + mckTicks s k)
        mmp := { s.mmp with bus := none, lastEnd := max s.now (t0 + mckTicks s k), reqs := mmpPut.go .refetch (fun _ => r) s.mmp.reqs } }
      (q.write = false → (mmpShape s q).2 ≤ data.length →
        exec (.mmpTransactionEnd data) s = .next (free (mmpShape s q).1 { q with
          data := q.data ++ data.take (mmpShape s q).2, done := q.done + (data.take (mmpShape s q).2).length }))
      ∧ (q.write = true → q.step = 0 → exec (.mmpTransactionEnd data) s = .next (free (mmpShape s q).1 { q with step := 1 }))
      ∧ (q.write = true → q.step = 1 → cfgBit s (.mmpSel (mmpPlace s q).1 2) 17 = true →
        exec (.mmpTransactionEnd data) s = .next (free (mmpShape s q).1 { q with
          step := 2, polls := max s.now (t0 + mckTicks s (mmpShape s q).1) }))
      ∧ (isDtr s = true → q.write = false → ∃ t, exec .mmpStrobeTimeout s = .next t ∧ t.mmp.bus = none
        ∧ t.mmp.errors = satInc s.mmp.errors ∧ t.mmp.lastKind = 2))
    ∧ (s.mmp.bus = none → mmpPolling s = some (.refetch, q) → s.inj.armed = none →
      let k := (mmpPlace s q).1
      let step := (selFld s k 3 12 4 + 1) * 250
      let at_ := max (q.polls + max 1 ((s.now - q.polls + step - 1) / step) * step) (s.mmp.lastEnd + mckTicks s 2)
      (at_ ≤ pollDeadline s k q → bit st (selFld s k 3 4 3) = cfgBit s (.mmpSel k 3) 7 →
        ∃ t, exec (.mmpStatusPoll st) s = .next t ∧ t = { s with now := t.now, mmp := { s.mmp with lastEnd := t.now } } ∧ at_ ≤ t.now)
      ∧ (at_ ≤ pollDeadline s k q → bit st (selFld s k 3 4 3) ≠ cfgBit s (.mmpSel k 3) 7 → cfgBit s (.mmpWin q.win 0) 9 = true →
        ∃ t, exec (.mmpStatusPoll st) s = .next t ∧ mmpHead t .refetch = some { q with step := 3, polls := 0 })
      ∧ ∃ t, exec .mmpPollTimeout s = .next t ∧ t.mmp.errors = satInc s.mmp.errors ∧ t.mmp.pollTo = satInc s.mmp.pollTo
        ∧ t.mmp.lastKind = 1 ∧ t.now = max s.now (pollDeadline s k q))

/-! ### The register map, the memory code -/

/-- The register map (R175): the address of every register is a 16-bit address, and reading it gives that register and no other. -/
def Obligations.RegisterMapRoundTrip : Prop :=
  ∀ r : Reg, Reg.ofAddr r.addr = some r ∧ r.addr < 2 ^ 16 ∧ ∀ q : Reg, q.addr = r.addr → q = r

/-- The code of a half-word (R468, R469): stored data read back as they are; every single error in the 17 bits is mended; every
double error within the ten data bits, within the five column parities, and of the two row parities is detected (log entry 29 on a row
and a column parity); a data bit in error together with one of its own check bits shows as a check-bit error. -/
def Obligations.HalfWordCodeMends : Prop :=
  ∀ (d : BitVec 10) (i j : Nat),
    let e := fun (k : Nat) => BitVec.twoPow 17 k
    decHalf (encHalf d) = (encHalf d, .ok) ∧ halfData (encHalf d) = d
    ∧ (i < 17 → decHalf (encHalf d ^^^ e i) = (encHalf d, .corrected))
    ∧ (i < j → j < 10 → (decHalf (encHalf d ^^^ e i ^^^ e j)).2 = .bad)
    ∧ (10 ≤ i → i < j → j < 15 → (decHalf (encHalf d ^^^ e i ^^^ e j)).2 = .bad)
    ∧ (decHalf (encHalf d ^^^ e 15 ^^^ e 16)).2 = .bad
    ∧ (i < 10 → (j = 10 + i % 5 ∨ j = 15 + i / 5) →
      (decHalf (encHalf d ^^^ e i ^^^ e j)).2 = .corrected
        ∧ halfData (decHalf (encHalf d ^^^ e i ^^^ e j)).1 = d ^^^ BitVec.twoPow 10 i)

/-- Reserved combinations in WHEEL (R209): in CONFIG and MAINTENANCE a write of MISSING = 0 with ZEN = 0, of BMODE = 2 with
CYCLE = 0, of BMODE = 3, or of TEETH outside 12 to 1024 changes nothing, and a REG_WRITE of it is answered with RANGE. -/
def Obligations.WheelCombinationsRefused : Prop :=
  ∀ (p : Port) (v : Word) (s : State), inConfMaint s = true → s.cask.st ≠ .replaying →
    (fld v 11 2 = 0 ∧ bit v 15 = false ∨ fld v 13 2 = 2 ∧ bit v 17 = false ∨ fld v 13 2 = 3 ∨ fld v 0 11 < 12
      ∨ 1024 < fld v 0 11) →
    (RowReady Op.regWrite p s → exec (.trackerConfigWrite p .wheel v) s = .next s)
    ∧ ∀ m : Msg, PacketReady Op.regWrite m s → m.words = [0, BitVec.ofNat 20 Reg.wheel.addr, v] →
      exec (.regWrite m) s = .next (replied m stRange (splitReply 0 stRange (BitVec.ofNat 20 Reg.wheel.addr) 0 false)
        (takenUp Op.regWrite m s))

/-! ### The whole machine -/

/-- After a power-on (R87, R104, R106, R397): BOOT with FAULT_N asserted, POR the only cause, every configuration register at its factory
value (log entry 5), every channel OFF, every tap free, every port in vintage 1, no fault held, no source pending, and every
list in its canonical form. -/
def Obligations.ResetState : Prop :=
  State.reset.pw.dev = .boot ∧ devStateWord State.reset = 0x11 ∧ State.reset.aon.resetCause = 1 ∧ faultN State.reset = true
    ∧ State.reset.pending = [] ∧ State.reset.canonical = true ∧ (∀ r, cfgGet State.reset r = BitVec.ofNat 20 r.factory)
    ∧ (∀ n, dieMode State.reset n = mOff ∧ (slc State.reset n).out = false ∧ (slc State.reset n).code = 0)
    ∧ (∀ k : Fin 32, State.reset.taps[k].holder = none) ∧ (∀ p, portVintage State.reset p = 1)
    ∧ contMask State.reset = 0 ∧ (∀ n, shows State.reset n = false) ∧ State.reset.trk.st = .stopped
    ∧ ∀ b : Fin 2, (bnk State.reset b).st = .unarmed

/-- Every command completes in every state: the block has no fault and no refusal of its own. A packet that the spec refuses is answered
so; an event that can not occur changes nothing (log entry 2). -/
def Obligations.EveryCommandCompletes : Prop :=
  (∀ (i : Instr) (s : State), Completes i s) ∧ ∀ s : State, ∃ t, step s = .next t

/-- Every step keeps the canonical form of the protected memories and of the configuration registers: addresses rise, and no
entry is what an unlisted address reads as. -/
def Obligations.StepKeepsCanonical : Prop :=
  ∀ s t : State, s.canonical = true → step s = .next t → t.canonical = true
end

