-- ==== Sys2Proof/Laws/State.lean ====
section
/-! SUPPORT. One lemma for each field of the state and each named update of it; all hold by unfolding. -/

namespace Sys2Proof.Machine

variable (s : State)

@[simp] theorem modPw_pending (f : Power → Power) : (modPw f s).pending = s.pending := rfl
@[simp] theorem modPw_now (f : Power → Power) : (modPw f s).now = s.now := rfl
@[simp] theorem modPw_free (f : Power → Power) : (modPw f s).free = s.free := rfl
@[simp] theorem modPw_pw (f : Power → Power) : (modPw f s).pw = f s.pw := rfl
@[simp] theorem modPw_aon (f : Power → Power) : (modPw f s).aon = s.aon := rfl
@[simp] theorem modPw_ports (f : Power → Power) : (modPw f s).ports = s.ports := rfl
@[simp] theorem modPw_deferred (f : Power → Power) : (modPw f s).deferred = s.deferred := rfl
@[simp] theorem modPw_turn (f : Power → Power) : (modPw f s).turn = s.turn := rfl
@[simp] theorem modPw_grpJob (f : Power → Power) : (modPw f s).grpJob = s.grpJob := rfl
@[simp] theorem modPw_regJob (f : Power → Power) : (modPw f s).regJob = s.regJob := rfl
@[simp] theorem modPw_cfgJob (f : Power → Power) : (modPw f s).cfgJob = s.cfgJob := rfl
@[simp] theorem modPw_cfg (f : Power → Power) : (modPw f s).cfg = s.cfg := rfl
@[simp] theorem modPw_nv (f : Power → Power) : (modPw f s).nv = s.nv := rfl
@[simp] theorem modPw_taps (f : Power → Power) : (modPw f s).taps = s.taps := rfl
@[simp] theorem modPw_irq (f : Power → Power) : (modPw f s).irq = s.irq := rfl
@[simp] theorem modPw_flt (f : Power → Power) : (modPw f s).flt = s.flt := rfl
@[simp] theorem modPw_wd (f : Power → Power) : (modPw f s).wd = s.wd := rfl
@[simp] theorem modPw_trk (f : Power → Power) : (modPw f s).trk = s.trk := rfl
@[simp] theorem modPw_seq (f : Power → Power) : (modPw f s).seq = s.seq := rfl
@[simp] theorem modPw_mems (f : Power → Power) : (modPw f s).mems = s.mems := rfl
@[simp] theorem modPw_smp (f : Power → Power) : (modPw f s).smp = s.smp := rfl
@[simp] theorem modPw_mirrors (f : Power → Power) : (modPw f s).mirrors = s.mirrors := rfl
@[simp] theorem modPw_links (f : Power → Power) : (modPw f s).links = s.links := rfl
@[simp] theorem modPw_fields (f : Power → Power) : (modPw f s).fields = s.fields := rfl
@[simp] theorem modPw_gov (f : Power → Power) : (modPw f s).gov = s.gov := rfl
@[simp] theorem modPw_cal (f : Power → Power) : (modPw f s).cal = s.cal := rfl
@[simp] theorem modPw_mi (f : Power → Power) : (modPw f s).mi = s.mi := rfl
@[simp] theorem modPw_sec (f : Power → Power) : (modPw f s).sec = s.sec := rfl
@[simp] theorem modPw_cask (f : Power → Power) : (modPw f s).cask = s.cask := rfl
@[simp] theorem modPw_mmp (f : Power → Power) : (modPw f s).mmp = s.mmp := rfl
@[simp] theorem modPw_inj (f : Power → Power) : (modPw f s).inj = s.inj := rfl

@[simp] theorem modSec_pending (f : Sec → Sec) : (modSec f s).pending = s.pending := rfl
@[simp] theorem modSec_now (f : Sec → Sec) : (modSec f s).now = s.now := rfl
@[simp] theorem modSec_free (f : Sec → Sec) : (modSec f s).free = s.free := rfl
@[simp] theorem modSec_pw (f : Sec → Sec) : (modSec f s).pw = s.pw := rfl
@[simp] theorem modSec_aon (f : Sec → Sec) : (modSec f s).aon = s.aon := rfl
@[simp] theorem modSec_ports (f : Sec → Sec) : (modSec f s).ports = s.ports := rfl
@[simp] theorem modSec_deferred (f : Sec → Sec) : (modSec f s).deferred = s.deferred := rfl
@[simp] theorem modSec_turn (f : Sec → Sec) : (modSec f s).turn = s.turn := rfl
@[simp] theorem modSec_grpJob (f : Sec → Sec) : (modSec f s).grpJob = s.grpJob := rfl
@[simp] theorem modSec_regJob (f : Sec → Sec) : (modSec f s).regJob = s.regJob := rfl
@[simp] theorem modSec_cfgJob (f : Sec → Sec) : (modSec f s).cfgJob = s.cfgJob := rfl
@[simp] theorem modSec_cfg (f : Sec → Sec) : (modSec f s).cfg = s.cfg := rfl
@[simp] theorem modSec_nv (f : Sec → Sec) : (modSec f s).nv = s.nv := rfl
@[simp] theorem modSec_taps (f : Sec → Sec) : (modSec f s).taps = s.taps := rfl
@[simp] theorem modSec_irq (f : Sec → Sec) : (modSec f s).irq = s.irq := rfl
@[simp] theorem modSec_flt (f : Sec → Sec) : (modSec f s).flt = s.flt := rfl
@[simp] theorem modSec_wd (f : Sec → Sec) : (modSec f s).wd = s.wd := rfl
@[simp] theorem modSec_trk (f : Sec → Sec) : (modSec f s).trk = s.trk := rfl
@[simp] theorem modSec_seq (f : Sec → Sec) : (modSec f s).seq = s.seq := rfl
@[simp] theorem modSec_mems (f : Sec → Sec) : (modSec f s).mems = s.mems := rfl
@[simp] theorem modSec_smp (f : Sec → Sec) : (modSec f s).smp = s.smp := rfl
@[simp] theorem modSec_mirrors (f : Sec → Sec) : (modSec f s).mirrors = s.mirrors := rfl
@[simp] theorem modSec_links (f : Sec → Sec) : (modSec f s).links = s.links := rfl
@[simp] theorem modSec_fields (f : Sec → Sec) : (modSec f s).fields = s.fields := rfl
@[simp] theorem modSec_gov (f : Sec → Sec) : (modSec f s).gov = s.gov := rfl
@[simp] theorem modSec_cal (f : Sec → Sec) : (modSec f s).cal = s.cal := rfl
@[simp] theorem modSec_mi (f : Sec → Sec) : (modSec f s).mi = s.mi := rfl
@[simp] theorem modSec_sec (f : Sec → Sec) : (modSec f s).sec = f s.sec := rfl
@[simp] theorem modSec_cask (f : Sec → Sec) : (modSec f s).cask = s.cask := rfl
@[simp] theorem modSec_mmp (f : Sec → Sec) : (modSec f s).mmp = s.mmp := rfl
@[simp] theorem modSec_inj (f : Sec → Sec) : (modSec f s).inj = s.inj := rfl

@[simp] theorem modAon_pending (f : Aon → Aon) : (modAon f s).pending = s.pending := rfl
@[simp] theorem modAon_now (f : Aon → Aon) : (modAon f s).now = s.now := rfl
@[simp] theorem modAon_free (f : Aon → Aon) : (modAon f s).free = s.free := rfl
@[simp] theorem modAon_pw (f : Aon → Aon) : (modAon f s).pw = s.pw := rfl
@[simp] theorem modAon_aon (f : Aon → Aon) : (modAon f s).aon = f s.aon := rfl
@[simp] theorem modAon_ports (f : Aon → Aon) : (modAon f s).ports = s.ports := rfl
@[simp] theorem modAon_deferred (f : Aon → Aon) : (modAon f s).deferred = s.deferred := rfl
@[simp] theorem modAon_turn (f : Aon → Aon) : (modAon f s).turn = s.turn := rfl
@[simp] theorem modAon_grpJob (f : Aon → Aon) : (modAon f s).grpJob = s.grpJob := rfl
@[simp] theorem modAon_regJob (f : Aon → Aon) : (modAon f s).regJob = s.regJob := rfl
@[simp] theorem modAon_cfgJob (f : Aon → Aon) : (modAon f s).cfgJob = s.cfgJob := rfl
@[simp] theorem modAon_cfg (f : Aon → Aon) : (modAon f s).cfg = s.cfg := rfl
@[simp] theorem modAon_nv (f : Aon → Aon) : (modAon f s).nv = s.nv := rfl
@[simp] theorem modAon_taps (f : Aon → Aon) : (modAon f s).taps = s.taps := rfl
@[simp] theorem modAon_irq (f : Aon → Aon) : (modAon f s).irq = s.irq := rfl
@[simp] theorem modAon_flt (f : Aon → Aon) : (modAon f s).flt = s.flt := rfl
@[simp] theorem modAon_wd (f : Aon → Aon) : (modAon f s).wd = s.wd := rfl
@[simp] theorem modAon_trk (f : Aon → Aon) : (modAon f s).trk = s.trk := rfl
@[simp] theorem modAon_seq (f : Aon → Aon) : (modAon f s).seq = s.seq := rfl
@[simp] theorem modAon_mems (f : Aon → Aon) : (modAon f s).mems = s.mems := rfl
@[simp] theorem modAon_smp (f : Aon → Aon) : (modAon f s).smp = s.smp := rfl
@[simp] theorem modAon_mirrors (f : Aon → Aon) : (modAon f s).mirrors = s.mirrors := rfl
@[simp] theorem modAon_links (f : Aon → Aon) : (modAon f s).links = s.links := rfl
@[simp] theorem modAon_fields (f : Aon → Aon) : (modAon f s).fields = s.fields := rfl
@[simp] theorem modAon_gov (f : Aon → Aon) : (modAon f s).gov = s.gov := rfl
@[simp] theorem modAon_cal (f : Aon → Aon) : (modAon f s).cal = s.cal := rfl
@[simp] theorem modAon_mi (f : Aon → Aon) : (modAon f s).mi = s.mi := rfl
@[simp] theorem modAon_sec (f : Aon → Aon) : (modAon f s).sec = s.sec := rfl
@[simp] theorem modAon_cask (f : Aon → Aon) : (modAon f s).cask = s.cask := rfl
@[simp] theorem modAon_mmp (f : Aon → Aon) : (modAon f s).mmp = s.mmp := rfl
@[simp] theorem modAon_inj (f : Aon → Aon) : (modAon f s).inj = s.inj := rfl

@[simp] theorem modCal_pending (f : Cal → Cal) : (modCal f s).pending = s.pending := rfl
@[simp] theorem modCal_now (f : Cal → Cal) : (modCal f s).now = s.now := rfl
@[simp] theorem modCal_free (f : Cal → Cal) : (modCal f s).free = s.free := rfl
@[simp] theorem modCal_pw (f : Cal → Cal) : (modCal f s).pw = s.pw := rfl
@[simp] theorem modCal_aon (f : Cal → Cal) : (modCal f s).aon = s.aon := rfl
@[simp] theorem modCal_ports (f : Cal → Cal) : (modCal f s).ports = s.ports := rfl
@[simp] theorem modCal_deferred (f : Cal → Cal) : (modCal f s).deferred = s.deferred := rfl
@[simp] theorem modCal_turn (f : Cal → Cal) : (modCal f s).turn = s.turn := rfl
@[simp] theorem modCal_grpJob (f : Cal → Cal) : (modCal f s).grpJob = s.grpJob := rfl
@[simp] theorem modCal_regJob (f : Cal → Cal) : (modCal f s).regJob = s.regJob := rfl
@[simp] theorem modCal_cfgJob (f : Cal → Cal) : (modCal f s).cfgJob = s.cfgJob := rfl
@[simp] theorem modCal_cfg (f : Cal → Cal) : (modCal f s).cfg = s.cfg := rfl
@[simp] theorem modCal_nv (f : Cal → Cal) : (modCal f s).nv = s.nv := rfl
@[simp] theorem modCal_taps (f : Cal → Cal) : (modCal f s).taps = s.taps := rfl
@[simp] theorem modCal_irq (f : Cal → Cal) : (modCal f s).irq = s.irq := rfl
@[simp] theorem modCal_flt (f : Cal → Cal) : (modCal f s).flt = s.flt := rfl
@[simp] theorem modCal_wd (f : Cal → Cal) : (modCal f s).wd = s.wd := rfl
@[simp] theorem modCal_trk (f : Cal → Cal) : (modCal f s).trk = s.trk := rfl
@[simp] theorem modCal_seq (f : Cal → Cal) : (modCal f s).seq = s.seq := rfl
@[simp] theorem modCal_mems (f : Cal → Cal) : (modCal f s).mems = s.mems := rfl
@[simp] theorem modCal_smp (f : Cal → Cal) : (modCal f s).smp = s.smp := rfl
@[simp] theorem modCal_mirrors (f : Cal → Cal) : (modCal f s).mirrors = s.mirrors := rfl
@[simp] theorem modCal_links (f : Cal → Cal) : (modCal f s).links = s.links := rfl
@[simp] theorem modCal_fields (f : Cal → Cal) : (modCal f s).fields = s.fields := rfl
@[simp] theorem modCal_gov (f : Cal → Cal) : (modCal f s).gov = s.gov := rfl
@[simp] theorem modCal_cal (f : Cal → Cal) : (modCal f s).cal = f s.cal := rfl
@[simp] theorem modCal_mi (f : Cal → Cal) : (modCal f s).mi = s.mi := rfl
@[simp] theorem modCal_sec (f : Cal → Cal) : (modCal f s).sec = s.sec := rfl
@[simp] theorem modCal_cask (f : Cal → Cal) : (modCal f s).cask = s.cask := rfl
@[simp] theorem modCal_mmp (f : Cal → Cal) : (modCal f s).mmp = s.mmp := rfl
@[simp] theorem modCal_inj (f : Cal → Cal) : (modCal f s).inj = s.inj := rfl

@[simp] theorem modMmp_pending (f : Mmp → Mmp) : (modMmp f s).pending = s.pending := rfl
@[simp] theorem modMmp_now (f : Mmp → Mmp) : (modMmp f s).now = s.now := rfl
@[simp] theorem modMmp_free (f : Mmp → Mmp) : (modMmp f s).free = s.free := rfl
@[simp] theorem modMmp_pw (f : Mmp → Mmp) : (modMmp f s).pw = s.pw := rfl
@[simp] theorem modMmp_aon (f : Mmp → Mmp) : (modMmp f s).aon = s.aon := rfl
@[simp] theorem modMmp_ports (f : Mmp → Mmp) : (modMmp f s).ports = s.ports := rfl
@[simp] theorem modMmp_deferred (f : Mmp → Mmp) : (modMmp f s).deferred = s.deferred := rfl
@[simp] theorem modMmp_turn (f : Mmp → Mmp) : (modMmp f s).turn = s.turn := rfl
@[simp] theorem modMmp_grpJob (f : Mmp → Mmp) : (modMmp f s).grpJob = s.grpJob := rfl
@[simp] theorem modMmp_regJob (f : Mmp → Mmp) : (modMmp f s).regJob = s.regJob := rfl
@[simp] theorem modMmp_cfgJob (f : Mmp → Mmp) : (modMmp f s).cfgJob = s.cfgJob := rfl
@[simp] theorem modMmp_cfg (f : Mmp → Mmp) : (modMmp f s).cfg = s.cfg := rfl
@[simp] theorem modMmp_nv (f : Mmp → Mmp) : (modMmp f s).nv = s.nv := rfl
@[simp] theorem modMmp_taps (f : Mmp → Mmp) : (modMmp f s).taps = s.taps := rfl
@[simp] theorem modMmp_irq (f : Mmp → Mmp) : (modMmp f s).irq = s.irq := rfl
@[simp] theorem modMmp_flt (f : Mmp → Mmp) : (modMmp f s).flt = s.flt := rfl
@[simp] theorem modMmp_wd (f : Mmp → Mmp) : (modMmp f s).wd = s.wd := rfl
@[simp] theorem modMmp_trk (f : Mmp → Mmp) : (modMmp f s).trk = s.trk := rfl
@[simp] theorem modMmp_seq (f : Mmp → Mmp) : (modMmp f s).seq = s.seq := rfl
@[simp] theorem modMmp_mems (f : Mmp → Mmp) : (modMmp f s).mems = s.mems := rfl
@[simp] theorem modMmp_smp (f : Mmp → Mmp) : (modMmp f s).smp = s.smp := rfl
@[simp] theorem modMmp_mirrors (f : Mmp → Mmp) : (modMmp f s).mirrors = s.mirrors := rfl
@[simp] theorem modMmp_links (f : Mmp → Mmp) : (modMmp f s).links = s.links := rfl
@[simp] theorem modMmp_fields (f : Mmp → Mmp) : (modMmp f s).fields = s.fields := rfl
@[simp] theorem modMmp_gov (f : Mmp → Mmp) : (modMmp f s).gov = s.gov := rfl
@[simp] theorem modMmp_cal (f : Mmp → Mmp) : (modMmp f s).cal = s.cal := rfl
@[simp] theorem modMmp_mi (f : Mmp → Mmp) : (modMmp f s).mi = s.mi := rfl
@[simp] theorem modMmp_sec (f : Mmp → Mmp) : (modMmp f s).sec = s.sec := rfl
@[simp] theorem modMmp_cask (f : Mmp → Mmp) : (modMmp f s).cask = s.cask := rfl
@[simp] theorem modMmp_mmp (f : Mmp → Mmp) : (modMmp f s).mmp = f s.mmp := rfl
@[simp] theorem modMmp_inj (f : Mmp → Mmp) : (modMmp f s).inj = s.inj := rfl

@[simp] theorem modGov_pending (f : Gov → Gov) : (modGov f s).pending = s.pending := rfl
@[simp] theorem modGov_now (f : Gov → Gov) : (modGov f s).now = s.now := rfl
@[simp] theorem modGov_free (f : Gov → Gov) : (modGov f s).free = s.free := rfl
@[simp] theorem modGov_pw (f : Gov → Gov) : (modGov f s).pw = s.pw := rfl
@[simp] theorem modGov_aon (f : Gov → Gov) : (modGov f s).aon = s.aon := rfl
@[simp] theorem modGov_ports (f : Gov → Gov) : (modGov f s).ports = s.ports := rfl
@[simp] theorem modGov_deferred (f : Gov → Gov) : (modGov f s).deferred = s.deferred := rfl
@[simp] theorem modGov_turn (f : Gov → Gov) : (modGov f s).turn = s.turn := rfl
@[simp] theorem modGov_grpJob (f : Gov → Gov) : (modGov f s).grpJob = s.grpJob := rfl
@[simp] theorem modGov_regJob (f : Gov → Gov) : (modGov f s).regJob = s.regJob := rfl
@[simp] theorem modGov_cfgJob (f : Gov → Gov) : (modGov f s).cfgJob = s.cfgJob := rfl
@[simp] theorem modGov_cfg (f : Gov → Gov) : (modGov f s).cfg = s.cfg := rfl
@[simp] theorem modGov_nv (f : Gov → Gov) : (modGov f s).nv = s.nv := rfl
@[simp] theorem modGov_taps (f : Gov → Gov) : (modGov f s).taps = s.taps := rfl
@[simp] theorem modGov_irq (f : Gov → Gov) : (modGov f s).irq = s.irq := rfl
@[simp] theorem modGov_flt (f : Gov → Gov) : (modGov f s).flt = s.flt := rfl
@[simp] theorem modGov_wd (f : Gov → Gov) : (modGov f s).wd = s.wd := rfl
@[simp] theorem modGov_trk (f : Gov → Gov) : (modGov f s).trk = s.trk := rfl
@[simp] theorem modGov_seq (f : Gov → Gov) : (modGov f s).seq = s.seq := rfl
@[simp] theorem modGov_mems (f : Gov → Gov) : (modGov f s).mems = s.mems := rfl
@[simp] theorem modGov_smp (f : Gov → Gov) : (modGov f s).smp = s.smp := rfl
@[simp] theorem modGov_mirrors (f : Gov → Gov) : (modGov f s).mirrors = s.mirrors := rfl
@[simp] theorem modGov_links (f : Gov → Gov) : (modGov f s).links = s.links := rfl
@[simp] theorem modGov_fields (f : Gov → Gov) : (modGov f s).fields = s.fields := rfl
@[simp] theorem modGov_gov (f : Gov → Gov) : (modGov f s).gov = f s.gov := rfl
@[simp] theorem modGov_cal (f : Gov → Gov) : (modGov f s).cal = s.cal := rfl
@[simp] theorem modGov_mi (f : Gov → Gov) : (modGov f s).mi = s.mi := rfl
@[simp] theorem modGov_sec (f : Gov → Gov) : (modGov f s).sec = s.sec := rfl
@[simp] theorem modGov_cask (f : Gov → Gov) : (modGov f s).cask = s.cask := rfl
@[simp] theorem modGov_mmp (f : Gov → Gov) : (modGov f s).mmp = s.mmp := rfl
@[simp] theorem modGov_inj (f : Gov → Gov) : (modGov f s).inj = s.inj := rfl

@[simp] theorem modInj_pending (f : Inj → Inj) : (modInj f s).pending = s.pending := rfl
@[simp] theorem modInj_now (f : Inj → Inj) : (modInj f s).now = s.now := rfl
@[simp] theorem modInj_free (f : Inj → Inj) : (modInj f s).free = s.free := rfl
@[simp] theorem modInj_pw (f : Inj → Inj) : (modInj f s).pw = s.pw := rfl
@[simp] theorem modInj_aon (f : Inj → Inj) : (modInj f s).aon = s.aon := rfl
@[simp] theorem modInj_ports (f : Inj → Inj) : (modInj f s).ports = s.ports := rfl
@[simp] theorem modInj_deferred (f : Inj → Inj) : (modInj f s).deferred = s.deferred := rfl
@[simp] theorem modInj_turn (f : Inj → Inj) : (modInj f s).turn = s.turn := rfl
@[simp] theorem modInj_grpJob (f : Inj → Inj) : (modInj f s).grpJob = s.grpJob := rfl
@[simp] theorem modInj_regJob (f : Inj → Inj) : (modInj f s).regJob = s.regJob := rfl
@[simp] theorem modInj_cfgJob (f : Inj → Inj) : (modInj f s).cfgJob = s.cfgJob := rfl
@[simp] theorem modInj_cfg (f : Inj → Inj) : (modInj f s).cfg = s.cfg := rfl
@[simp] theorem modInj_nv (f : Inj → Inj) : (modInj f s).nv = s.nv := rfl
@[simp] theorem modInj_taps (f : Inj → Inj) : (modInj f s).taps = s.taps := rfl
@[simp] theorem modInj_irq (f : Inj → Inj) : (modInj f s).irq = s.irq := rfl
@[simp] theorem modInj_flt (f : Inj → Inj) : (modInj f s).flt = s.flt := rfl
@[simp] theorem modInj_wd (f : Inj → Inj) : (modInj f s).wd = s.wd := rfl
@[simp] theorem modInj_trk (f : Inj → Inj) : (modInj f s).trk = s.trk := rfl
@[simp] theorem modInj_seq (f : Inj → Inj) : (modInj f s).seq = s.seq := rfl
@[simp] theorem modInj_mems (f : Inj → Inj) : (modInj f s).mems = s.mems := rfl
@[simp] theorem modInj_smp (f : Inj → Inj) : (modInj f s).smp = s.smp := rfl
@[simp] theorem modInj_mirrors (f : Inj → Inj) : (modInj f s).mirrors = s.mirrors := rfl
@[simp] theorem modInj_links (f : Inj → Inj) : (modInj f s).links = s.links := rfl
@[simp] theorem modInj_fields (f : Inj → Inj) : (modInj f s).fields = s.fields := rfl
@[simp] theorem modInj_gov (f : Inj → Inj) : (modInj f s).gov = s.gov := rfl
@[simp] theorem modInj_cal (f : Inj → Inj) : (modInj f s).cal = s.cal := rfl
@[simp] theorem modInj_mi (f : Inj → Inj) : (modInj f s).mi = s.mi := rfl
@[simp] theorem modInj_sec (f : Inj → Inj) : (modInj f s).sec = s.sec := rfl
@[simp] theorem modInj_cask (f : Inj → Inj) : (modInj f s).cask = s.cask := rfl
@[simp] theorem modInj_mmp (f : Inj → Inj) : (modInj f s).mmp = s.mmp := rfl
@[simp] theorem modInj_inj (f : Inj → Inj) : (modInj f s).inj = f s.inj := rfl

@[simp] theorem modMi_pending (f : Mi → Mi) : (modMi f s).pending = s.pending := rfl
@[simp] theorem modMi_now (f : Mi → Mi) : (modMi f s).now = s.now := rfl
@[simp] theorem modMi_free (f : Mi → Mi) : (modMi f s).free = s.free := rfl
@[simp] theorem modMi_pw (f : Mi → Mi) : (modMi f s).pw = s.pw := rfl
@[simp] theorem modMi_aon (f : Mi → Mi) : (modMi f s).aon = s.aon := rfl
@[simp] theorem modMi_ports (f : Mi → Mi) : (modMi f s).ports = s.ports := rfl
@[simp] theorem modMi_deferred (f : Mi → Mi) : (modMi f s).deferred = s.deferred := rfl
@[simp] theorem modMi_turn (f : Mi → Mi) : (modMi f s).turn = s.turn := rfl
@[simp] theorem modMi_grpJob (f : Mi → Mi) : (modMi f s).grpJob = s.grpJob := rfl
@[simp] theorem modMi_regJob (f : Mi → Mi) : (modMi f s).regJob = s.regJob := rfl
@[simp] theorem modMi_cfgJob (f : Mi → Mi) : (modMi f s).cfgJob = s.cfgJob := rfl
@[simp] theorem modMi_cfg (f : Mi → Mi) : (modMi f s).cfg = s.cfg := rfl
@[simp] theorem modMi_nv (f : Mi → Mi) : (modMi f s).nv = s.nv := rfl
@[simp] theorem modMi_taps (f : Mi → Mi) : (modMi f s).taps = s.taps := rfl
@[simp] theorem modMi_irq (f : Mi → Mi) : (modMi f s).irq = s.irq := rfl
@[simp] theorem modMi_flt (f : Mi → Mi) : (modMi f s).flt = s.flt := rfl
@[simp] theorem modMi_wd (f : Mi → Mi) : (modMi f s).wd = s.wd := rfl
@[simp] theorem modMi_trk (f : Mi → Mi) : (modMi f s).trk = s.trk := rfl
@[simp] theorem modMi_seq (f : Mi → Mi) : (modMi f s).seq = s.seq := rfl
@[simp] theorem modMi_mems (f : Mi → Mi) : (modMi f s).mems = s.mems := rfl
@[simp] theorem modMi_smp (f : Mi → Mi) : (modMi f s).smp = s.smp := rfl
@[simp] theorem modMi_mirrors (f : Mi → Mi) : (modMi f s).mirrors = s.mirrors := rfl
@[simp] theorem modMi_links (f : Mi → Mi) : (modMi f s).links = s.links := rfl
@[simp] theorem modMi_fields (f : Mi → Mi) : (modMi f s).fields = s.fields := rfl
@[simp] theorem modMi_gov (f : Mi → Mi) : (modMi f s).gov = s.gov := rfl
@[simp] theorem modMi_cal (f : Mi → Mi) : (modMi f s).cal = s.cal := rfl
@[simp] theorem modMi_mi (f : Mi → Mi) : (modMi f s).mi = f s.mi := rfl
@[simp] theorem modMi_sec (f : Mi → Mi) : (modMi f s).sec = s.sec := rfl
@[simp] theorem modMi_cask (f : Mi → Mi) : (modMi f s).cask = s.cask := rfl
@[simp] theorem modMi_mmp (f : Mi → Mi) : (modMi f s).mmp = s.mmp := rfl
@[simp] theorem modMi_inj (f : Mi → Mi) : (modMi f s).inj = s.inj := rfl

@[simp] theorem modFlt_pending (f : Faults → Faults) : (modFlt f s).pending = s.pending := rfl
@[simp] theorem modFlt_now (f : Faults → Faults) : (modFlt f s).now = s.now := rfl
@[simp] theorem modFlt_free (f : Faults → Faults) : (modFlt f s).free = s.free := rfl
@[simp] theorem modFlt_pw (f : Faults → Faults) : (modFlt f s).pw = s.pw := rfl
@[simp] theorem modFlt_aon (f : Faults → Faults) : (modFlt f s).aon = s.aon := rfl
@[simp] theorem modFlt_ports (f : Faults → Faults) : (modFlt f s).ports = s.ports := rfl
@[simp] theorem modFlt_deferred (f : Faults → Faults) : (modFlt f s).deferred = s.deferred := rfl
@[simp] theorem modFlt_turn (f : Faults → Faults) : (modFlt f s).turn = s.turn := rfl
@[simp] theorem modFlt_grpJob (f : Faults → Faults) : (modFlt f s).grpJob = s.grpJob := rfl
@[simp] theorem modFlt_regJob (f : Faults → Faults) : (modFlt f s).regJob = s.regJob := rfl
@[simp] theorem modFlt_cfgJob (f : Faults → Faults) : (modFlt f s).cfgJob = s.cfgJob := rfl
@[simp] theorem modFlt_cfg (f : Faults → Faults) : (modFlt f s).cfg = s.cfg := rfl
@[simp] theorem modFlt_nv (f : Faults → Faults) : (modFlt f s).nv = s.nv := rfl
@[simp] theorem modFlt_taps (f : Faults → Faults) : (modFlt f s).taps = s.taps := rfl
@[simp] theorem modFlt_irq (f : Faults → Faults) : (modFlt f s).irq = s.irq := rfl
@[simp] theorem modFlt_flt (f : Faults → Faults) : (modFlt f s).flt = f s.flt := rfl
@[simp] theorem modFlt_wd (f : Faults → Faults) : (modFlt f s).wd = s.wd := rfl
@[simp] theorem modFlt_trk (f : Faults → Faults) : (modFlt f s).trk = s.trk := rfl
@[simp] theorem modFlt_seq (f : Faults → Faults) : (modFlt f s).seq = s.seq := rfl
@[simp] theorem modFlt_mems (f : Faults → Faults) : (modFlt f s).mems = s.mems := rfl
@[simp] theorem modFlt_smp (f : Faults → Faults) : (modFlt f s).smp = s.smp := rfl
@[simp] theorem modFlt_mirrors (f : Faults → Faults) : (modFlt f s).mirrors = s.mirrors := rfl
@[simp] theorem modFlt_links (f : Faults → Faults) : (modFlt f s).links = s.links := rfl
@[simp] theorem modFlt_fields (f : Faults → Faults) : (modFlt f s).fields = s.fields := rfl
@[simp] theorem modFlt_gov (f : Faults → Faults) : (modFlt f s).gov = s.gov := rfl
@[simp] theorem modFlt_cal (f : Faults → Faults) : (modFlt f s).cal = s.cal := rfl
@[simp] theorem modFlt_mi (f : Faults → Faults) : (modFlt f s).mi = s.mi := rfl
@[simp] theorem modFlt_sec (f : Faults → Faults) : (modFlt f s).sec = s.sec := rfl
@[simp] theorem modFlt_cask (f : Faults → Faults) : (modFlt f s).cask = s.cask := rfl
@[simp] theorem modFlt_mmp (f : Faults → Faults) : (modFlt f s).mmp = s.mmp := rfl
@[simp] theorem modFlt_inj (f : Faults → Faults) : (modFlt f s).inj = s.inj := rfl

@[simp] theorem modCask_pending (f : Cask → Cask) : (modCask f s).pending = s.pending := rfl
@[simp] theorem modCask_now (f : Cask → Cask) : (modCask f s).now = s.now := rfl
@[simp] theorem modCask_free (f : Cask → Cask) : (modCask f s).free = s.free := rfl
@[simp] theorem modCask_pw (f : Cask → Cask) : (modCask f s).pw = s.pw := rfl
@[simp] theorem modCask_aon (f : Cask → Cask) : (modCask f s).aon = s.aon := rfl
@[simp] theorem modCask_ports (f : Cask → Cask) : (modCask f s).ports = s.ports := rfl
@[simp] theorem modCask_deferred (f : Cask → Cask) : (modCask f s).deferred = s.deferred := rfl
@[simp] theorem modCask_turn (f : Cask → Cask) : (modCask f s).turn = s.turn := rfl
@[simp] theorem modCask_grpJob (f : Cask → Cask) : (modCask f s).grpJob = s.grpJob := rfl
@[simp] theorem modCask_regJob (f : Cask → Cask) : (modCask f s).regJob = s.regJob := rfl
@[simp] theorem modCask_cfgJob (f : Cask → Cask) : (modCask f s).cfgJob = s.cfgJob := rfl
@[simp] theorem modCask_cfg (f : Cask → Cask) : (modCask f s).cfg = s.cfg := rfl
@[simp] theorem modCask_nv (f : Cask → Cask) : (modCask f s).nv = s.nv := rfl
@[simp] theorem modCask_taps (f : Cask → Cask) : (modCask f s).taps = s.taps := rfl
@[simp] theorem modCask_irq (f : Cask → Cask) : (modCask f s).irq = s.irq := rfl
@[simp] theorem modCask_flt (f : Cask → Cask) : (modCask f s).flt = s.flt := rfl
@[simp] theorem modCask_wd (f : Cask → Cask) : (modCask f s).wd = s.wd := rfl
@[simp] theorem modCask_trk (f : Cask → Cask) : (modCask f s).trk = s.trk := rfl
@[simp] theorem modCask_seq (f : Cask → Cask) : (modCask f s).seq = s.seq := rfl
@[simp] theorem modCask_mems (f : Cask → Cask) : (modCask f s).mems = s.mems := rfl
@[simp] theorem modCask_smp (f : Cask → Cask) : (modCask f s).smp = s.smp := rfl
@[simp] theorem modCask_mirrors (f : Cask → Cask) : (modCask f s).mirrors = s.mirrors := rfl
@[simp] theorem modCask_links (f : Cask → Cask) : (modCask f s).links = s.links := rfl
@[simp] theorem modCask_fields (f : Cask → Cask) : (modCask f s).fields = s.fields := rfl
@[simp] theorem modCask_gov (f : Cask → Cask) : (modCask f s).gov = s.gov := rfl
@[simp] theorem modCask_cal (f : Cask → Cask) : (modCask f s).cal = s.cal := rfl
@[simp] theorem modCask_mi (f : Cask → Cask) : (modCask f s).mi = s.mi := rfl
@[simp] theorem modCask_sec (f : Cask → Cask) : (modCask f s).sec = s.sec := rfl
@[simp] theorem modCask_cask (f : Cask → Cask) : (modCask f s).cask = f s.cask := rfl
@[simp] theorem modCask_mmp (f : Cask → Cask) : (modCask f s).mmp = s.mmp := rfl
@[simp] theorem modCask_inj (f : Cask → Cask) : (modCask f s).inj = s.inj := rfl

@[simp] theorem modSeq_pending (f : Seq → Seq) : (modSeq f s).pending = s.pending := rfl
@[simp] theorem modSeq_now (f : Seq → Seq) : (modSeq f s).now = s.now := rfl
@[simp] theorem modSeq_free (f : Seq → Seq) : (modSeq f s).free = s.free := rfl
@[simp] theorem modSeq_pw (f : Seq → Seq) : (modSeq f s).pw = s.pw := rfl
@[simp] theorem modSeq_aon (f : Seq → Seq) : (modSeq f s).aon = s.aon := rfl
@[simp] theorem modSeq_ports (f : Seq → Seq) : (modSeq f s).ports = s.ports := rfl
@[simp] theorem modSeq_deferred (f : Seq → Seq) : (modSeq f s).deferred = s.deferred := rfl
@[simp] theorem modSeq_turn (f : Seq → Seq) : (modSeq f s).turn = s.turn := rfl
@[simp] theorem modSeq_grpJob (f : Seq → Seq) : (modSeq f s).grpJob = s.grpJob := rfl
@[simp] theorem modSeq_regJob (f : Seq → Seq) : (modSeq f s).regJob = s.regJob := rfl
@[simp] theorem modSeq_cfgJob (f : Seq → Seq) : (modSeq f s).cfgJob = s.cfgJob := rfl
@[simp] theorem modSeq_cfg (f : Seq → Seq) : (modSeq f s).cfg = s.cfg := rfl
@[simp] theorem modSeq_nv (f : Seq → Seq) : (modSeq f s).nv = s.nv := rfl
@[simp] theorem modSeq_taps (f : Seq → Seq) : (modSeq f s).taps = s.taps := rfl
@[simp] theorem modSeq_irq (f : Seq → Seq) : (modSeq f s).irq = s.irq := rfl
@[simp] theorem modSeq_flt (f : Seq → Seq) : (modSeq f s).flt = s.flt := rfl
@[simp] theorem modSeq_wd (f : Seq → Seq) : (modSeq f s).wd = s.wd := rfl
@[simp] theorem modSeq_trk (f : Seq → Seq) : (modSeq f s).trk = s.trk := rfl
@[simp] theorem modSeq_seq (f : Seq → Seq) : (modSeq f s).seq = f s.seq := rfl
@[simp] theorem modSeq_mems (f : Seq → Seq) : (modSeq f s).mems = s.mems := rfl
@[simp] theorem modSeq_smp (f : Seq → Seq) : (modSeq f s).smp = s.smp := rfl
@[simp] theorem modSeq_mirrors (f : Seq → Seq) : (modSeq f s).mirrors = s.mirrors := rfl
@[simp] theorem modSeq_links (f : Seq → Seq) : (modSeq f s).links = s.links := rfl
@[simp] theorem modSeq_fields (f : Seq → Seq) : (modSeq f s).fields = s.fields := rfl
@[simp] theorem modSeq_gov (f : Seq → Seq) : (modSeq f s).gov = s.gov := rfl
@[simp] theorem modSeq_cal (f : Seq → Seq) : (modSeq f s).cal = s.cal := rfl
@[simp] theorem modSeq_mi (f : Seq → Seq) : (modSeq f s).mi = s.mi := rfl
@[simp] theorem modSeq_sec (f : Seq → Seq) : (modSeq f s).sec = s.sec := rfl
@[simp] theorem modSeq_cask (f : Seq → Seq) : (modSeq f s).cask = s.cask := rfl
@[simp] theorem modSeq_mmp (f : Seq → Seq) : (modSeq f s).mmp = s.mmp := rfl
@[simp] theorem modSeq_inj (f : Seq → Seq) : (modSeq f s).inj = s.inj := rfl

@[simp] theorem modTrk_pending (f : Tracker → Tracker) : (modTrk f s).pending = s.pending := rfl
@[simp] theorem modTrk_now (f : Tracker → Tracker) : (modTrk f s).now = s.now := rfl
@[simp] theorem modTrk_free (f : Tracker → Tracker) : (modTrk f s).free = s.free := rfl
@[simp] theorem modTrk_pw (f : Tracker → Tracker) : (modTrk f s).pw = s.pw := rfl
@[simp] theorem modTrk_aon (f : Tracker → Tracker) : (modTrk f s).aon = s.aon := rfl
@[simp] theorem modTrk_ports (f : Tracker → Tracker) : (modTrk f s).ports = s.ports := rfl
@[simp] theorem modTrk_deferred (f : Tracker → Tracker) : (modTrk f s).deferred = s.deferred := rfl
@[simp] theorem modTrk_turn (f : Tracker → Tracker) : (modTrk f s).turn = s.turn := rfl
@[simp] theorem modTrk_grpJob (f : Tracker → Tracker) : (modTrk f s).grpJob = s.grpJob := rfl
@[simp] theorem modTrk_regJob (f : Tracker → Tracker) : (modTrk f s).regJob = s.regJob := rfl
@[simp] theorem modTrk_cfgJob (f : Tracker → Tracker) : (modTrk f s).cfgJob = s.cfgJob := rfl
@[simp] theorem modTrk_cfg (f : Tracker → Tracker) : (modTrk f s).cfg = s.cfg := rfl
@[simp] theorem modTrk_nv (f : Tracker → Tracker) : (modTrk f s).nv = s.nv := rfl
@[simp] theorem modTrk_taps (f : Tracker → Tracker) : (modTrk f s).taps = s.taps := rfl
@[simp] theorem modTrk_irq (f : Tracker → Tracker) : (modTrk f s).irq = s.irq := rfl
@[simp] theorem modTrk_flt (f : Tracker → Tracker) : (modTrk f s).flt = s.flt := rfl
@[simp] theorem modTrk_wd (f : Tracker → Tracker) : (modTrk f s).wd = s.wd := rfl
@[simp] theorem modTrk_trk (f : Tracker → Tracker) : (modTrk f s).trk = f s.trk := rfl
@[simp] theorem modTrk_seq (f : Tracker → Tracker) : (modTrk f s).seq = s.seq := rfl
@[simp] theorem modTrk_mems (f : Tracker → Tracker) : (modTrk f s).mems = s.mems := rfl
@[simp] theorem modTrk_smp (f : Tracker → Tracker) : (modTrk f s).smp = s.smp := rfl
@[simp] theorem modTrk_mirrors (f : Tracker → Tracker) : (modTrk f s).mirrors = s.mirrors := rfl
@[simp] theorem modTrk_links (f : Tracker → Tracker) : (modTrk f s).links = s.links := rfl
@[simp] theorem modTrk_fields (f : Tracker → Tracker) : (modTrk f s).fields = s.fields := rfl
@[simp] theorem modTrk_gov (f : Tracker → Tracker) : (modTrk f s).gov = s.gov := rfl
@[simp] theorem modTrk_cal (f : Tracker → Tracker) : (modTrk f s).cal = s.cal := rfl
@[simp] theorem modTrk_mi (f : Tracker → Tracker) : (modTrk f s).mi = s.mi := rfl
@[simp] theorem modTrk_sec (f : Tracker → Tracker) : (modTrk f s).sec = s.sec := rfl
@[simp] theorem modTrk_cask (f : Tracker → Tracker) : (modTrk f s).cask = s.cask := rfl
@[simp] theorem modTrk_mmp (f : Tracker → Tracker) : (modTrk f s).mmp = s.mmp := rfl
@[simp] theorem modTrk_inj (f : Tracker → Tracker) : (modTrk f s).inj = s.inj := rfl

@[simp] theorem modSmp_pending (f : Smp → Smp) : (modSmp f s).pending = s.pending := rfl
@[simp] theorem modSmp_now (f : Smp → Smp) : (modSmp f s).now = s.now := rfl
@[simp] theorem modSmp_free (f : Smp → Smp) : (modSmp f s).free = s.free := rfl
@[simp] theorem modSmp_pw (f : Smp → Smp) : (modSmp f s).pw = s.pw := rfl
@[simp] theorem modSmp_aon (f : Smp → Smp) : (modSmp f s).aon = s.aon := rfl
@[simp] theorem modSmp_ports (f : Smp → Smp) : (modSmp f s).ports = s.ports := rfl
@[simp] theorem modSmp_deferred (f : Smp → Smp) : (modSmp f s).deferred = s.deferred := rfl
@[simp] theorem modSmp_turn (f : Smp → Smp) : (modSmp f s).turn = s.turn := rfl
@[simp] theorem modSmp_grpJob (f : Smp → Smp) : (modSmp f s).grpJob = s.grpJob := rfl
@[simp] theorem modSmp_regJob (f : Smp → Smp) : (modSmp f s).regJob = s.regJob := rfl
@[simp] theorem modSmp_cfgJob (f : Smp → Smp) : (modSmp f s).cfgJob = s.cfgJob := rfl
@[simp] theorem modSmp_cfg (f : Smp → Smp) : (modSmp f s).cfg = s.cfg := rfl
@[simp] theorem modSmp_nv (f : Smp → Smp) : (modSmp f s).nv = s.nv := rfl
@[simp] theorem modSmp_taps (f : Smp → Smp) : (modSmp f s).taps = s.taps := rfl
@[simp] theorem modSmp_irq (f : Smp → Smp) : (modSmp f s).irq = s.irq := rfl
@[simp] theorem modSmp_flt (f : Smp → Smp) : (modSmp f s).flt = s.flt := rfl
@[simp] theorem modSmp_wd (f : Smp → Smp) : (modSmp f s).wd = s.wd := rfl
@[simp] theorem modSmp_trk (f : Smp → Smp) : (modSmp f s).trk = s.trk := rfl
@[simp] theorem modSmp_seq (f : Smp → Smp) : (modSmp f s).seq = s.seq := rfl
@[simp] theorem modSmp_mems (f : Smp → Smp) : (modSmp f s).mems = s.mems := rfl
@[simp] theorem modSmp_smp (f : Smp → Smp) : (modSmp f s).smp = f s.smp := rfl
@[simp] theorem modSmp_mirrors (f : Smp → Smp) : (modSmp f s).mirrors = s.mirrors := rfl
@[simp] theorem modSmp_links (f : Smp → Smp) : (modSmp f s).links = s.links := rfl
@[simp] theorem modSmp_fields (f : Smp → Smp) : (modSmp f s).fields = s.fields := rfl
@[simp] theorem modSmp_gov (f : Smp → Smp) : (modSmp f s).gov = s.gov := rfl
@[simp] theorem modSmp_cal (f : Smp → Smp) : (modSmp f s).cal = s.cal := rfl
@[simp] theorem modSmp_mi (f : Smp → Smp) : (modSmp f s).mi = s.mi := rfl
@[simp] theorem modSmp_sec (f : Smp → Smp) : (modSmp f s).sec = s.sec := rfl
@[simp] theorem modSmp_cask (f : Smp → Smp) : (modSmp f s).cask = s.cask := rfl
@[simp] theorem modSmp_mmp (f : Smp → Smp) : (modSmp f s).mmp = s.mmp := rfl
@[simp] theorem modSmp_inj (f : Smp → Smp) : (modSmp f s).inj = s.inj := rfl

@[simp] theorem modWd_pending (f : Wdog → Wdog) : (modWd f s).pending = s.pending := rfl
@[simp] theorem modWd_now (f : Wdog → Wdog) : (modWd f s).now = s.now := rfl
@[simp] theorem modWd_free (f : Wdog → Wdog) : (modWd f s).free = s.free := rfl
@[simp] theorem modWd_pw (f : Wdog → Wdog) : (modWd f s).pw = s.pw := rfl
@[simp] theorem modWd_aon (f : Wdog → Wdog) : (modWd f s).aon = s.aon := rfl
@[simp] theorem modWd_ports (f : Wdog → Wdog) : (modWd f s).ports = s.ports := rfl
@[simp] theorem modWd_deferred (f : Wdog → Wdog) : (modWd f s).deferred = s.deferred := rfl
@[simp] theorem modWd_turn (f : Wdog → Wdog) : (modWd f s).turn = s.turn := rfl
@[simp] theorem modWd_grpJob (f : Wdog → Wdog) : (modWd f s).grpJob = s.grpJob := rfl
@[simp] theorem modWd_regJob (f : Wdog → Wdog) : (modWd f s).regJob = s.regJob := rfl
@[simp] theorem modWd_cfgJob (f : Wdog → Wdog) : (modWd f s).cfgJob = s.cfgJob := rfl
@[simp] theorem modWd_cfg (f : Wdog → Wdog) : (modWd f s).cfg = s.cfg := rfl
@[simp] theorem modWd_nv (f : Wdog → Wdog) : (modWd f s).nv = s.nv := rfl
@[simp] theorem modWd_taps (f : Wdog → Wdog) : (modWd f s).taps = s.taps := rfl
@[simp] theorem modWd_irq (f : Wdog → Wdog) : (modWd f s).irq = s.irq := rfl
@[simp] theorem modWd_flt (f : Wdog → Wdog) : (modWd f s).flt = s.flt := rfl
@[simp] theorem modWd_wd (f : Wdog → Wdog) : (modWd f s).wd = f s.wd := rfl
@[simp] theorem modWd_trk (f : Wdog → Wdog) : (modWd f s).trk = s.trk := rfl
@[simp] theorem modWd_seq (f : Wdog → Wdog) : (modWd f s).seq = s.seq := rfl
@[simp] theorem modWd_mems (f : Wdog → Wdog) : (modWd f s).mems = s.mems := rfl
@[simp] theorem modWd_smp (f : Wdog → Wdog) : (modWd f s).smp = s.smp := rfl
@[simp] theorem modWd_mirrors (f : Wdog → Wdog) : (modWd f s).mirrors = s.mirrors := rfl
@[simp] theorem modWd_links (f : Wdog → Wdog) : (modWd f s).links = s.links := rfl
@[simp] theorem modWd_fields (f : Wdog → Wdog) : (modWd f s).fields = s.fields := rfl
@[simp] theorem modWd_gov (f : Wdog → Wdog) : (modWd f s).gov = s.gov := rfl
@[simp] theorem modWd_cal (f : Wdog → Wdog) : (modWd f s).cal = s.cal := rfl
@[simp] theorem modWd_mi (f : Wdog → Wdog) : (modWd f s).mi = s.mi := rfl
@[simp] theorem modWd_sec (f : Wdog → Wdog) : (modWd f s).sec = s.sec := rfl
@[simp] theorem modWd_cask (f : Wdog → Wdog) : (modWd f s).cask = s.cask := rfl
@[simp] theorem modWd_mmp (f : Wdog → Wdog) : (modWd f s).mmp = s.mmp := rfl
@[simp] theorem modWd_inj (f : Wdog → Wdog) : (modWd f s).inj = s.inj := rfl

@[simp] theorem memClear_pending (m : Fin 16) : (memClear m s).pending = s.pending := rfl
@[simp] theorem memClear_now (m : Fin 16) : (memClear m s).now = s.now := rfl
@[simp] theorem memClear_free (m : Fin 16) : (memClear m s).free = s.free := rfl
@[simp] theorem memClear_pw (m : Fin 16) : (memClear m s).pw = s.pw := rfl
@[simp] theorem memClear_aon (m : Fin 16) : (memClear m s).aon = s.aon := rfl
@[simp] theorem memClear_ports (m : Fin 16) : (memClear m s).ports = s.ports := rfl
@[simp] theorem memClear_deferred (m : Fin 16) : (memClear m s).deferred = s.deferred := rfl
@[simp] theorem memClear_turn (m : Fin 16) : (memClear m s).turn = s.turn := rfl
@[simp] theorem memClear_grpJob (m : Fin 16) : (memClear m s).grpJob = s.grpJob := rfl
@[simp] theorem memClear_regJob (m : Fin 16) : (memClear m s).regJob = s.regJob := rfl
@[simp] theorem memClear_cfgJob (m : Fin 16) : (memClear m s).cfgJob = s.cfgJob := rfl
@[simp] theorem memClear_cfg (m : Fin 16) : (memClear m s).cfg = s.cfg := rfl
@[simp] theorem memClear_nv (m : Fin 16) : (memClear m s).nv = s.nv := rfl
@[simp] theorem memClear_taps (m : Fin 16) : (memClear m s).taps = s.taps := rfl
@[simp] theorem memClear_irq (m : Fin 16) : (memClear m s).irq = s.irq := rfl
@[simp] theorem memClear_flt (m : Fin 16) : (memClear m s).flt = s.flt := rfl
@[simp] theorem memClear_wd (m : Fin 16) : (memClear m s).wd = s.wd := rfl
@[simp] theorem memClear_trk (m : Fin 16) : (memClear m s).trk = s.trk := rfl
@[simp] theorem memClear_seq (m : Fin 16) : (memClear m s).seq = s.seq := rfl
@[simp] theorem memClear_mems (m : Fin 16) : (memClear m s).mems = s.mems.set m [] := rfl
@[simp] theorem memClear_smp (m : Fin 16) : (memClear m s).smp = s.smp := rfl
@[simp] theorem memClear_mirrors (m : Fin 16) : (memClear m s).mirrors = s.mirrors := rfl
@[simp] theorem memClear_links (m : Fin 16) : (memClear m s).links = s.links := rfl
@[simp] theorem memClear_fields (m : Fin 16) : (memClear m s).fields = s.fields := rfl
@[simp] theorem memClear_gov (m : Fin 16) : (memClear m s).gov = s.gov := rfl
@[simp] theorem memClear_cal (m : Fin 16) : (memClear m s).cal = s.cal := rfl
@[simp] theorem memClear_mi (m : Fin 16) : (memClear m s).mi = s.mi := rfl
@[simp] theorem memClear_sec (m : Fin 16) : (memClear m s).sec = s.sec := rfl
@[simp] theorem memClear_cask (m : Fin 16) : (memClear m s).cask = s.cask := rfl
@[simp] theorem memClear_mmp (m : Fin 16) : (memClear m s).mmp = s.mmp := rfl
@[simp] theorem memClear_inj (m : Fin 16) : (memClear m s).inj = s.inj := rfl

@[simp] theorem memSet_pending (m : Fin 16) (a : Nat) (c : Cell) : (memSet m a c s).pending = s.pending := rfl
@[simp] theorem memSet_now (m : Fin 16) (a : Nat) (c : Cell) : (memSet m a c s).now = s.now := rfl
@[simp] theorem memSet_free (m : Fin 16) (a : Nat) (c : Cell) : (memSet m a c s).free = s.free := rfl
@[simp] theorem memSet_pw (m : Fin 16) (a : Nat) (c : Cell) : (memSet m a c s).pw = s.pw := rfl
@[simp] theorem memSet_aon (m : Fin 16) (a : Nat) (c : Cell) : (memSet m a c s).aon = s.aon := rfl
@[simp] theorem memSet_ports (m : Fin 16) (a : Nat) (c : Cell) : (memSet m a c s).ports = s.ports := rfl
@[simp] theorem memSet_deferred (m : Fin 16) (a : Nat) (c : Cell) : (memSet m a c s).deferred = s.deferred := rfl
@[simp] theorem memSet_turn (m : Fin 16) (a : Nat) (c : Cell) : (memSet m a c s).turn = s.turn := rfl
@[simp] theorem memSet_grpJob (m : Fin 16) (a : Nat) (c : Cell) : (memSet m a c s).grpJob = s.grpJob := rfl
@[simp] theorem memSet_regJob (m : Fin 16) (a : Nat) (c : Cell) : (memSet m a c s).regJob = s.regJob := rfl
@[simp] theorem memSet_cfgJob (m : Fin 16) (a : Nat) (c : Cell) : (memSet m a c s).cfgJob = s.cfgJob := rfl
@[simp] theorem memSet_cfg (m : Fin 16) (a : Nat) (c : Cell) : (memSet m a c s).cfg = s.cfg := rfl
@[simp] theorem memSet_nv (m : Fin 16) (a : Nat) (c : Cell) : (memSet m a c s).nv = s.nv := rfl
@[simp] theorem memSet_taps (m : Fin 16) (a : Nat) (c : Cell) : (memSet m a c s).taps = s.taps := rfl
@[simp] theorem memSet_irq (m : Fin 16) (a : Nat) (c : Cell) : (memSet m a c s).irq = s.irq := rfl
@[simp] theorem memSet_flt (m : Fin 16) (a : Nat) (c : Cell) : (memSet m a c s).flt = s.flt := rfl
@[simp] theorem memSet_wd (m : Fin 16) (a : Nat) (c : Cell) : (memSet m a c s).wd = s.wd := rfl
@[simp] theorem memSet_trk (m : Fin 16) (a : Nat) (c : Cell) : (memSet m a c s).trk = s.trk := rfl
@[simp] theorem memSet_seq (m : Fin 16) (a : Nat) (c : Cell) : (memSet m a c s).seq = s.seq := rfl
@[simp] theorem memSet_mems (m : Fin 16) (a : Nat) (c : Cell) : (memSet m a c s).mems = vmod s.mems m (insertKey a c (c != 0)) := rfl
@[simp] theorem memSet_smp (m : Fin 16) (a : Nat) (c : Cell) : (memSet m a c s).smp = s.smp := rfl
@[simp] theorem memSet_mirrors (m : Fin 16) (a : Nat) (c : Cell) : (memSet m a c s).mirrors = s.mirrors := rfl
@[simp] theorem memSet_links (m : Fin 16) (a : Nat) (c : Cell) : (memSet m a c s).links = s.links := rfl
@[simp] theorem memSet_fields (m : Fin 16) (a : Nat) (c : Cell) : (memSet m a c s).fields = s.fields := rfl
@[simp] theorem memSet_gov (m : Fin 16) (a : Nat) (c : Cell) : (memSet m a c s).gov = s.gov := rfl
@[simp] theorem memSet_cal (m : Fin 16) (a : Nat) (c : Cell) : (memSet m a c s).cal = s.cal := rfl
@[simp] theorem memSet_mi (m : Fin 16) (a : Nat) (c : Cell) : (memSet m a c s).mi = s.mi := rfl
@[simp] theorem memSet_sec (m : Fin 16) (a : Nat) (c : Cell) : (memSet m a c s).sec = s.sec := rfl
@[simp] theorem memSet_cask (m : Fin 16) (a : Nat) (c : Cell) : (memSet m a c s).cask = s.cask := rfl
@[simp] theorem memSet_mmp (m : Fin 16) (a : Nat) (c : Cell) : (memSet m a c s).mmp = s.mmp := rfl
@[simp] theorem memSet_inj (m : Fin 16) (a : Nat) (c : Cell) : (memSet m a c s).inj = s.inj := rfl

@[simp] theorem modTap_pending (k : Fin 32) (f : Tap → Tap) : (modTap k f s).pending = s.pending := rfl
@[simp] theorem modTap_now (k : Fin 32) (f : Tap → Tap) : (modTap k f s).now = s.now := rfl
@[simp] theorem modTap_free (k : Fin 32) (f : Tap → Tap) : (modTap k f s).free = s.free := rfl
@[simp] theorem modTap_pw (k : Fin 32) (f : Tap → Tap) : (modTap k f s).pw = s.pw := rfl
@[simp] theorem modTap_aon (k : Fin 32) (f : Tap → Tap) : (modTap k f s).aon = s.aon := rfl
@[simp] theorem modTap_ports (k : Fin 32) (f : Tap → Tap) : (modTap k f s).ports = s.ports := rfl
@[simp] theorem modTap_deferred (k : Fin 32) (f : Tap → Tap) : (modTap k f s).deferred = s.deferred := rfl
@[simp] theorem modTap_turn (k : Fin 32) (f : Tap → Tap) : (modTap k f s).turn = s.turn := rfl
@[simp] theorem modTap_grpJob (k : Fin 32) (f : Tap → Tap) : (modTap k f s).grpJob = s.grpJob := rfl
@[simp] theorem modTap_regJob (k : Fin 32) (f : Tap → Tap) : (modTap k f s).regJob = s.regJob := rfl
@[simp] theorem modTap_cfgJob (k : Fin 32) (f : Tap → Tap) : (modTap k f s).cfgJob = s.cfgJob := rfl
@[simp] theorem modTap_cfg (k : Fin 32) (f : Tap → Tap) : (modTap k f s).cfg = s.cfg := rfl
@[simp] theorem modTap_nv (k : Fin 32) (f : Tap → Tap) : (modTap k f s).nv = s.nv := rfl
@[simp] theorem modTap_taps (k : Fin 32) (f : Tap → Tap) : (modTap k f s).taps = vmod s.taps k f := rfl
@[simp] theorem modTap_irq (k : Fin 32) (f : Tap → Tap) : (modTap k f s).irq = s.irq := rfl
@[simp] theorem modTap_flt (k : Fin 32) (f : Tap → Tap) : (modTap k f s).flt = s.flt := rfl
@[simp] theorem modTap_wd (k : Fin 32) (f : Tap → Tap) : (modTap k f s).wd = s.wd := rfl
@[simp] theorem modTap_trk (k : Fin 32) (f : Tap → Tap) : (modTap k f s).trk = s.trk := rfl
@[simp] theorem modTap_seq (k : Fin 32) (f : Tap → Tap) : (modTap k f s).seq = s.seq := rfl
@[simp] theorem modTap_mems (k : Fin 32) (f : Tap → Tap) : (modTap k f s).mems = s.mems := rfl
@[simp] theorem modTap_smp (k : Fin 32) (f : Tap → Tap) : (modTap k f s).smp = s.smp := rfl
@[simp] theorem modTap_mirrors (k : Fin 32) (f : Tap → Tap) : (modTap k f s).mirrors = s.mirrors := rfl
@[simp] theorem modTap_links (k : Fin 32) (f : Tap → Tap) : (modTap k f s).links = s.links := rfl
@[simp] theorem modTap_fields (k : Fin 32) (f : Tap → Tap) : (modTap k f s).fields = s.fields := rfl
@[simp] theorem modTap_gov (k : Fin 32) (f : Tap → Tap) : (modTap k f s).gov = s.gov := rfl
@[simp] theorem modTap_cal (k : Fin 32) (f : Tap → Tap) : (modTap k f s).cal = s.cal := rfl
@[simp] theorem modTap_mi (k : Fin 32) (f : Tap → Tap) : (modTap k f s).mi = s.mi := rfl
@[simp] theorem modTap_sec (k : Fin 32) (f : Tap → Tap) : (modTap k f s).sec = s.sec := rfl
@[simp] theorem modTap_cask (k : Fin 32) (f : Tap → Tap) : (modTap k f s).cask = s.cask := rfl
@[simp] theorem modTap_mmp (k : Fin 32) (f : Tap → Tap) : (modTap k f s).mmp = s.mmp := rfl
@[simp] theorem modTap_inj (k : Fin 32) (f : Tap → Tap) : (modTap k f s).inj = s.inj := rfl

@[simp] theorem modGrpJob_pending (f : GroupJob → GroupJob) : (modGrpJob f s).pending = s.pending := rfl
@[simp] theorem modGrpJob_now (f : GroupJob → GroupJob) : (modGrpJob f s).now = s.now := rfl
@[simp] theorem modGrpJob_free (f : GroupJob → GroupJob) : (modGrpJob f s).free = s.free := rfl
@[simp] theorem modGrpJob_pw (f : GroupJob → GroupJob) : (modGrpJob f s).pw = s.pw := rfl
@[simp] theorem modGrpJob_aon (f : GroupJob → GroupJob) : (modGrpJob f s).aon = s.aon := rfl
@[simp] theorem modGrpJob_ports (f : GroupJob → GroupJob) : (modGrpJob f s).ports = s.ports := rfl
@[simp] theorem modGrpJob_deferred (f : GroupJob → GroupJob) : (modGrpJob f s).deferred = s.deferred := rfl
@[simp] theorem modGrpJob_turn (f : GroupJob → GroupJob) : (modGrpJob f s).turn = s.turn := rfl
@[simp] theorem modGrpJob_grpJob (f : GroupJob → GroupJob) : (modGrpJob f s).grpJob = s.grpJob.map f := rfl
@[simp] theorem modGrpJob_regJob (f : GroupJob → GroupJob) : (modGrpJob f s).regJob = s.regJob := rfl
@[simp] theorem modGrpJob_cfgJob (f : GroupJob → GroupJob) : (modGrpJob f s).cfgJob = s.cfgJob := rfl
@[simp] theorem modGrpJob_cfg (f : GroupJob → GroupJob) : (modGrpJob f s).cfg = s.cfg := rfl
@[simp] theorem modGrpJob_nv (f : GroupJob → GroupJob) : (modGrpJob f s).nv = s.nv := rfl
@[simp] theorem modGrpJob_taps (f : GroupJob → GroupJob) : (modGrpJob f s).taps = s.taps := rfl
@[simp] theorem modGrpJob_irq (f : GroupJob → GroupJob) : (modGrpJob f s).irq = s.irq := rfl
@[simp] theorem modGrpJob_flt (f : GroupJob → GroupJob) : (modGrpJob f s).flt = s.flt := rfl
@[simp] theorem modGrpJob_wd (f : GroupJob → GroupJob) : (modGrpJob f s).wd = s.wd := rfl
@[simp] theorem modGrpJob_trk (f : GroupJob → GroupJob) : (modGrpJob f s).trk = s.trk := rfl
@[simp] theorem modGrpJob_seq (f : GroupJob → GroupJob) : (modGrpJob f s).seq = s.seq := rfl
@[simp] theorem modGrpJob_mems (f : GroupJob → GroupJob) : (modGrpJob f s).mems = s.mems := rfl
@[simp] theorem modGrpJob_smp (f : GroupJob → GroupJob) : (modGrpJob f s).smp = s.smp := rfl
@[simp] theorem modGrpJob_mirrors (f : GroupJob → GroupJob) : (modGrpJob f s).mirrors = s.mirrors := rfl
@[simp] theorem modGrpJob_links (f : GroupJob → GroupJob) : (modGrpJob f s).links = s.links := rfl
@[simp] theorem modGrpJob_fields (f : GroupJob → GroupJob) : (modGrpJob f s).fields = s.fields := rfl
@[simp] theorem modGrpJob_gov (f : GroupJob → GroupJob) : (modGrpJob f s).gov = s.gov := rfl
@[simp] theorem modGrpJob_cal (f : GroupJob → GroupJob) : (modGrpJob f s).cal = s.cal := rfl
@[simp] theorem modGrpJob_mi (f : GroupJob → GroupJob) : (modGrpJob f s).mi = s.mi := rfl
@[simp] theorem modGrpJob_sec (f : GroupJob → GroupJob) : (modGrpJob f s).sec = s.sec := rfl
@[simp] theorem modGrpJob_cask (f : GroupJob → GroupJob) : (modGrpJob f s).cask = s.cask := rfl
@[simp] theorem modGrpJob_mmp (f : GroupJob → GroupJob) : (modGrpJob f s).mmp = s.mmp := rfl
@[simp] theorem modGrpJob_inj (f : GroupJob → GroupJob) : (modGrpJob f s).inj = s.inj := rfl

@[simp] theorem reach_pending (t : Nat) : (reach t s).pending = s.pending := rfl
@[simp] theorem reach_now (t : Nat) : (reach t s).now = max s.now t := rfl
@[simp] theorem reach_free (t : Nat) : (reach t s).free = s.free := rfl
@[simp] theorem reach_pw (t : Nat) : (reach t s).pw = s.pw := rfl
@[simp] theorem reach_aon (t : Nat) : (reach t s).aon = s.aon := rfl
@[simp] theorem reach_ports (t : Nat) : (reach t s).ports = s.ports := rfl
@[simp] theorem reach_deferred (t : Nat) : (reach t s).deferred = s.deferred := rfl
@[simp] theorem reach_turn (t : Nat) : (reach t s).turn = s.turn := rfl
@[simp] theorem reach_grpJob (t : Nat) : (reach t s).grpJob = s.grpJob := rfl
@[simp] theorem reach_regJob (t : Nat) : (reach t s).regJob = s.regJob := rfl
@[simp] theorem reach_cfgJob (t : Nat) : (reach t s).cfgJob = s.cfgJob := rfl
@[simp] theorem reach_cfg (t : Nat) : (reach t s).cfg = s.cfg := rfl
@[simp] theorem reach_nv (t : Nat) : (reach t s).nv = s.nv := rfl
@[simp] theorem reach_taps (t : Nat) : (reach t s).taps = s.taps := rfl
@[simp] theorem reach_irq (t : Nat) : (reach t s).irq = s.irq := rfl
@[simp] theorem reach_flt (t : Nat) : (reach t s).flt = s.flt := rfl
@[simp] theorem reach_wd (t : Nat) : (reach t s).wd = s.wd := rfl
@[simp] theorem reach_trk (t : Nat) : (reach t s).trk = s.trk := rfl
@[simp] theorem reach_seq (t : Nat) : (reach t s).seq = s.seq := rfl
@[simp] theorem reach_mems (t : Nat) : (reach t s).mems = s.mems := rfl
@[simp] theorem reach_smp (t : Nat) : (reach t s).smp = s.smp := rfl
@[simp] theorem reach_mirrors (t : Nat) : (reach t s).mirrors = s.mirrors := rfl
@[simp] theorem reach_links (t : Nat) : (reach t s).links = s.links := rfl
@[simp] theorem reach_fields (t : Nat) : (reach t s).fields = s.fields := rfl
@[simp] theorem reach_gov (t : Nat) : (reach t s).gov = s.gov := rfl
@[simp] theorem reach_cal (t : Nat) : (reach t s).cal = s.cal := rfl
@[simp] theorem reach_mi (t : Nat) : (reach t s).mi = s.mi := rfl
@[simp] theorem reach_sec (t : Nat) : (reach t s).sec = s.sec := rfl
@[simp] theorem reach_cask (t : Nat) : (reach t s).cask = s.cask := rfl
@[simp] theorem reach_mmp (t : Nat) : (reach t s).mmp = s.mmp := rfl
@[simp] theorem reach_inj (t : Nat) : (reach t s).inj = s.inj := rfl

@[simp] theorem modPort_pending (p : Port) (f : PortSt → PortSt) : (modPort p f s).pending = s.pending := rfl
@[simp] theorem modPort_now (p : Port) (f : PortSt → PortSt) : (modPort p f s).now = s.now := rfl
@[simp] theorem modPort_free (p : Port) (f : PortSt → PortSt) : (modPort p f s).free = s.free := rfl
@[simp] theorem modPort_pw (p : Port) (f : PortSt → PortSt) : (modPort p f s).pw = s.pw := rfl
@[simp] theorem modPort_aon (p : Port) (f : PortSt → PortSt) : (modPort p f s).aon = s.aon := rfl
@[simp] theorem modPort_ports (p : Port) (f : PortSt → PortSt) : (modPort p f s).ports = vmod s.ports (pidx p) f := rfl
@[simp] theorem modPort_deferred (p : Port) (f : PortSt → PortSt) : (modPort p f s).deferred = s.deferred := rfl
@[simp] theorem modPort_turn (p : Port) (f : PortSt → PortSt) : (modPort p f s).turn = s.turn := rfl
@[simp] theorem modPort_grpJob (p : Port) (f : PortSt → PortSt) : (modPort p f s).grpJob = s.grpJob := rfl
@[simp] theorem modPort_regJob (p : Port) (f : PortSt → PortSt) : (modPort p f s).regJob = s.regJob := rfl
@[simp] theorem modPort_cfgJob (p : Port) (f : PortSt → PortSt) : (modPort p f s).cfgJob = s.cfgJob := rfl
@[simp] theorem modPort_cfg (p : Port) (f : PortSt → PortSt) : (modPort p f s).cfg = s.cfg := rfl
@[simp] theorem modPort_nv (p : Port) (f : PortSt → PortSt) : (modPort p f s).nv = s.nv := rfl
@[simp] theorem modPort_taps (p : Port) (f : PortSt → PortSt) : (modPort p f s).taps = s.taps := rfl
@[simp] theorem modPort_irq (p : Port) (f : PortSt → PortSt) : (modPort p f s).irq = s.irq := rfl
@[simp] theorem modPort_flt (p : Port) (f : PortSt → PortSt) : (modPort p f s).flt = s.flt := rfl
@[simp] theorem modPort_wd (p : Port) (f : PortSt → PortSt) : (modPort p f s).wd = s.wd := rfl
@[simp] theorem modPort_trk (p : Port) (f : PortSt → PortSt) : (modPort p f s).trk = s.trk := rfl
@[simp] theorem modPort_seq (p : Port) (f : PortSt → PortSt) : (modPort p f s).seq = s.seq := rfl
@[simp] theorem modPort_mems (p : Port) (f : PortSt → PortSt) : (modPort p f s).mems = s.mems := rfl
@[simp] theorem modPort_smp (p : Port) (f : PortSt → PortSt) : (modPort p f s).smp = s.smp := rfl
@[simp] theorem modPort_mirrors (p : Port) (f : PortSt → PortSt) : (modPort p f s).mirrors = s.mirrors := rfl
@[simp] theorem modPort_links (p : Port) (f : PortSt → PortSt) : (modPort p f s).links = s.links := rfl
@[simp] theorem modPort_fields (p : Port) (f : PortSt → PortSt) : (modPort p f s).fields = s.fields := rfl
@[simp] theorem modPort_gov (p : Port) (f : PortSt → PortSt) : (modPort p f s).gov = s.gov := rfl
@[simp] theorem modPort_cal (p : Port) (f : PortSt → PortSt) : (modPort p f s).cal = s.cal := rfl
@[simp] theorem modPort_mi (p : Port) (f : PortSt → PortSt) : (modPort p f s).mi = s.mi := rfl
@[simp] theorem modPort_sec (p : Port) (f : PortSt → PortSt) : (modPort p f s).sec = s.sec := rfl
@[simp] theorem modPort_cask (p : Port) (f : PortSt → PortSt) : (modPort p f s).cask = s.cask := rfl
@[simp] theorem modPort_mmp (p : Port) (f : PortSt → PortSt) : (modPort p f s).mmp = s.mmp := rfl
@[simp] theorem modPort_inj (p : Port) (f : PortSt → PortSt) : (modPort p f s).inj = s.inj := rfl

@[simp] theorem modLink_pending (g : Grp) (f : Link → Link) : (modLink g f s).pending = s.pending := rfl
@[simp] theorem modLink_now (g : Grp) (f : Link → Link) : (modLink g f s).now = s.now := rfl
@[simp] theorem modLink_free (g : Grp) (f : Link → Link) : (modLink g f s).free = s.free := rfl
@[simp] theorem modLink_pw (g : Grp) (f : Link → Link) : (modLink g f s).pw = s.pw := rfl
@[simp] theorem modLink_aon (g : Grp) (f : Link → Link) : (modLink g f s).aon = s.aon := rfl
@[simp] theorem modLink_ports (g : Grp) (f : Link → Link) : (modLink g f s).ports = s.ports := rfl
@[simp] theorem modLink_deferred (g : Grp) (f : Link → Link) : (modLink g f s).deferred = s.deferred := rfl
@[simp] theorem modLink_turn (g : Grp) (f : Link → Link) : (modLink g f s).turn = s.turn := rfl
@[simp] theorem modLink_grpJob (g : Grp) (f : Link → Link) : (modLink g f s).grpJob = s.grpJob := rfl
@[simp] theorem modLink_regJob (g : Grp) (f : Link → Link) : (modLink g f s).regJob = s.regJob := rfl
@[simp] theorem modLink_cfgJob (g : Grp) (f : Link → Link) : (modLink g f s).cfgJob = s.cfgJob := rfl
@[simp] theorem modLink_cfg (g : Grp) (f : Link → Link) : (modLink g f s).cfg = s.cfg := rfl
@[simp] theorem modLink_nv (g : Grp) (f : Link → Link) : (modLink g f s).nv = s.nv := rfl
@[simp] theorem modLink_taps (g : Grp) (f : Link → Link) : (modLink g f s).taps = s.taps := rfl
@[simp] theorem modLink_irq (g : Grp) (f : Link → Link) : (modLink g f s).irq = s.irq := rfl
@[simp] theorem modLink_flt (g : Grp) (f : Link → Link) : (modLink g f s).flt = s.flt := rfl
@[simp] theorem modLink_wd (g : Grp) (f : Link → Link) : (modLink g f s).wd = s.wd := rfl
@[simp] theorem modLink_trk (g : Grp) (f : Link → Link) : (modLink g f s).trk = s.trk := rfl
@[simp] theorem modLink_seq (g : Grp) (f : Link → Link) : (modLink g f s).seq = s.seq := rfl
@[simp] theorem modLink_mems (g : Grp) (f : Link → Link) : (modLink g f s).mems = s.mems := rfl
@[simp] theorem modLink_smp (g : Grp) (f : Link → Link) : (modLink g f s).smp = s.smp := rfl
@[simp] theorem modLink_mirrors (g : Grp) (f : Link → Link) : (modLink g f s).mirrors = s.mirrors := rfl
@[simp] theorem modLink_links (g : Grp) (f : Link → Link) : (modLink g f s).links = vmod s.links g f := rfl
@[simp] theorem modLink_fields (g : Grp) (f : Link → Link) : (modLink g f s).fields = s.fields := rfl
@[simp] theorem modLink_gov (g : Grp) (f : Link → Link) : (modLink g f s).gov = s.gov := rfl
@[simp] theorem modLink_cal (g : Grp) (f : Link → Link) : (modLink g f s).cal = s.cal := rfl
@[simp] theorem modLink_mi (g : Grp) (f : Link → Link) : (modLink g f s).mi = s.mi := rfl
@[simp] theorem modLink_sec (g : Grp) (f : Link → Link) : (modLink g f s).sec = s.sec := rfl
@[simp] theorem modLink_cask (g : Grp) (f : Link → Link) : (modLink g f s).cask = s.cask := rfl
@[simp] theorem modLink_mmp (g : Grp) (f : Link → Link) : (modLink g f s).mmp = s.mmp := rfl
@[simp] theorem modLink_inj (g : Grp) (f : Link → Link) : (modLink g f s).inj = s.inj := rfl

@[simp] theorem modField_pending (g : Grp) (f : Field → Field) : (modField g f s).pending = s.pending := rfl
@[simp] theorem modField_now (g : Grp) (f : Field → Field) : (modField g f s).now = s.now := rfl
@[simp] theorem modField_free (g : Grp) (f : Field → Field) : (modField g f s).free = s.free := rfl
@[simp] theorem modField_pw (g : Grp) (f : Field → Field) : (modField g f s).pw = s.pw := rfl
@[simp] theorem modField_aon (g : Grp) (f : Field → Field) : (modField g f s).aon = s.aon := rfl
@[simp] theorem modField_ports (g : Grp) (f : Field → Field) : (modField g f s).ports = s.ports := rfl
@[simp] theorem modField_deferred (g : Grp) (f : Field → Field) : (modField g f s).deferred = s.deferred := rfl
@[simp] theorem modField_turn (g : Grp) (f : Field → Field) : (modField g f s).turn = s.turn := rfl
@[simp] theorem modField_grpJob (g : Grp) (f : Field → Field) : (modField g f s).grpJob = s.grpJob := rfl
@[simp] theorem modField_regJob (g : Grp) (f : Field → Field) : (modField g f s).regJob = s.regJob := rfl
@[simp] theorem modField_cfgJob (g : Grp) (f : Field → Field) : (modField g f s).cfgJob = s.cfgJob := rfl
@[simp] theorem modField_cfg (g : Grp) (f : Field → Field) : (modField g f s).cfg = s.cfg := rfl
@[simp] theorem modField_nv (g : Grp) (f : Field → Field) : (modField g f s).nv = s.nv := rfl
@[simp] theorem modField_taps (g : Grp) (f : Field → Field) : (modField g f s).taps = s.taps := rfl
@[simp] theorem modField_irq (g : Grp) (f : Field → Field) : (modField g f s).irq = s.irq := rfl
@[simp] theorem modField_flt (g : Grp) (f : Field → Field) : (modField g f s).flt = s.flt := rfl
@[simp] theorem modField_wd (g : Grp) (f : Field → Field) : (modField g f s).wd = s.wd := rfl
@[simp] theorem modField_trk (g : Grp) (f : Field → Field) : (modField g f s).trk = s.trk := rfl
@[simp] theorem modField_seq (g : Grp) (f : Field → Field) : (modField g f s).seq = s.seq := rfl
@[simp] theorem modField_mems (g : Grp) (f : Field → Field) : (modField g f s).mems = s.mems := rfl
@[simp] theorem modField_smp (g : Grp) (f : Field → Field) : (modField g f s).smp = s.smp := rfl
@[simp] theorem modField_mirrors (g : Grp) (f : Field → Field) : (modField g f s).mirrors = s.mirrors := rfl
@[simp] theorem modField_links (g : Grp) (f : Field → Field) : (modField g f s).links = s.links := rfl
@[simp] theorem modField_fields (g : Grp) (f : Field → Field) : (modField g f s).fields = vmod s.fields g f := rfl
@[simp] theorem modField_gov (g : Grp) (f : Field → Field) : (modField g f s).gov = s.gov := rfl
@[simp] theorem modField_cal (g : Grp) (f : Field → Field) : (modField g f s).cal = s.cal := rfl
@[simp] theorem modField_mi (g : Grp) (f : Field → Field) : (modField g f s).mi = s.mi := rfl
@[simp] theorem modField_sec (g : Grp) (f : Field → Field) : (modField g f s).sec = s.sec := rfl
@[simp] theorem modField_cask (g : Grp) (f : Field → Field) : (modField g f s).cask = s.cask := rfl
@[simp] theorem modField_mmp (g : Grp) (f : Field → Field) : (modField g f s).mmp = s.mmp := rfl
@[simp] theorem modField_inj (g : Grp) (f : Field → Field) : (modField g f s).inj = s.inj := rfl

@[simp] theorem modSlice_pending (n : Chan) (f : Slice → Slice) : (modSlice n f s).pending = s.pending := rfl
@[simp] theorem modSlice_now (n : Chan) (f : Slice → Slice) : (modSlice n f s).now = s.now := rfl
@[simp] theorem modSlice_free (n : Chan) (f : Slice → Slice) : (modSlice n f s).free = s.free := rfl
@[simp] theorem modSlice_pw (n : Chan) (f : Slice → Slice) : (modSlice n f s).pw = s.pw := rfl
@[simp] theorem modSlice_aon (n : Chan) (f : Slice → Slice) : (modSlice n f s).aon = s.aon := rfl
@[simp] theorem modSlice_ports (n : Chan) (f : Slice → Slice) : (modSlice n f s).ports = s.ports := rfl
@[simp] theorem modSlice_deferred (n : Chan) (f : Slice → Slice) : (modSlice n f s).deferred = s.deferred := rfl
@[simp] theorem modSlice_turn (n : Chan) (f : Slice → Slice) : (modSlice n f s).turn = s.turn := rfl
@[simp] theorem modSlice_grpJob (n : Chan) (f : Slice → Slice) : (modSlice n f s).grpJob = s.grpJob := rfl
@[simp] theorem modSlice_regJob (n : Chan) (f : Slice → Slice) : (modSlice n f s).regJob = s.regJob := rfl
@[simp] theorem modSlice_cfgJob (n : Chan) (f : Slice → Slice) : (modSlice n f s).cfgJob = s.cfgJob := rfl
@[simp] theorem modSlice_cfg (n : Chan) (f : Slice → Slice) : (modSlice n f s).cfg = s.cfg := rfl
@[simp] theorem modSlice_nv (n : Chan) (f : Slice → Slice) : (modSlice n f s).nv = s.nv := rfl
@[simp] theorem modSlice_taps (n : Chan) (f : Slice → Slice) : (modSlice n f s).taps = s.taps := rfl
@[simp] theorem modSlice_irq (n : Chan) (f : Slice → Slice) : (modSlice n f s).irq = s.irq := rfl
@[simp] theorem modSlice_flt (n : Chan) (f : Slice → Slice) : (modSlice n f s).flt = s.flt := rfl
@[simp] theorem modSlice_wd (n : Chan) (f : Slice → Slice) : (modSlice n f s).wd = s.wd := rfl
@[simp] theorem modSlice_trk (n : Chan) (f : Slice → Slice) : (modSlice n f s).trk = s.trk := rfl
@[simp] theorem modSlice_seq (n : Chan) (f : Slice → Slice) : (modSlice n f s).seq = s.seq := rfl
@[simp] theorem modSlice_mems (n : Chan) (f : Slice → Slice) : (modSlice n f s).mems = s.mems := rfl
@[simp] theorem modSlice_smp (n : Chan) (f : Slice → Slice) : (modSlice n f s).smp = s.smp := rfl
@[simp] theorem modSlice_mirrors (n : Chan) (f : Slice → Slice) : (modSlice n f s).mirrors = s.mirrors := rfl
@[simp] theorem modSlice_links (n : Chan) (f : Slice → Slice) : (modSlice n f s).links = s.links := rfl
@[simp] theorem modSlice_fields (n : Chan) (f : Slice → Slice) : (modSlice n f s).fields = vmod s.fields (chanGrp n) fun d => { d with slices := vmod d.slices (chanLidx n) f } := rfl
@[simp] theorem modSlice_gov (n : Chan) (f : Slice → Slice) : (modSlice n f s).gov = s.gov := rfl
@[simp] theorem modSlice_cal (n : Chan) (f : Slice → Slice) : (modSlice n f s).cal = s.cal := rfl
@[simp] theorem modSlice_mi (n : Chan) (f : Slice → Slice) : (modSlice n f s).mi = s.mi := rfl
@[simp] theorem modSlice_sec (n : Chan) (f : Slice → Slice) : (modSlice n f s).sec = s.sec := rfl
@[simp] theorem modSlice_cask (n : Chan) (f : Slice → Slice) : (modSlice n f s).cask = s.cask := rfl
@[simp] theorem modSlice_mmp (n : Chan) (f : Slice → Slice) : (modSlice n f s).mmp = s.mmp := rfl
@[simp] theorem modSlice_inj (n : Chan) (f : Slice → Slice) : (modSlice n f s).inj = s.inj := rfl

@[simp] theorem modMir_pending (n : Chan) (f : Mirror → Mirror) : (modMir n f s).pending = s.pending := rfl
@[simp] theorem modMir_now (n : Chan) (f : Mirror → Mirror) : (modMir n f s).now = s.now := rfl
@[simp] theorem modMir_free (n : Chan) (f : Mirror → Mirror) : (modMir n f s).free = s.free := rfl
@[simp] theorem modMir_pw (n : Chan) (f : Mirror → Mirror) : (modMir n f s).pw = s.pw := rfl
@[simp] theorem modMir_aon (n : Chan) (f : Mirror → Mirror) : (modMir n f s).aon = s.aon := rfl
@[simp] theorem modMir_ports (n : Chan) (f : Mirror → Mirror) : (modMir n f s).ports = s.ports := rfl
@[simp] theorem modMir_deferred (n : Chan) (f : Mirror → Mirror) : (modMir n f s).deferred = s.deferred := rfl
@[simp] theorem modMir_turn (n : Chan) (f : Mirror → Mirror) : (modMir n f s).turn = s.turn := rfl
@[simp] theorem modMir_grpJob (n : Chan) (f : Mirror → Mirror) : (modMir n f s).grpJob = s.grpJob := rfl
@[simp] theorem modMir_regJob (n : Chan) (f : Mirror → Mirror) : (modMir n f s).regJob = s.regJob := rfl
@[simp] theorem modMir_cfgJob (n : Chan) (f : Mirror → Mirror) : (modMir n f s).cfgJob = s.cfgJob := rfl
@[simp] theorem modMir_cfg (n : Chan) (f : Mirror → Mirror) : (modMir n f s).cfg = s.cfg := rfl
@[simp] theorem modMir_nv (n : Chan) (f : Mirror → Mirror) : (modMir n f s).nv = s.nv := rfl
@[simp] theorem modMir_taps (n : Chan) (f : Mirror → Mirror) : (modMir n f s).taps = s.taps := rfl
@[simp] theorem modMir_irq (n : Chan) (f : Mirror → Mirror) : (modMir n f s).irq = s.irq := rfl
@[simp] theorem modMir_flt (n : Chan) (f : Mirror → Mirror) : (modMir n f s).flt = s.flt := rfl
@[simp] theorem modMir_wd (n : Chan) (f : Mirror → Mirror) : (modMir n f s).wd = s.wd := rfl
@[simp] theorem modMir_trk (n : Chan) (f : Mirror → Mirror) : (modMir n f s).trk = s.trk := rfl
@[simp] theorem modMir_seq (n : Chan) (f : Mirror → Mirror) : (modMir n f s).seq = s.seq := rfl
@[simp] theorem modMir_mems (n : Chan) (f : Mirror → Mirror) : (modMir n f s).mems = s.mems := rfl
@[simp] theorem modMir_smp (n : Chan) (f : Mirror → Mirror) : (modMir n f s).smp = s.smp := rfl
@[simp] theorem modMir_mirrors (n : Chan) (f : Mirror → Mirror) : (modMir n f s).mirrors = vmod s.mirrors n f := rfl
@[simp] theorem modMir_links (n : Chan) (f : Mirror → Mirror) : (modMir n f s).links = s.links := rfl
@[simp] theorem modMir_fields (n : Chan) (f : Mirror → Mirror) : (modMir n f s).fields = s.fields := rfl
@[simp] theorem modMir_gov (n : Chan) (f : Mirror → Mirror) : (modMir n f s).gov = s.gov := rfl
@[simp] theorem modMir_cal (n : Chan) (f : Mirror → Mirror) : (modMir n f s).cal = s.cal := rfl
@[simp] theorem modMir_mi (n : Chan) (f : Mirror → Mirror) : (modMir n f s).mi = s.mi := rfl
@[simp] theorem modMir_sec (n : Chan) (f : Mirror → Mirror) : (modMir n f s).sec = s.sec := rfl
@[simp] theorem modMir_cask (n : Chan) (f : Mirror → Mirror) : (modMir n f s).cask = s.cask := rfl
@[simp] theorem modMir_mmp (n : Chan) (f : Mirror → Mirror) : (modMir n f s).mmp = s.mmp := rfl
@[simp] theorem modMir_inj (n : Chan) (f : Mirror → Mirror) : (modMir n f s).inj = s.inj := rfl

@[simp] theorem modBank_pending (b : Fin 2) (f : Bank → Bank) : (modBank b f s).pending = s.pending := rfl
@[simp] theorem modBank_now (b : Fin 2) (f : Bank → Bank) : (modBank b f s).now = s.now := rfl
@[simp] theorem modBank_free (b : Fin 2) (f : Bank → Bank) : (modBank b f s).free = s.free := rfl
@[simp] theorem modBank_pw (b : Fin 2) (f : Bank → Bank) : (modBank b f s).pw = s.pw := rfl
@[simp] theorem modBank_aon (b : Fin 2) (f : Bank → Bank) : (modBank b f s).aon = s.aon := rfl
@[simp] theorem modBank_ports (b : Fin 2) (f : Bank → Bank) : (modBank b f s).ports = s.ports := rfl
@[simp] theorem modBank_deferred (b : Fin 2) (f : Bank → Bank) : (modBank b f s).deferred = s.deferred := rfl
@[simp] theorem modBank_turn (b : Fin 2) (f : Bank → Bank) : (modBank b f s).turn = s.turn := rfl
@[simp] theorem modBank_grpJob (b : Fin 2) (f : Bank → Bank) : (modBank b f s).grpJob = s.grpJob := rfl
@[simp] theorem modBank_regJob (b : Fin 2) (f : Bank → Bank) : (modBank b f s).regJob = s.regJob := rfl
@[simp] theorem modBank_cfgJob (b : Fin 2) (f : Bank → Bank) : (modBank b f s).cfgJob = s.cfgJob := rfl
@[simp] theorem modBank_cfg (b : Fin 2) (f : Bank → Bank) : (modBank b f s).cfg = s.cfg := rfl
@[simp] theorem modBank_nv (b : Fin 2) (f : Bank → Bank) : (modBank b f s).nv = s.nv := rfl
@[simp] theorem modBank_taps (b : Fin 2) (f : Bank → Bank) : (modBank b f s).taps = s.taps := rfl
@[simp] theorem modBank_irq (b : Fin 2) (f : Bank → Bank) : (modBank b f s).irq = s.irq := rfl
@[simp] theorem modBank_flt (b : Fin 2) (f : Bank → Bank) : (modBank b f s).flt = s.flt := rfl
@[simp] theorem modBank_wd (b : Fin 2) (f : Bank → Bank) : (modBank b f s).wd = s.wd := rfl
@[simp] theorem modBank_trk (b : Fin 2) (f : Bank → Bank) : (modBank b f s).trk = s.trk := rfl
@[simp] theorem modBank_seq (b : Fin 2) (f : Bank → Bank) : (modBank b f s).seq = { s.seq with banks := vmod s.seq.banks b f } := rfl
@[simp] theorem modBank_mems (b : Fin 2) (f : Bank → Bank) : (modBank b f s).mems = s.mems := rfl
@[simp] theorem modBank_smp (b : Fin 2) (f : Bank → Bank) : (modBank b f s).smp = s.smp := rfl
@[simp] theorem modBank_mirrors (b : Fin 2) (f : Bank → Bank) : (modBank b f s).mirrors = s.mirrors := rfl
@[simp] theorem modBank_links (b : Fin 2) (f : Bank → Bank) : (modBank b f s).links = s.links := rfl
@[simp] theorem modBank_fields (b : Fin 2) (f : Bank → Bank) : (modBank b f s).fields = s.fields := rfl
@[simp] theorem modBank_gov (b : Fin 2) (f : Bank → Bank) : (modBank b f s).gov = s.gov := rfl
@[simp] theorem modBank_cal (b : Fin 2) (f : Bank → Bank) : (modBank b f s).cal = s.cal := rfl
@[simp] theorem modBank_mi (b : Fin 2) (f : Bank → Bank) : (modBank b f s).mi = s.mi := rfl
@[simp] theorem modBank_sec (b : Fin 2) (f : Bank → Bank) : (modBank b f s).sec = s.sec := rfl
@[simp] theorem modBank_cask (b : Fin 2) (f : Bank → Bank) : (modBank b f s).cask = s.cask := rfl
@[simp] theorem modBank_mmp (b : Fin 2) (f : Bank → Bank) : (modBank b f s).mmp = s.mmp := rfl
@[simp] theorem modBank_inj (b : Fin 2) (f : Bank → Bank) : (modBank b f s).inj = s.inj := rfl

@[simp] theorem addDeferred_pending (d : Deferred) : (addDeferred d s).pending = s.pending := rfl
@[simp] theorem addDeferred_now (d : Deferred) : (addDeferred d s).now = s.now := rfl
@[simp] theorem addDeferred_free (d : Deferred) : (addDeferred d s).free = s.free := rfl
@[simp] theorem addDeferred_pw (d : Deferred) : (addDeferred d s).pw = s.pw := rfl
@[simp] theorem addDeferred_aon (d : Deferred) : (addDeferred d s).aon = s.aon := rfl
@[simp] theorem addDeferred_ports (d : Deferred) : (addDeferred d s).ports = s.ports := rfl
@[simp] theorem addDeferred_deferred (d : Deferred) : (addDeferred d s).deferred = s.deferred ++ [d] := rfl
@[simp] theorem addDeferred_turn (d : Deferred) : (addDeferred d s).turn = s.turn := rfl
@[simp] theorem addDeferred_grpJob (d : Deferred) : (addDeferred d s).grpJob = s.grpJob := rfl
@[simp] theorem addDeferred_regJob (d : Deferred) : (addDeferred d s).regJob = s.regJob := rfl
@[simp] theorem addDeferred_cfgJob (d : Deferred) : (addDeferred d s).cfgJob = s.cfgJob := rfl
@[simp] theorem addDeferred_cfg (d : Deferred) : (addDeferred d s).cfg = s.cfg := rfl
@[simp] theorem addDeferred_nv (d : Deferred) : (addDeferred d s).nv = s.nv := rfl
@[simp] theorem addDeferred_taps (d : Deferred) : (addDeferred d s).taps = s.taps := rfl
@[simp] theorem addDeferred_irq (d : Deferred) : (addDeferred d s).irq = s.irq := rfl
@[simp] theorem addDeferred_flt (d : Deferred) : (addDeferred d s).flt = s.flt := rfl
@[simp] theorem addDeferred_wd (d : Deferred) : (addDeferred d s).wd = s.wd := rfl
@[simp] theorem addDeferred_trk (d : Deferred) : (addDeferred d s).trk = s.trk := rfl
@[simp] theorem addDeferred_seq (d : Deferred) : (addDeferred d s).seq = s.seq := rfl
@[simp] theorem addDeferred_mems (d : Deferred) : (addDeferred d s).mems = s.mems := rfl
@[simp] theorem addDeferred_smp (d : Deferred) : (addDeferred d s).smp = s.smp := rfl
@[simp] theorem addDeferred_mirrors (d : Deferred) : (addDeferred d s).mirrors = s.mirrors := rfl
@[simp] theorem addDeferred_links (d : Deferred) : (addDeferred d s).links = s.links := rfl
@[simp] theorem addDeferred_fields (d : Deferred) : (addDeferred d s).fields = s.fields := rfl
@[simp] theorem addDeferred_gov (d : Deferred) : (addDeferred d s).gov = s.gov := rfl
@[simp] theorem addDeferred_cal (d : Deferred) : (addDeferred d s).cal = s.cal := rfl
@[simp] theorem addDeferred_mi (d : Deferred) : (addDeferred d s).mi = s.mi := rfl
@[simp] theorem addDeferred_sec (d : Deferred) : (addDeferred d s).sec = s.sec := rfl
@[simp] theorem addDeferred_cask (d : Deferred) : (addDeferred d s).cask = s.cask := rfl
@[simp] theorem addDeferred_mmp (d : Deferred) : (addDeferred d s).mmp = s.mmp := rfl
@[simp] theorem addDeferred_inj (d : Deferred) : (addDeferred d s).inj = s.inj := rfl

@[simp] theorem cfgSet_pending (r : Reg) (w : Word) : (cfgSet r w s).pending = s.pending := rfl
@[simp] theorem cfgSet_now (r : Reg) (w : Word) : (cfgSet r w s).now = s.now := rfl
@[simp] theorem cfgSet_free (r : Reg) (w : Word) : (cfgSet r w s).free = s.free := rfl
@[simp] theorem cfgSet_pw (r : Reg) (w : Word) : (cfgSet r w s).pw = s.pw := rfl
@[simp] theorem cfgSet_aon (r : Reg) (w : Word) : (cfgSet r w s).aon = s.aon := rfl
@[simp] theorem cfgSet_ports (r : Reg) (w : Word) : (cfgSet r w s).ports = s.ports := rfl
@[simp] theorem cfgSet_deferred (r : Reg) (w : Word) : (cfgSet r w s).deferred = s.deferred := rfl
@[simp] theorem cfgSet_turn (r : Reg) (w : Word) : (cfgSet r w s).turn = s.turn := rfl
@[simp] theorem cfgSet_grpJob (r : Reg) (w : Word) : (cfgSet r w s).grpJob = s.grpJob := rfl
@[simp] theorem cfgSet_regJob (r : Reg) (w : Word) : (cfgSet r w s).regJob = s.regJob := rfl
@[simp] theorem cfgSet_cfgJob (r : Reg) (w : Word) : (cfgSet r w s).cfgJob = s.cfgJob := rfl
@[simp] theorem cfgSet_cfg (r : Reg) (w : Word) : (cfgSet r w s).cfg = insertKey r.addr w (w != BitVec.ofNat 20 r.factory) s.cfg := rfl
@[simp] theorem cfgSet_nv (r : Reg) (w : Word) : (cfgSet r w s).nv = s.nv := rfl
@[simp] theorem cfgSet_taps (r : Reg) (w : Word) : (cfgSet r w s).taps = s.taps := rfl
@[simp] theorem cfgSet_irq (r : Reg) (w : Word) : (cfgSet r w s).irq = s.irq := rfl
@[simp] theorem cfgSet_flt (r : Reg) (w : Word) : (cfgSet r w s).flt = s.flt := rfl
@[simp] theorem cfgSet_wd (r : Reg) (w : Word) : (cfgSet r w s).wd = s.wd := rfl
@[simp] theorem cfgSet_trk (r : Reg) (w : Word) : (cfgSet r w s).trk = s.trk := rfl
@[simp] theorem cfgSet_seq (r : Reg) (w : Word) : (cfgSet r w s).seq = s.seq := rfl
@[simp] theorem cfgSet_mems (r : Reg) (w : Word) : (cfgSet r w s).mems = s.mems := rfl
@[simp] theorem cfgSet_smp (r : Reg) (w : Word) : (cfgSet r w s).smp = s.smp := rfl
@[simp] theorem cfgSet_mirrors (r : Reg) (w : Word) : (cfgSet r w s).mirrors = s.mirrors := rfl
@[simp] theorem cfgSet_links (r : Reg) (w : Word) : (cfgSet r w s).links = s.links := rfl
@[simp] theorem cfgSet_fields (r : Reg) (w : Word) : (cfgSet r w s).fields = s.fields := rfl
@[simp] theorem cfgSet_gov (r : Reg) (w : Word) : (cfgSet r w s).gov = s.gov := rfl
@[simp] theorem cfgSet_cal (r : Reg) (w : Word) : (cfgSet r w s).cal = s.cal := rfl
@[simp] theorem cfgSet_mi (r : Reg) (w : Word) : (cfgSet r w s).mi = s.mi := rfl
@[simp] theorem cfgSet_sec (r : Reg) (w : Word) : (cfgSet r w s).sec = s.sec := rfl
@[simp] theorem cfgSet_cask (r : Reg) (w : Word) : (cfgSet r w s).cask = s.cask := rfl
@[simp] theorem cfgSet_mmp (r : Reg) (w : Word) : (cfgSet r w s).mmp = s.mmp := rfl
@[simp] theorem cfgSet_inj (r : Reg) (w : Word) : (cfgSet r w s).inj = s.inj := rfl

@[simp] theorem setPend_pending (n : Fin 96) (b : Bool) : (setPend n b s).pending = s.pending := rfl
@[simp] theorem setPend_now (n : Fin 96) (b : Bool) : (setPend n b s).now = s.now := rfl
@[simp] theorem setPend_free (n : Fin 96) (b : Bool) : (setPend n b s).free = s.free := rfl
@[simp] theorem setPend_pw (n : Fin 96) (b : Bool) : (setPend n b s).pw = s.pw := rfl
@[simp] theorem setPend_aon (n : Fin 96) (b : Bool) : (setPend n b s).aon = s.aon := rfl
@[simp] theorem setPend_ports (n : Fin 96) (b : Bool) : (setPend n b s).ports = s.ports := rfl
@[simp] theorem setPend_deferred (n : Fin 96) (b : Bool) : (setPend n b s).deferred = s.deferred := rfl
@[simp] theorem setPend_turn (n : Fin 96) (b : Bool) : (setPend n b s).turn = s.turn := rfl
@[simp] theorem setPend_grpJob (n : Fin 96) (b : Bool) : (setPend n b s).grpJob = s.grpJob := rfl
@[simp] theorem setPend_regJob (n : Fin 96) (b : Bool) : (setPend n b s).regJob = s.regJob := rfl
@[simp] theorem setPend_cfgJob (n : Fin 96) (b : Bool) : (setPend n b s).cfgJob = s.cfgJob := rfl
@[simp] theorem setPend_cfg (n : Fin 96) (b : Bool) : (setPend n b s).cfg = s.cfg := rfl
@[simp] theorem setPend_nv (n : Fin 96) (b : Bool) : (setPend n b s).nv = s.nv := rfl
@[simp] theorem setPend_taps (n : Fin 96) (b : Bool) : (setPend n b s).taps = s.taps := rfl
@[simp] theorem setPend_irq (n : Fin 96) (b : Bool) : (setPend n b s).irq = { s.irq with pend := setBit s.irq.pend n.val b } := rfl
@[simp] theorem setPend_flt (n : Fin 96) (b : Bool) : (setPend n b s).flt = s.flt := rfl
@[simp] theorem setPend_wd (n : Fin 96) (b : Bool) : (setPend n b s).wd = s.wd := rfl
@[simp] theorem setPend_trk (n : Fin 96) (b : Bool) : (setPend n b s).trk = s.trk := rfl
@[simp] theorem setPend_seq (n : Fin 96) (b : Bool) : (setPend n b s).seq = s.seq := rfl
@[simp] theorem setPend_mems (n : Fin 96) (b : Bool) : (setPend n b s).mems = s.mems := rfl
@[simp] theorem setPend_smp (n : Fin 96) (b : Bool) : (setPend n b s).smp = s.smp := rfl
@[simp] theorem setPend_mirrors (n : Fin 96) (b : Bool) : (setPend n b s).mirrors = s.mirrors := rfl
@[simp] theorem setPend_links (n : Fin 96) (b : Bool) : (setPend n b s).links = s.links := rfl
@[simp] theorem setPend_fields (n : Fin 96) (b : Bool) : (setPend n b s).fields = s.fields := rfl
@[simp] theorem setPend_gov (n : Fin 96) (b : Bool) : (setPend n b s).gov = s.gov := rfl
@[simp] theorem setPend_cal (n : Fin 96) (b : Bool) : (setPend n b s).cal = s.cal := rfl
@[simp] theorem setPend_mi (n : Fin 96) (b : Bool) : (setPend n b s).mi = s.mi := rfl
@[simp] theorem setPend_sec (n : Fin 96) (b : Bool) : (setPend n b s).sec = s.sec := rfl
@[simp] theorem setPend_cask (n : Fin 96) (b : Bool) : (setPend n b s).cask = s.cask := rfl
@[simp] theorem setPend_mmp (n : Fin 96) (b : Bool) : (setPend n b s).mmp = s.mmp := rfl
@[simp] theorem setPend_inj (n : Fin 96) (b : Bool) : (setPend n b s).inj = s.inj := rfl

@[simp] theorem setReleased_pending (n : Fin 96) (b : Bool) : (setReleased n b s).pending = s.pending := rfl
@[simp] theorem setReleased_now (n : Fin 96) (b : Bool) : (setReleased n b s).now = s.now := rfl
@[simp] theorem setReleased_free (n : Fin 96) (b : Bool) : (setReleased n b s).free = s.free := rfl
@[simp] theorem setReleased_pw (n : Fin 96) (b : Bool) : (setReleased n b s).pw = s.pw := rfl
@[simp] theorem setReleased_aon (n : Fin 96) (b : Bool) : (setReleased n b s).aon = s.aon := rfl
@[simp] theorem setReleased_ports (n : Fin 96) (b : Bool) : (setReleased n b s).ports = s.ports := rfl
@[simp] theorem setReleased_deferred (n : Fin 96) (b : Bool) : (setReleased n b s).deferred = s.deferred := rfl
@[simp] theorem setReleased_turn (n : Fin 96) (b : Bool) : (setReleased n b s).turn = s.turn := rfl
@[simp] theorem setReleased_grpJob (n : Fin 96) (b : Bool) : (setReleased n b s).grpJob = s.grpJob := rfl
@[simp] theorem setReleased_regJob (n : Fin 96) (b : Bool) : (setReleased n b s).regJob = s.regJob := rfl
@[simp] theorem setReleased_cfgJob (n : Fin 96) (b : Bool) : (setReleased n b s).cfgJob = s.cfgJob := rfl
@[simp] theorem setReleased_cfg (n : Fin 96) (b : Bool) : (setReleased n b s).cfg = s.cfg := rfl
@[simp] theorem setReleased_nv (n : Fin 96) (b : Bool) : (setReleased n b s).nv = s.nv := rfl
@[simp] theorem setReleased_taps (n : Fin 96) (b : Bool) : (setReleased n b s).taps = s.taps := rfl
@[simp] theorem setReleased_irq (n : Fin 96) (b : Bool) : (setReleased n b s).irq = { s.irq with released := setBit s.irq.released n.val b } := rfl
@[simp] theorem setReleased_flt (n : Fin 96) (b : Bool) : (setReleased n b s).flt = s.flt := rfl
@[simp] theorem setReleased_wd (n : Fin 96) (b : Bool) : (setReleased n b s).wd = s.wd := rfl
@[simp] theorem setReleased_trk (n : Fin 96) (b : Bool) : (setReleased n b s).trk = s.trk := rfl
@[simp] theorem setReleased_seq (n : Fin 96) (b : Bool) : (setReleased n b s).seq = s.seq := rfl
@[simp] theorem setReleased_mems (n : Fin 96) (b : Bool) : (setReleased n b s).mems = s.mems := rfl
@[simp] theorem setReleased_smp (n : Fin 96) (b : Bool) : (setReleased n b s).smp = s.smp := rfl
@[simp] theorem setReleased_mirrors (n : Fin 96) (b : Bool) : (setReleased n b s).mirrors = s.mirrors := rfl
@[simp] theorem setReleased_links (n : Fin 96) (b : Bool) : (setReleased n b s).links = s.links := rfl
@[simp] theorem setReleased_fields (n : Fin 96) (b : Bool) : (setReleased n b s).fields = s.fields := rfl
@[simp] theorem setReleased_gov (n : Fin 96) (b : Bool) : (setReleased n b s).gov = s.gov := rfl
@[simp] theorem setReleased_cal (n : Fin 96) (b : Bool) : (setReleased n b s).cal = s.cal := rfl
@[simp] theorem setReleased_mi (n : Fin 96) (b : Bool) : (setReleased n b s).mi = s.mi := rfl
@[simp] theorem setReleased_sec (n : Fin 96) (b : Bool) : (setReleased n b s).sec = s.sec := rfl
@[simp] theorem setReleased_cask (n : Fin 96) (b : Bool) : (setReleased n b s).cask = s.cask := rfl
@[simp] theorem setReleased_mmp (n : Fin 96) (b : Bool) : (setReleased n b s).mmp = s.mmp := rfl
@[simp] theorem setReleased_inj (n : Fin 96) (b : Bool) : (setReleased n b s).inj = s.inj := rfl

@[simp] theorem setModr_pending (m : Fin 16) (x : Moderator) : (setModr m x s).pending = s.pending := rfl
@[simp] theorem setModr_now (m : Fin 16) (x : Moderator) : (setModr m x s).now = s.now := rfl
@[simp] theorem setModr_free (m : Fin 16) (x : Moderator) : (setModr m x s).free = s.free := rfl
@[simp] theorem setModr_pw (m : Fin 16) (x : Moderator) : (setModr m x s).pw = s.pw := rfl
@[simp] theorem setModr_aon (m : Fin 16) (x : Moderator) : (setModr m x s).aon = s.aon := rfl
@[simp] theorem setModr_ports (m : Fin 16) (x : Moderator) : (setModr m x s).ports = s.ports := rfl
@[simp] theorem setModr_deferred (m : Fin 16) (x : Moderator) : (setModr m x s).deferred = s.deferred := rfl
@[simp] theorem setModr_turn (m : Fin 16) (x : Moderator) : (setModr m x s).turn = s.turn := rfl
@[simp] theorem setModr_grpJob (m : Fin 16) (x : Moderator) : (setModr m x s).grpJob = s.grpJob := rfl
@[simp] theorem setModr_regJob (m : Fin 16) (x : Moderator) : (setModr m x s).regJob = s.regJob := rfl
@[simp] theorem setModr_cfgJob (m : Fin 16) (x : Moderator) : (setModr m x s).cfgJob = s.cfgJob := rfl
@[simp] theorem setModr_cfg (m : Fin 16) (x : Moderator) : (setModr m x s).cfg = s.cfg := rfl
@[simp] theorem setModr_nv (m : Fin 16) (x : Moderator) : (setModr m x s).nv = s.nv := rfl
@[simp] theorem setModr_taps (m : Fin 16) (x : Moderator) : (setModr m x s).taps = s.taps := rfl
@[simp] theorem setModr_irq (m : Fin 16) (x : Moderator) : (setModr m x s).irq = { s.irq with mods := s.irq.mods.set m x } := rfl
@[simp] theorem setModr_flt (m : Fin 16) (x : Moderator) : (setModr m x s).flt = s.flt := rfl
@[simp] theorem setModr_wd (m : Fin 16) (x : Moderator) : (setModr m x s).wd = s.wd := rfl
@[simp] theorem setModr_trk (m : Fin 16) (x : Moderator) : (setModr m x s).trk = s.trk := rfl
@[simp] theorem setModr_seq (m : Fin 16) (x : Moderator) : (setModr m x s).seq = s.seq := rfl
@[simp] theorem setModr_mems (m : Fin 16) (x : Moderator) : (setModr m x s).mems = s.mems := rfl
@[simp] theorem setModr_smp (m : Fin 16) (x : Moderator) : (setModr m x s).smp = s.smp := rfl
@[simp] theorem setModr_mirrors (m : Fin 16) (x : Moderator) : (setModr m x s).mirrors = s.mirrors := rfl
@[simp] theorem setModr_links (m : Fin 16) (x : Moderator) : (setModr m x s).links = s.links := rfl
@[simp] theorem setModr_fields (m : Fin 16) (x : Moderator) : (setModr m x s).fields = s.fields := rfl
@[simp] theorem setModr_gov (m : Fin 16) (x : Moderator) : (setModr m x s).gov = s.gov := rfl
@[simp] theorem setModr_cal (m : Fin 16) (x : Moderator) : (setModr m x s).cal = s.cal := rfl
@[simp] theorem setModr_mi (m : Fin 16) (x : Moderator) : (setModr m x s).mi = s.mi := rfl
@[simp] theorem setModr_sec (m : Fin 16) (x : Moderator) : (setModr m x s).sec = s.sec := rfl
@[simp] theorem setModr_cask (m : Fin 16) (x : Moderator) : (setModr m x s).cask = s.cask := rfl
@[simp] theorem setModr_mmp (m : Fin 16) (x : Moderator) : (setModr m x s).mmp = s.mmp := rfl
@[simp] theorem setModr_inj (m : Fin 16) (x : Moderator) : (setModr m x s).inj = s.inj := rfl

@[simp] theorem modIrq_pending (f : Irq → Irq) : (modIrq f s).pending = s.pending := rfl
@[simp] theorem modIrq_now (f : Irq → Irq) : (modIrq f s).now = s.now := rfl
@[simp] theorem modIrq_free (f : Irq → Irq) : (modIrq f s).free = s.free := rfl
@[simp] theorem modIrq_pw (f : Irq → Irq) : (modIrq f s).pw = s.pw := rfl
@[simp] theorem modIrq_aon (f : Irq → Irq) : (modIrq f s).aon = s.aon := rfl
@[simp] theorem modIrq_ports (f : Irq → Irq) : (modIrq f s).ports = s.ports := rfl
@[simp] theorem modIrq_deferred (f : Irq → Irq) : (modIrq f s).deferred = s.deferred := rfl
@[simp] theorem modIrq_turn (f : Irq → Irq) : (modIrq f s).turn = s.turn := rfl
@[simp] theorem modIrq_grpJob (f : Irq → Irq) : (modIrq f s).grpJob = s.grpJob := rfl
@[simp] theorem modIrq_regJob (f : Irq → Irq) : (modIrq f s).regJob = s.regJob := rfl
@[simp] theorem modIrq_cfgJob (f : Irq → Irq) : (modIrq f s).cfgJob = s.cfgJob := rfl
@[simp] theorem modIrq_cfg (f : Irq → Irq) : (modIrq f s).cfg = s.cfg := rfl
@[simp] theorem modIrq_nv (f : Irq → Irq) : (modIrq f s).nv = s.nv := rfl
@[simp] theorem modIrq_taps (f : Irq → Irq) : (modIrq f s).taps = s.taps := rfl
@[simp] theorem modIrq_irq (f : Irq → Irq) : (modIrq f s).irq = f s.irq := rfl
@[simp] theorem modIrq_flt (f : Irq → Irq) : (modIrq f s).flt = s.flt := rfl
@[simp] theorem modIrq_wd (f : Irq → Irq) : (modIrq f s).wd = s.wd := rfl
@[simp] theorem modIrq_trk (f : Irq → Irq) : (modIrq f s).trk = s.trk := rfl
@[simp] theorem modIrq_seq (f : Irq → Irq) : (modIrq f s).seq = s.seq := rfl
@[simp] theorem modIrq_mems (f : Irq → Irq) : (modIrq f s).mems = s.mems := rfl
@[simp] theorem modIrq_smp (f : Irq → Irq) : (modIrq f s).smp = s.smp := rfl
@[simp] theorem modIrq_mirrors (f : Irq → Irq) : (modIrq f s).mirrors = s.mirrors := rfl
@[simp] theorem modIrq_links (f : Irq → Irq) : (modIrq f s).links = s.links := rfl
@[simp] theorem modIrq_fields (f : Irq → Irq) : (modIrq f s).fields = s.fields := rfl
@[simp] theorem modIrq_gov (f : Irq → Irq) : (modIrq f s).gov = s.gov := rfl
@[simp] theorem modIrq_cal (f : Irq → Irq) : (modIrq f s).cal = s.cal := rfl
@[simp] theorem modIrq_mi (f : Irq → Irq) : (modIrq f s).mi = s.mi := rfl
@[simp] theorem modIrq_sec (f : Irq → Irq) : (modIrq f s).sec = s.sec := rfl
@[simp] theorem modIrq_cask (f : Irq → Irq) : (modIrq f s).cask = s.cask := rfl
@[simp] theorem modIrq_mmp (f : Irq → Irq) : (modIrq f s).mmp = s.mmp := rfl
@[simp] theorem modIrq_inj (f : Irq → Irq) : (modIrq f s).inj = s.inj := rfl

@[simp] theorem modMems_pending (f : Vector Mem 16 → Vector Mem 16) : (modMems f s).pending = s.pending := rfl
@[simp] theorem modMems_now (f : Vector Mem 16 → Vector Mem 16) : (modMems f s).now = s.now := rfl
@[simp] theorem modMems_free (f : Vector Mem 16 → Vector Mem 16) : (modMems f s).free = s.free := rfl
@[simp] theorem modMems_pw (f : Vector Mem 16 → Vector Mem 16) : (modMems f s).pw = s.pw := rfl
@[simp] theorem modMems_aon (f : Vector Mem 16 → Vector Mem 16) : (modMems f s).aon = s.aon := rfl
@[simp] theorem modMems_ports (f : Vector Mem 16 → Vector Mem 16) : (modMems f s).ports = s.ports := rfl
@[simp] theorem modMems_deferred (f : Vector Mem 16 → Vector Mem 16) : (modMems f s).deferred = s.deferred := rfl
@[simp] theorem modMems_turn (f : Vector Mem 16 → Vector Mem 16) : (modMems f s).turn = s.turn := rfl
@[simp] theorem modMems_grpJob (f : Vector Mem 16 → Vector Mem 16) : (modMems f s).grpJob = s.grpJob := rfl
@[simp] theorem modMems_regJob (f : Vector Mem 16 → Vector Mem 16) : (modMems f s).regJob = s.regJob := rfl
@[simp] theorem modMems_cfgJob (f : Vector Mem 16 → Vector Mem 16) : (modMems f s).cfgJob = s.cfgJob := rfl
@[simp] theorem modMems_cfg (f : Vector Mem 16 → Vector Mem 16) : (modMems f s).cfg = s.cfg := rfl
@[simp] theorem modMems_nv (f : Vector Mem 16 → Vector Mem 16) : (modMems f s).nv = s.nv := rfl
@[simp] theorem modMems_taps (f : Vector Mem 16 → Vector Mem 16) : (modMems f s).taps = s.taps := rfl
@[simp] theorem modMems_irq (f : Vector Mem 16 → Vector Mem 16) : (modMems f s).irq = s.irq := rfl
@[simp] theorem modMems_flt (f : Vector Mem 16 → Vector Mem 16) : (modMems f s).flt = s.flt := rfl
@[simp] theorem modMems_wd (f : Vector Mem 16 → Vector Mem 16) : (modMems f s).wd = s.wd := rfl
@[simp] theorem modMems_trk (f : Vector Mem 16 → Vector Mem 16) : (modMems f s).trk = s.trk := rfl
@[simp] theorem modMems_seq (f : Vector Mem 16 → Vector Mem 16) : (modMems f s).seq = s.seq := rfl
@[simp] theorem modMems_mems (f : Vector Mem 16 → Vector Mem 16) : (modMems f s).mems = f s.mems := rfl
@[simp] theorem modMems_smp (f : Vector Mem 16 → Vector Mem 16) : (modMems f s).smp = s.smp := rfl
@[simp] theorem modMems_mirrors (f : Vector Mem 16 → Vector Mem 16) : (modMems f s).mirrors = s.mirrors := rfl
@[simp] theorem modMems_links (f : Vector Mem 16 → Vector Mem 16) : (modMems f s).links = s.links := rfl
@[simp] theorem modMems_fields (f : Vector Mem 16 → Vector Mem 16) : (modMems f s).fields = s.fields := rfl
@[simp] theorem modMems_gov (f : Vector Mem 16 → Vector Mem 16) : (modMems f s).gov = s.gov := rfl
@[simp] theorem modMems_cal (f : Vector Mem 16 → Vector Mem 16) : (modMems f s).cal = s.cal := rfl
@[simp] theorem modMems_mi (f : Vector Mem 16 → Vector Mem 16) : (modMems f s).mi = s.mi := rfl
@[simp] theorem modMems_sec (f : Vector Mem 16 → Vector Mem 16) : (modMems f s).sec = s.sec := rfl
@[simp] theorem modMems_cask (f : Vector Mem 16 → Vector Mem 16) : (modMems f s).cask = s.cask := rfl
@[simp] theorem modMems_mmp (f : Vector Mem 16 → Vector Mem 16) : (modMems f s).mmp = s.mmp := rfl
@[simp] theorem modMems_inj (f : Vector Mem 16 → Vector Mem 16) : (modMems f s).inj = s.inj := rfl

@[simp] theorem modPorts_pending (f : PortSt → PortSt) : (modPorts f s).pending = s.pending := rfl
@[simp] theorem modPorts_now (f : PortSt → PortSt) : (modPorts f s).now = s.now := rfl
@[simp] theorem modPorts_free (f : PortSt → PortSt) : (modPorts f s).free = s.free := rfl
@[simp] theorem modPorts_pw (f : PortSt → PortSt) : (modPorts f s).pw = s.pw := rfl
@[simp] theorem modPorts_aon (f : PortSt → PortSt) : (modPorts f s).aon = s.aon := rfl
@[simp] theorem modPorts_ports (f : PortSt → PortSt) : (modPorts f s).ports = s.ports.map f := rfl
@[simp] theorem modPorts_deferred (f : PortSt → PortSt) : (modPorts f s).deferred = s.deferred := rfl
@[simp] theorem modPorts_turn (f : PortSt → PortSt) : (modPorts f s).turn = s.turn := rfl
@[simp] theorem modPorts_grpJob (f : PortSt → PortSt) : (modPorts f s).grpJob = s.grpJob := rfl
@[simp] theorem modPorts_regJob (f : PortSt → PortSt) : (modPorts f s).regJob = s.regJob := rfl
@[simp] theorem modPorts_cfgJob (f : PortSt → PortSt) : (modPorts f s).cfgJob = s.cfgJob := rfl
@[simp] theorem modPorts_cfg (f : PortSt → PortSt) : (modPorts f s).cfg = s.cfg := rfl
@[simp] theorem modPorts_nv (f : PortSt → PortSt) : (modPorts f s).nv = s.nv := rfl
@[simp] theorem modPorts_taps (f : PortSt → PortSt) : (modPorts f s).taps = s.taps := rfl
@[simp] theorem modPorts_irq (f : PortSt → PortSt) : (modPorts f s).irq = s.irq := rfl
@[simp] theorem modPorts_flt (f : PortSt → PortSt) : (modPorts f s).flt = s.flt := rfl
@[simp] theorem modPorts_wd (f : PortSt → PortSt) : (modPorts f s).wd = s.wd := rfl
@[simp] theorem modPorts_trk (f : PortSt → PortSt) : (modPorts f s).trk = s.trk := rfl
@[simp] theorem modPorts_seq (f : PortSt → PortSt) : (modPorts f s).seq = s.seq := rfl
@[simp] theorem modPorts_mems (f : PortSt → PortSt) : (modPorts f s).mems = s.mems := rfl
@[simp] theorem modPorts_smp (f : PortSt → PortSt) : (modPorts f s).smp = s.smp := rfl
@[simp] theorem modPorts_mirrors (f : PortSt → PortSt) : (modPorts f s).mirrors = s.mirrors := rfl
@[simp] theorem modPorts_links (f : PortSt → PortSt) : (modPorts f s).links = s.links := rfl
@[simp] theorem modPorts_fields (f : PortSt → PortSt) : (modPorts f s).fields = s.fields := rfl
@[simp] theorem modPorts_gov (f : PortSt → PortSt) : (modPorts f s).gov = s.gov := rfl
@[simp] theorem modPorts_cal (f : PortSt → PortSt) : (modPorts f s).cal = s.cal := rfl
@[simp] theorem modPorts_mi (f : PortSt → PortSt) : (modPorts f s).mi = s.mi := rfl
@[simp] theorem modPorts_sec (f : PortSt → PortSt) : (modPorts f s).sec = s.sec := rfl
@[simp] theorem modPorts_cask (f : PortSt → PortSt) : (modPorts f s).cask = s.cask := rfl
@[simp] theorem modPorts_mmp (f : PortSt → PortSt) : (modPorts f s).mmp = s.mmp := rfl
@[simp] theorem modPorts_inj (f : PortSt → PortSt) : (modPorts f s).inj = s.inj := rfl

@[simp] theorem modLinks_pending (f : Link → Link) : (modLinks f s).pending = s.pending := rfl
@[simp] theorem modLinks_now (f : Link → Link) : (modLinks f s).now = s.now := rfl
@[simp] theorem modLinks_free (f : Link → Link) : (modLinks f s).free = s.free := rfl
@[simp] theorem modLinks_pw (f : Link → Link) : (modLinks f s).pw = s.pw := rfl
@[simp] theorem modLinks_aon (f : Link → Link) : (modLinks f s).aon = s.aon := rfl
@[simp] theorem modLinks_ports (f : Link → Link) : (modLinks f s).ports = s.ports := rfl
@[simp] theorem modLinks_deferred (f : Link → Link) : (modLinks f s).deferred = s.deferred := rfl
@[simp] theorem modLinks_turn (f : Link → Link) : (modLinks f s).turn = s.turn := rfl
@[simp] theorem modLinks_grpJob (f : Link → Link) : (modLinks f s).grpJob = s.grpJob := rfl
@[simp] theorem modLinks_regJob (f : Link → Link) : (modLinks f s).regJob = s.regJob := rfl
@[simp] theorem modLinks_cfgJob (f : Link → Link) : (modLinks f s).cfgJob = s.cfgJob := rfl
@[simp] theorem modLinks_cfg (f : Link → Link) : (modLinks f s).cfg = s.cfg := rfl
@[simp] theorem modLinks_nv (f : Link → Link) : (modLinks f s).nv = s.nv := rfl
@[simp] theorem modLinks_taps (f : Link → Link) : (modLinks f s).taps = s.taps := rfl
@[simp] theorem modLinks_irq (f : Link → Link) : (modLinks f s).irq = s.irq := rfl
@[simp] theorem modLinks_flt (f : Link → Link) : (modLinks f s).flt = s.flt := rfl
@[simp] theorem modLinks_wd (f : Link → Link) : (modLinks f s).wd = s.wd := rfl
@[simp] theorem modLinks_trk (f : Link → Link) : (modLinks f s).trk = s.trk := rfl
@[simp] theorem modLinks_seq (f : Link → Link) : (modLinks f s).seq = s.seq := rfl
@[simp] theorem modLinks_mems (f : Link → Link) : (modLinks f s).mems = s.mems := rfl
@[simp] theorem modLinks_smp (f : Link → Link) : (modLinks f s).smp = s.smp := rfl
@[simp] theorem modLinks_mirrors (f : Link → Link) : (modLinks f s).mirrors = s.mirrors := rfl
@[simp] theorem modLinks_links (f : Link → Link) : (modLinks f s).links = s.links.map f := rfl
@[simp] theorem modLinks_fields (f : Link → Link) : (modLinks f s).fields = s.fields := rfl
@[simp] theorem modLinks_gov (f : Link → Link) : (modLinks f s).gov = s.gov := rfl
@[simp] theorem modLinks_cal (f : Link → Link) : (modLinks f s).cal = s.cal := rfl
@[simp] theorem modLinks_mi (f : Link → Link) : (modLinks f s).mi = s.mi := rfl
@[simp] theorem modLinks_sec (f : Link → Link) : (modLinks f s).sec = s.sec := rfl
@[simp] theorem modLinks_cask (f : Link → Link) : (modLinks f s).cask = s.cask := rfl
@[simp] theorem modLinks_mmp (f : Link → Link) : (modLinks f s).mmp = s.mmp := rfl
@[simp] theorem modLinks_inj (f : Link → Link) : (modLinks f s).inj = s.inj := rfl

@[simp] theorem modTaps_pending (f : Tap → Tap) : (modTaps f s).pending = s.pending := rfl
@[simp] theorem modTaps_now (f : Tap → Tap) : (modTaps f s).now = s.now := rfl
@[simp] theorem modTaps_free (f : Tap → Tap) : (modTaps f s).free = s.free := rfl
@[simp] theorem modTaps_pw (f : Tap → Tap) : (modTaps f s).pw = s.pw := rfl
@[simp] theorem modTaps_aon (f : Tap → Tap) : (modTaps f s).aon = s.aon := rfl
@[simp] theorem modTaps_ports (f : Tap → Tap) : (modTaps f s).ports = s.ports := rfl
@[simp] theorem modTaps_deferred (f : Tap → Tap) : (modTaps f s).deferred = s.deferred := rfl
@[simp] theorem modTaps_turn (f : Tap → Tap) : (modTaps f s).turn = s.turn := rfl
@[simp] theorem modTaps_grpJob (f : Tap → Tap) : (modTaps f s).grpJob = s.grpJob := rfl
@[simp] theorem modTaps_regJob (f : Tap → Tap) : (modTaps f s).regJob = s.regJob := rfl
@[simp] theorem modTaps_cfgJob (f : Tap → Tap) : (modTaps f s).cfgJob = s.cfgJob := rfl
@[simp] theorem modTaps_cfg (f : Tap → Tap) : (modTaps f s).cfg = s.cfg := rfl
@[simp] theorem modTaps_nv (f : Tap → Tap) : (modTaps f s).nv = s.nv := rfl
@[simp] theorem modTaps_taps (f : Tap → Tap) : (modTaps f s).taps = s.taps.map f := rfl
@[simp] theorem modTaps_irq (f : Tap → Tap) : (modTaps f s).irq = s.irq := rfl
@[simp] theorem modTaps_flt (f : Tap → Tap) : (modTaps f s).flt = s.flt := rfl
@[simp] theorem modTaps_wd (f : Tap → Tap) : (modTaps f s).wd = s.wd := rfl
@[simp] theorem modTaps_trk (f : Tap → Tap) : (modTaps f s).trk = s.trk := rfl
@[simp] theorem modTaps_seq (f : Tap → Tap) : (modTaps f s).seq = s.seq := rfl
@[simp] theorem modTaps_mems (f : Tap → Tap) : (modTaps f s).mems = s.mems := rfl
@[simp] theorem modTaps_smp (f : Tap → Tap) : (modTaps f s).smp = s.smp := rfl
@[simp] theorem modTaps_mirrors (f : Tap → Tap) : (modTaps f s).mirrors = s.mirrors := rfl
@[simp] theorem modTaps_links (f : Tap → Tap) : (modTaps f s).links = s.links := rfl
@[simp] theorem modTaps_fields (f : Tap → Tap) : (modTaps f s).fields = s.fields := rfl
@[simp] theorem modTaps_gov (f : Tap → Tap) : (modTaps f s).gov = s.gov := rfl
@[simp] theorem modTaps_cal (f : Tap → Tap) : (modTaps f s).cal = s.cal := rfl
@[simp] theorem modTaps_mi (f : Tap → Tap) : (modTaps f s).mi = s.mi := rfl
@[simp] theorem modTaps_sec (f : Tap → Tap) : (modTaps f s).sec = s.sec := rfl
@[simp] theorem modTaps_cask (f : Tap → Tap) : (modTaps f s).cask = s.cask := rfl
@[simp] theorem modTaps_mmp (f : Tap → Tap) : (modTaps f s).mmp = s.mmp := rfl
@[simp] theorem modTaps_inj (f : Tap → Tap) : (modTaps f s).inj = s.inj := rfl

@[simp] theorem modDeferred_pending (f : List Deferred → List Deferred) : (modDeferred f s).pending = s.pending := rfl
@[simp] theorem modDeferred_now (f : List Deferred → List Deferred) : (modDeferred f s).now = s.now := rfl
@[simp] theorem modDeferred_free (f : List Deferred → List Deferred) : (modDeferred f s).free = s.free := rfl
@[simp] theorem modDeferred_pw (f : List Deferred → List Deferred) : (modDeferred f s).pw = s.pw := rfl
@[simp] theorem modDeferred_aon (f : List Deferred → List Deferred) : (modDeferred f s).aon = s.aon := rfl
@[simp] theorem modDeferred_ports (f : List Deferred → List Deferred) : (modDeferred f s).ports = s.ports := rfl
@[simp] theorem modDeferred_deferred (f : List Deferred → List Deferred) : (modDeferred f s).deferred = f s.deferred := rfl
@[simp] theorem modDeferred_turn (f : List Deferred → List Deferred) : (modDeferred f s).turn = s.turn := rfl
@[simp] theorem modDeferred_grpJob (f : List Deferred → List Deferred) : (modDeferred f s).grpJob = s.grpJob := rfl
@[simp] theorem modDeferred_regJob (f : List Deferred → List Deferred) : (modDeferred f s).regJob = s.regJob := rfl
@[simp] theorem modDeferred_cfgJob (f : List Deferred → List Deferred) : (modDeferred f s).cfgJob = s.cfgJob := rfl
@[simp] theorem modDeferred_cfg (f : List Deferred → List Deferred) : (modDeferred f s).cfg = s.cfg := rfl
@[simp] theorem modDeferred_nv (f : List Deferred → List Deferred) : (modDeferred f s).nv = s.nv := rfl
@[simp] theorem modDeferred_taps (f : List Deferred → List Deferred) : (modDeferred f s).taps = s.taps := rfl
@[simp] theorem modDeferred_irq (f : List Deferred → List Deferred) : (modDeferred f s).irq = s.irq := rfl
@[simp] theorem modDeferred_flt (f : List Deferred → List Deferred) : (modDeferred f s).flt = s.flt := rfl
@[simp] theorem modDeferred_wd (f : List Deferred → List Deferred) : (modDeferred f s).wd = s.wd := rfl
@[simp] theorem modDeferred_trk (f : List Deferred → List Deferred) : (modDeferred f s).trk = s.trk := rfl
@[simp] theorem modDeferred_seq (f : List Deferred → List Deferred) : (modDeferred f s).seq = s.seq := rfl
@[simp] theorem modDeferred_mems (f : List Deferred → List Deferred) : (modDeferred f s).mems = s.mems := rfl
@[simp] theorem modDeferred_smp (f : List Deferred → List Deferred) : (modDeferred f s).smp = s.smp := rfl
@[simp] theorem modDeferred_mirrors (f : List Deferred → List Deferred) : (modDeferred f s).mirrors = s.mirrors := rfl
@[simp] theorem modDeferred_links (f : List Deferred → List Deferred) : (modDeferred f s).links = s.links := rfl
@[simp] theorem modDeferred_fields (f : List Deferred → List Deferred) : (modDeferred f s).fields = s.fields := rfl
@[simp] theorem modDeferred_gov (f : List Deferred → List Deferred) : (modDeferred f s).gov = s.gov := rfl
@[simp] theorem modDeferred_cal (f : List Deferred → List Deferred) : (modDeferred f s).cal = s.cal := rfl
@[simp] theorem modDeferred_mi (f : List Deferred → List Deferred) : (modDeferred f s).mi = s.mi := rfl
@[simp] theorem modDeferred_sec (f : List Deferred → List Deferred) : (modDeferred f s).sec = s.sec := rfl
@[simp] theorem modDeferred_cask (f : List Deferred → List Deferred) : (modDeferred f s).cask = s.cask := rfl
@[simp] theorem modDeferred_mmp (f : List Deferred → List Deferred) : (modDeferred f s).mmp = s.mmp := rfl
@[simp] theorem modDeferred_inj (f : List Deferred → List Deferred) : (modDeferred f s).inj = s.inj := rfl

@[simp] theorem setTurn_pending (p : Option Port) : (setTurn p s).pending = s.pending := rfl
@[simp] theorem setTurn_now (p : Option Port) : (setTurn p s).now = s.now := rfl
@[simp] theorem setTurn_free (p : Option Port) : (setTurn p s).free = s.free := rfl
@[simp] theorem setTurn_pw (p : Option Port) : (setTurn p s).pw = s.pw := rfl
@[simp] theorem setTurn_aon (p : Option Port) : (setTurn p s).aon = s.aon := rfl
@[simp] theorem setTurn_ports (p : Option Port) : (setTurn p s).ports = s.ports := rfl
@[simp] theorem setTurn_deferred (p : Option Port) : (setTurn p s).deferred = s.deferred := rfl
@[simp] theorem setTurn_turn (p : Option Port) : (setTurn p s).turn = p := rfl
@[simp] theorem setTurn_grpJob (p : Option Port) : (setTurn p s).grpJob = s.grpJob := rfl
@[simp] theorem setTurn_regJob (p : Option Port) : (setTurn p s).regJob = s.regJob := rfl
@[simp] theorem setTurn_cfgJob (p : Option Port) : (setTurn p s).cfgJob = s.cfgJob := rfl
@[simp] theorem setTurn_cfg (p : Option Port) : (setTurn p s).cfg = s.cfg := rfl
@[simp] theorem setTurn_nv (p : Option Port) : (setTurn p s).nv = s.nv := rfl
@[simp] theorem setTurn_taps (p : Option Port) : (setTurn p s).taps = s.taps := rfl
@[simp] theorem setTurn_irq (p : Option Port) : (setTurn p s).irq = s.irq := rfl
@[simp] theorem setTurn_flt (p : Option Port) : (setTurn p s).flt = s.flt := rfl
@[simp] theorem setTurn_wd (p : Option Port) : (setTurn p s).wd = s.wd := rfl
@[simp] theorem setTurn_trk (p : Option Port) : (setTurn p s).trk = s.trk := rfl
@[simp] theorem setTurn_seq (p : Option Port) : (setTurn p s).seq = s.seq := rfl
@[simp] theorem setTurn_mems (p : Option Port) : (setTurn p s).mems = s.mems := rfl
@[simp] theorem setTurn_smp (p : Option Port) : (setTurn p s).smp = s.smp := rfl
@[simp] theorem setTurn_mirrors (p : Option Port) : (setTurn p s).mirrors = s.mirrors := rfl
@[simp] theorem setTurn_links (p : Option Port) : (setTurn p s).links = s.links := rfl
@[simp] theorem setTurn_fields (p : Option Port) : (setTurn p s).fields = s.fields := rfl
@[simp] theorem setTurn_gov (p : Option Port) : (setTurn p s).gov = s.gov := rfl
@[simp] theorem setTurn_cal (p : Option Port) : (setTurn p s).cal = s.cal := rfl
@[simp] theorem setTurn_mi (p : Option Port) : (setTurn p s).mi = s.mi := rfl
@[simp] theorem setTurn_sec (p : Option Port) : (setTurn p s).sec = s.sec := rfl
@[simp] theorem setTurn_cask (p : Option Port) : (setTurn p s).cask = s.cask := rfl
@[simp] theorem setTurn_mmp (p : Option Port) : (setTurn p s).mmp = s.mmp := rfl
@[simp] theorem setTurn_inj (p : Option Port) : (setTurn p s).inj = s.inj := rfl

@[simp] theorem setGrpJob_pending (j : Option GroupJob) : (setGrpJob j s).pending = s.pending := rfl
@[simp] theorem setGrpJob_now (j : Option GroupJob) : (setGrpJob j s).now = s.now := rfl
@[simp] theorem setGrpJob_free (j : Option GroupJob) : (setGrpJob j s).free = s.free := rfl
@[simp] theorem setGrpJob_pw (j : Option GroupJob) : (setGrpJob j s).pw = s.pw := rfl
@[simp] theorem setGrpJob_aon (j : Option GroupJob) : (setGrpJob j s).aon = s.aon := rfl
@[simp] theorem setGrpJob_ports (j : Option GroupJob) : (setGrpJob j s).ports = s.ports := rfl
@[simp] theorem setGrpJob_deferred (j : Option GroupJob) : (setGrpJob j s).deferred = s.deferred := rfl
@[simp] theorem setGrpJob_turn (j : Option GroupJob) : (setGrpJob j s).turn = s.turn := rfl
@[simp] theorem setGrpJob_grpJob (j : Option GroupJob) : (setGrpJob j s).grpJob = j := rfl
@[simp] theorem setGrpJob_regJob (j : Option GroupJob) : (setGrpJob j s).regJob = s.regJob := rfl
@[simp] theorem setGrpJob_cfgJob (j : Option GroupJob) : (setGrpJob j s).cfgJob = s.cfgJob := rfl
@[simp] theorem setGrpJob_cfg (j : Option GroupJob) : (setGrpJob j s).cfg = s.cfg := rfl
@[simp] theorem setGrpJob_nv (j : Option GroupJob) : (setGrpJob j s).nv = s.nv := rfl
@[simp] theorem setGrpJob_taps (j : Option GroupJob) : (setGrpJob j s).taps = s.taps := rfl
@[simp] theorem setGrpJob_irq (j : Option GroupJob) : (setGrpJob j s).irq = s.irq := rfl
@[simp] theorem setGrpJob_flt (j : Option GroupJob) : (setGrpJob j s).flt = s.flt := rfl
@[simp] theorem setGrpJob_wd (j : Option GroupJob) : (setGrpJob j s).wd = s.wd := rfl
@[simp] theorem setGrpJob_trk (j : Option GroupJob) : (setGrpJob j s).trk = s.trk := rfl
@[simp] theorem setGrpJob_seq (j : Option GroupJob) : (setGrpJob j s).seq = s.seq := rfl
@[simp] theorem setGrpJob_mems (j : Option GroupJob) : (setGrpJob j s).mems = s.mems := rfl
@[simp] theorem setGrpJob_smp (j : Option GroupJob) : (setGrpJob j s).smp = s.smp := rfl
@[simp] theorem setGrpJob_mirrors (j : Option GroupJob) : (setGrpJob j s).mirrors = s.mirrors := rfl
@[simp] theorem setGrpJob_links (j : Option GroupJob) : (setGrpJob j s).links = s.links := rfl
@[simp] theorem setGrpJob_fields (j : Option GroupJob) : (setGrpJob j s).fields = s.fields := rfl
@[simp] theorem setGrpJob_gov (j : Option GroupJob) : (setGrpJob j s).gov = s.gov := rfl
@[simp] theorem setGrpJob_cal (j : Option GroupJob) : (setGrpJob j s).cal = s.cal := rfl
@[simp] theorem setGrpJob_mi (j : Option GroupJob) : (setGrpJob j s).mi = s.mi := rfl
@[simp] theorem setGrpJob_sec (j : Option GroupJob) : (setGrpJob j s).sec = s.sec := rfl
@[simp] theorem setGrpJob_cask (j : Option GroupJob) : (setGrpJob j s).cask = s.cask := rfl
@[simp] theorem setGrpJob_mmp (j : Option GroupJob) : (setGrpJob j s).mmp = s.mmp := rfl
@[simp] theorem setGrpJob_inj (j : Option GroupJob) : (setGrpJob j s).inj = s.inj := rfl

@[simp] theorem setRegJob_pending (j : Option RegJob) : (setRegJob j s).pending = s.pending := rfl
@[simp] theorem setRegJob_now (j : Option RegJob) : (setRegJob j s).now = s.now := rfl
@[simp] theorem setRegJob_free (j : Option RegJob) : (setRegJob j s).free = s.free := rfl
@[simp] theorem setRegJob_pw (j : Option RegJob) : (setRegJob j s).pw = s.pw := rfl
@[simp] theorem setRegJob_aon (j : Option RegJob) : (setRegJob j s).aon = s.aon := rfl
@[simp] theorem setRegJob_ports (j : Option RegJob) : (setRegJob j s).ports = s.ports := rfl
@[simp] theorem setRegJob_deferred (j : Option RegJob) : (setRegJob j s).deferred = s.deferred := rfl
@[simp] theorem setRegJob_turn (j : Option RegJob) : (setRegJob j s).turn = s.turn := rfl
@[simp] theorem setRegJob_grpJob (j : Option RegJob) : (setRegJob j s).grpJob = s.grpJob := rfl
@[simp] theorem setRegJob_regJob (j : Option RegJob) : (setRegJob j s).regJob = j := rfl
@[simp] theorem setRegJob_cfgJob (j : Option RegJob) : (setRegJob j s).cfgJob = s.cfgJob := rfl
@[simp] theorem setRegJob_cfg (j : Option RegJob) : (setRegJob j s).cfg = s.cfg := rfl
@[simp] theorem setRegJob_nv (j : Option RegJob) : (setRegJob j s).nv = s.nv := rfl
@[simp] theorem setRegJob_taps (j : Option RegJob) : (setRegJob j s).taps = s.taps := rfl
@[simp] theorem setRegJob_irq (j : Option RegJob) : (setRegJob j s).irq = s.irq := rfl
@[simp] theorem setRegJob_flt (j : Option RegJob) : (setRegJob j s).flt = s.flt := rfl
@[simp] theorem setRegJob_wd (j : Option RegJob) : (setRegJob j s).wd = s.wd := rfl
@[simp] theorem setRegJob_trk (j : Option RegJob) : (setRegJob j s).trk = s.trk := rfl
@[simp] theorem setRegJob_seq (j : Option RegJob) : (setRegJob j s).seq = s.seq := rfl
@[simp] theorem setRegJob_mems (j : Option RegJob) : (setRegJob j s).mems = s.mems := rfl
@[simp] theorem setRegJob_smp (j : Option RegJob) : (setRegJob j s).smp = s.smp := rfl
@[simp] theorem setRegJob_mirrors (j : Option RegJob) : (setRegJob j s).mirrors = s.mirrors := rfl
@[simp] theorem setRegJob_links (j : Option RegJob) : (setRegJob j s).links = s.links := rfl
@[simp] theorem setRegJob_fields (j : Option RegJob) : (setRegJob j s).fields = s.fields := rfl
@[simp] theorem setRegJob_gov (j : Option RegJob) : (setRegJob j s).gov = s.gov := rfl
@[simp] theorem setRegJob_cal (j : Option RegJob) : (setRegJob j s).cal = s.cal := rfl
@[simp] theorem setRegJob_mi (j : Option RegJob) : (setRegJob j s).mi = s.mi := rfl
@[simp] theorem setRegJob_sec (j : Option RegJob) : (setRegJob j s).sec = s.sec := rfl
@[simp] theorem setRegJob_cask (j : Option RegJob) : (setRegJob j s).cask = s.cask := rfl
@[simp] theorem setRegJob_mmp (j : Option RegJob) : (setRegJob j s).mmp = s.mmp := rfl
@[simp] theorem setRegJob_inj (j : Option RegJob) : (setRegJob j s).inj = s.inj := rfl

@[simp] theorem setCfgJob_pending (j : Option CfgJob) : (setCfgJob j s).pending = s.pending := rfl
@[simp] theorem setCfgJob_now (j : Option CfgJob) : (setCfgJob j s).now = s.now := rfl
@[simp] theorem setCfgJob_free (j : Option CfgJob) : (setCfgJob j s).free = s.free := rfl
@[simp] theorem setCfgJob_pw (j : Option CfgJob) : (setCfgJob j s).pw = s.pw := rfl
@[simp] theorem setCfgJob_aon (j : Option CfgJob) : (setCfgJob j s).aon = s.aon := rfl
@[simp] theorem setCfgJob_ports (j : Option CfgJob) : (setCfgJob j s).ports = s.ports := rfl
@[simp] theorem setCfgJob_deferred (j : Option CfgJob) : (setCfgJob j s).deferred = s.deferred := rfl
@[simp] theorem setCfgJob_turn (j : Option CfgJob) : (setCfgJob j s).turn = s.turn := rfl
@[simp] theorem setCfgJob_grpJob (j : Option CfgJob) : (setCfgJob j s).grpJob = s.grpJob := rfl
@[simp] theorem setCfgJob_regJob (j : Option CfgJob) : (setCfgJob j s).regJob = s.regJob := rfl
@[simp] theorem setCfgJob_cfgJob (j : Option CfgJob) : (setCfgJob j s).cfgJob = j := rfl
@[simp] theorem setCfgJob_cfg (j : Option CfgJob) : (setCfgJob j s).cfg = s.cfg := rfl
@[simp] theorem setCfgJob_nv (j : Option CfgJob) : (setCfgJob j s).nv = s.nv := rfl
@[simp] theorem setCfgJob_taps (j : Option CfgJob) : (setCfgJob j s).taps = s.taps := rfl
@[simp] theorem setCfgJob_irq (j : Option CfgJob) : (setCfgJob j s).irq = s.irq := rfl
@[simp] theorem setCfgJob_flt (j : Option CfgJob) : (setCfgJob j s).flt = s.flt := rfl
@[simp] theorem setCfgJob_wd (j : Option CfgJob) : (setCfgJob j s).wd = s.wd := rfl
@[simp] theorem setCfgJob_trk (j : Option CfgJob) : (setCfgJob j s).trk = s.trk := rfl
@[simp] theorem setCfgJob_seq (j : Option CfgJob) : (setCfgJob j s).seq = s.seq := rfl
@[simp] theorem setCfgJob_mems (j : Option CfgJob) : (setCfgJob j s).mems = s.mems := rfl
@[simp] theorem setCfgJob_smp (j : Option CfgJob) : (setCfgJob j s).smp = s.smp := rfl
@[simp] theorem setCfgJob_mirrors (j : Option CfgJob) : (setCfgJob j s).mirrors = s.mirrors := rfl
@[simp] theorem setCfgJob_links (j : Option CfgJob) : (setCfgJob j s).links = s.links := rfl
@[simp] theorem setCfgJob_fields (j : Option CfgJob) : (setCfgJob j s).fields = s.fields := rfl
@[simp] theorem setCfgJob_gov (j : Option CfgJob) : (setCfgJob j s).gov = s.gov := rfl
@[simp] theorem setCfgJob_cal (j : Option CfgJob) : (setCfgJob j s).cal = s.cal := rfl
@[simp] theorem setCfgJob_mi (j : Option CfgJob) : (setCfgJob j s).mi = s.mi := rfl
@[simp] theorem setCfgJob_sec (j : Option CfgJob) : (setCfgJob j s).sec = s.sec := rfl
@[simp] theorem setCfgJob_cask (j : Option CfgJob) : (setCfgJob j s).cask = s.cask := rfl
@[simp] theorem setCfgJob_mmp (j : Option CfgJob) : (setCfgJob j s).mmp = s.mmp := rfl
@[simp] theorem setCfgJob_inj (j : Option CfgJob) : (setCfgJob j s).inj = s.inj := rfl

@[simp] theorem setCfgList_pending (l : Sparse) : (setCfgList l s).pending = s.pending := rfl
@[simp] theorem setCfgList_now (l : Sparse) : (setCfgList l s).now = s.now := rfl
@[simp] theorem setCfgList_free (l : Sparse) : (setCfgList l s).free = s.free := rfl
@[simp] theorem setCfgList_pw (l : Sparse) : (setCfgList l s).pw = s.pw := rfl
@[simp] theorem setCfgList_aon (l : Sparse) : (setCfgList l s).aon = s.aon := rfl
@[simp] theorem setCfgList_ports (l : Sparse) : (setCfgList l s).ports = s.ports := rfl
@[simp] theorem setCfgList_deferred (l : Sparse) : (setCfgList l s).deferred = s.deferred := rfl
@[simp] theorem setCfgList_turn (l : Sparse) : (setCfgList l s).turn = s.turn := rfl
@[simp] theorem setCfgList_grpJob (l : Sparse) : (setCfgList l s).grpJob = s.grpJob := rfl
@[simp] theorem setCfgList_regJob (l : Sparse) : (setCfgList l s).regJob = s.regJob := rfl
@[simp] theorem setCfgList_cfgJob (l : Sparse) : (setCfgList l s).cfgJob = s.cfgJob := rfl
@[simp] theorem setCfgList_cfg (l : Sparse) : (setCfgList l s).cfg = l := rfl
@[simp] theorem setCfgList_nv (l : Sparse) : (setCfgList l s).nv = s.nv := rfl
@[simp] theorem setCfgList_taps (l : Sparse) : (setCfgList l s).taps = s.taps := rfl
@[simp] theorem setCfgList_irq (l : Sparse) : (setCfgList l s).irq = s.irq := rfl
@[simp] theorem setCfgList_flt (l : Sparse) : (setCfgList l s).flt = s.flt := rfl
@[simp] theorem setCfgList_wd (l : Sparse) : (setCfgList l s).wd = s.wd := rfl
@[simp] theorem setCfgList_trk (l : Sparse) : (setCfgList l s).trk = s.trk := rfl
@[simp] theorem setCfgList_seq (l : Sparse) : (setCfgList l s).seq = s.seq := rfl
@[simp] theorem setCfgList_mems (l : Sparse) : (setCfgList l s).mems = s.mems := rfl
@[simp] theorem setCfgList_smp (l : Sparse) : (setCfgList l s).smp = s.smp := rfl
@[simp] theorem setCfgList_mirrors (l : Sparse) : (setCfgList l s).mirrors = s.mirrors := rfl
@[simp] theorem setCfgList_links (l : Sparse) : (setCfgList l s).links = s.links := rfl
@[simp] theorem setCfgList_fields (l : Sparse) : (setCfgList l s).fields = s.fields := rfl
@[simp] theorem setCfgList_gov (l : Sparse) : (setCfgList l s).gov = s.gov := rfl
@[simp] theorem setCfgList_cal (l : Sparse) : (setCfgList l s).cal = s.cal := rfl
@[simp] theorem setCfgList_mi (l : Sparse) : (setCfgList l s).mi = s.mi := rfl
@[simp] theorem setCfgList_sec (l : Sparse) : (setCfgList l s).sec = s.sec := rfl
@[simp] theorem setCfgList_cask (l : Sparse) : (setCfgList l s).cask = s.cask := rfl
@[simp] theorem setCfgList_mmp (l : Sparse) : (setCfgList l s).mmp = s.mmp := rfl
@[simp] theorem setCfgList_inj (l : Sparse) : (setCfgList l s).inj = s.inj := rfl

@[simp] theorem setNvList_pending (l : Sparse) : (setNvList l s).pending = s.pending := rfl
@[simp] theorem setNvList_now (l : Sparse) : (setNvList l s).now = s.now := rfl
@[simp] theorem setNvList_free (l : Sparse) : (setNvList l s).free = s.free := rfl
@[simp] theorem setNvList_pw (l : Sparse) : (setNvList l s).pw = s.pw := rfl
@[simp] theorem setNvList_aon (l : Sparse) : (setNvList l s).aon = s.aon := rfl
@[simp] theorem setNvList_ports (l : Sparse) : (setNvList l s).ports = s.ports := rfl
@[simp] theorem setNvList_deferred (l : Sparse) : (setNvList l s).deferred = s.deferred := rfl
@[simp] theorem setNvList_turn (l : Sparse) : (setNvList l s).turn = s.turn := rfl
@[simp] theorem setNvList_grpJob (l : Sparse) : (setNvList l s).grpJob = s.grpJob := rfl
@[simp] theorem setNvList_regJob (l : Sparse) : (setNvList l s).regJob = s.regJob := rfl
@[simp] theorem setNvList_cfgJob (l : Sparse) : (setNvList l s).cfgJob = s.cfgJob := rfl
@[simp] theorem setNvList_cfg (l : Sparse) : (setNvList l s).cfg = s.cfg := rfl
@[simp] theorem setNvList_nv (l : Sparse) : (setNvList l s).nv = l := rfl
@[simp] theorem setNvList_taps (l : Sparse) : (setNvList l s).taps = s.taps := rfl
@[simp] theorem setNvList_irq (l : Sparse) : (setNvList l s).irq = s.irq := rfl
@[simp] theorem setNvList_flt (l : Sparse) : (setNvList l s).flt = s.flt := rfl
@[simp] theorem setNvList_wd (l : Sparse) : (setNvList l s).wd = s.wd := rfl
@[simp] theorem setNvList_trk (l : Sparse) : (setNvList l s).trk = s.trk := rfl
@[simp] theorem setNvList_seq (l : Sparse) : (setNvList l s).seq = s.seq := rfl
@[simp] theorem setNvList_mems (l : Sparse) : (setNvList l s).mems = s.mems := rfl
@[simp] theorem setNvList_smp (l : Sparse) : (setNvList l s).smp = s.smp := rfl
@[simp] theorem setNvList_mirrors (l : Sparse) : (setNvList l s).mirrors = s.mirrors := rfl
@[simp] theorem setNvList_links (l : Sparse) : (setNvList l s).links = s.links := rfl
@[simp] theorem setNvList_fields (l : Sparse) : (setNvList l s).fields = s.fields := rfl
@[simp] theorem setNvList_gov (l : Sparse) : (setNvList l s).gov = s.gov := rfl
@[simp] theorem setNvList_cal (l : Sparse) : (setNvList l s).cal = s.cal := rfl
@[simp] theorem setNvList_mi (l : Sparse) : (setNvList l s).mi = s.mi := rfl
@[simp] theorem setNvList_sec (l : Sparse) : (setNvList l s).sec = s.sec := rfl
@[simp] theorem setNvList_cask (l : Sparse) : (setNvList l s).cask = s.cask := rfl
@[simp] theorem setNvList_mmp (l : Sparse) : (setNvList l s).mmp = s.mmp := rfl
@[simp] theorem setNvList_inj (l : Sparse) : (setNvList l s).inj = s.inj := rfl

@[simp] theorem nextFree_pending : (nextFree s).pending = s.pending := rfl
@[simp] theorem nextFree_now : (nextFree s).now = s.now := rfl
@[simp] theorem nextFree_free : (nextFree s).free = s.free + 1 := rfl
@[simp] theorem nextFree_pw : (nextFree s).pw = s.pw := rfl
@[simp] theorem nextFree_aon : (nextFree s).aon = s.aon := rfl
@[simp] theorem nextFree_ports : (nextFree s).ports = s.ports := rfl
@[simp] theorem nextFree_deferred : (nextFree s).deferred = s.deferred := rfl
@[simp] theorem nextFree_turn : (nextFree s).turn = s.turn := rfl
@[simp] theorem nextFree_grpJob : (nextFree s).grpJob = s.grpJob := rfl
@[simp] theorem nextFree_regJob : (nextFree s).regJob = s.regJob := rfl
@[simp] theorem nextFree_cfgJob : (nextFree s).cfgJob = s.cfgJob := rfl
@[simp] theorem nextFree_cfg : (nextFree s).cfg = s.cfg := rfl
@[simp] theorem nextFree_nv : (nextFree s).nv = s.nv := rfl
@[simp] theorem nextFree_taps : (nextFree s).taps = s.taps := rfl
@[simp] theorem nextFree_irq : (nextFree s).irq = s.irq := rfl
@[simp] theorem nextFree_flt : (nextFree s).flt = s.flt := rfl
@[simp] theorem nextFree_wd : (nextFree s).wd = s.wd := rfl
@[simp] theorem nextFree_trk : (nextFree s).trk = s.trk := rfl
@[simp] theorem nextFree_seq : (nextFree s).seq = s.seq := rfl
@[simp] theorem nextFree_mems : (nextFree s).mems = s.mems := rfl
@[simp] theorem nextFree_smp : (nextFree s).smp = s.smp := rfl
@[simp] theorem nextFree_mirrors : (nextFree s).mirrors = s.mirrors := rfl
@[simp] theorem nextFree_links : (nextFree s).links = s.links := rfl
@[simp] theorem nextFree_fields : (nextFree s).fields = s.fields := rfl
@[simp] theorem nextFree_gov : (nextFree s).gov = s.gov := rfl
@[simp] theorem nextFree_cal : (nextFree s).cal = s.cal := rfl
@[simp] theorem nextFree_mi : (nextFree s).mi = s.mi := rfl
@[simp] theorem nextFree_sec : (nextFree s).sec = s.sec := rfl
@[simp] theorem nextFree_cask : (nextFree s).cask = s.cask := rfl
@[simp] theorem nextFree_mmp : (nextFree s).mmp = s.mmp := rfl
@[simp] theorem nextFree_inj : (nextFree s).inj = s.inj := rfl

@[simp] theorem modPan_pending (g : Grp) (p : Fin 16) (f : Pan → Pan) : (modPan g p f s).pending = s.pending := rfl
@[simp] theorem modPan_now (g : Grp) (p : Fin 16) (f : Pan → Pan) : (modPan g p f s).now = s.now := rfl
@[simp] theorem modPan_free (g : Grp) (p : Fin 16) (f : Pan → Pan) : (modPan g p f s).free = s.free := rfl
@[simp] theorem modPan_pw (g : Grp) (p : Fin 16) (f : Pan → Pan) : (modPan g p f s).pw = s.pw := rfl
@[simp] theorem modPan_aon (g : Grp) (p : Fin 16) (f : Pan → Pan) : (modPan g p f s).aon = s.aon := rfl
@[simp] theorem modPan_ports (g : Grp) (p : Fin 16) (f : Pan → Pan) : (modPan g p f s).ports = s.ports := rfl
@[simp] theorem modPan_deferred (g : Grp) (p : Fin 16) (f : Pan → Pan) : (modPan g p f s).deferred = s.deferred := rfl
@[simp] theorem modPan_turn (g : Grp) (p : Fin 16) (f : Pan → Pan) : (modPan g p f s).turn = s.turn := rfl
@[simp] theorem modPan_grpJob (g : Grp) (p : Fin 16) (f : Pan → Pan) : (modPan g p f s).grpJob = s.grpJob := rfl
@[simp] theorem modPan_regJob (g : Grp) (p : Fin 16) (f : Pan → Pan) : (modPan g p f s).regJob = s.regJob := rfl
@[simp] theorem modPan_cfgJob (g : Grp) (p : Fin 16) (f : Pan → Pan) : (modPan g p f s).cfgJob = s.cfgJob := rfl
@[simp] theorem modPan_cfg (g : Grp) (p : Fin 16) (f : Pan → Pan) : (modPan g p f s).cfg = s.cfg := rfl
@[simp] theorem modPan_nv (g : Grp) (p : Fin 16) (f : Pan → Pan) : (modPan g p f s).nv = s.nv := rfl
@[simp] theorem modPan_taps (g : Grp) (p : Fin 16) (f : Pan → Pan) : (modPan g p f s).taps = s.taps := rfl
@[simp] theorem modPan_irq (g : Grp) (p : Fin 16) (f : Pan → Pan) : (modPan g p f s).irq = s.irq := rfl
@[simp] theorem modPan_flt (g : Grp) (p : Fin 16) (f : Pan → Pan) : (modPan g p f s).flt = s.flt := rfl
@[simp] theorem modPan_wd (g : Grp) (p : Fin 16) (f : Pan → Pan) : (modPan g p f s).wd = s.wd := rfl
@[simp] theorem modPan_trk (g : Grp) (p : Fin 16) (f : Pan → Pan) : (modPan g p f s).trk = s.trk := rfl
@[simp] theorem modPan_seq (g : Grp) (p : Fin 16) (f : Pan → Pan) : (modPan g p f s).seq = s.seq := rfl
@[simp] theorem modPan_mems (g : Grp) (p : Fin 16) (f : Pan → Pan) : (modPan g p f s).mems = s.mems := rfl
@[simp] theorem modPan_smp (g : Grp) (p : Fin 16) (f : Pan → Pan) : (modPan g p f s).smp = { s.smp with pans := vmod s.smp.pans ⟨16 * g.val + p.val, by omega⟩ f } := rfl
@[simp] theorem modPan_mirrors (g : Grp) (p : Fin 16) (f : Pan → Pan) : (modPan g p f s).mirrors = s.mirrors := rfl
@[simp] theorem modPan_links (g : Grp) (p : Fin 16) (f : Pan → Pan) : (modPan g p f s).links = s.links := rfl
@[simp] theorem modPan_fields (g : Grp) (p : Fin 16) (f : Pan → Pan) : (modPan g p f s).fields = s.fields := rfl
@[simp] theorem modPan_gov (g : Grp) (p : Fin 16) (f : Pan → Pan) : (modPan g p f s).gov = s.gov := rfl
@[simp] theorem modPan_cal (g : Grp) (p : Fin 16) (f : Pan → Pan) : (modPan g p f s).cal = s.cal := rfl
@[simp] theorem modPan_mi (g : Grp) (p : Fin 16) (f : Pan → Pan) : (modPan g p f s).mi = s.mi := rfl
@[simp] theorem modPan_sec (g : Grp) (p : Fin 16) (f : Pan → Pan) : (modPan g p f s).sec = s.sec := rfl
@[simp] theorem modPan_cask (g : Grp) (p : Fin 16) (f : Pan → Pan) : (modPan g p f s).cask = s.cask := rfl
@[simp] theorem modPan_mmp (g : Grp) (p : Fin 16) (f : Pan → Pan) : (modPan g p f s).mmp = s.mmp := rfl
@[simp] theorem modPan_inj (g : Grp) (p : Fin 16) (f : Pan → Pan) : (modPan g p f s).inj = s.inj := rfl

@[simp] theorem tick_pending : (tick s).pending = s.pending := rfl
@[simp] theorem tick_now : (tick s).now = s.now + 1 := rfl
@[simp] theorem tick_free : (tick s).free = s.free := rfl
@[simp] theorem tick_pw : (tick s).pw = s.pw := rfl
@[simp] theorem tick_aon : (tick s).aon = s.aon := rfl
@[simp] theorem tick_ports : (tick s).ports = s.ports := rfl
@[simp] theorem tick_deferred : (tick s).deferred = s.deferred := rfl
@[simp] theorem tick_turn : (tick s).turn = s.turn := rfl
@[simp] theorem tick_grpJob : (tick s).grpJob = s.grpJob := rfl
@[simp] theorem tick_regJob : (tick s).regJob = s.regJob := rfl
@[simp] theorem tick_cfgJob : (tick s).cfgJob = s.cfgJob := rfl
@[simp] theorem tick_cfg : (tick s).cfg = s.cfg := rfl
@[simp] theorem tick_nv : (tick s).nv = s.nv := rfl
@[simp] theorem tick_taps : (tick s).taps = s.taps := rfl
@[simp] theorem tick_irq : (tick s).irq = s.irq := rfl
@[simp] theorem tick_flt : (tick s).flt = s.flt := rfl
@[simp] theorem tick_wd : (tick s).wd = s.wd := rfl
@[simp] theorem tick_trk : (tick s).trk = s.trk := rfl
@[simp] theorem tick_seq : (tick s).seq = s.seq := rfl
@[simp] theorem tick_mems : (tick s).mems = s.mems := rfl
@[simp] theorem tick_smp : (tick s).smp = s.smp := rfl
@[simp] theorem tick_mirrors : (tick s).mirrors = s.mirrors := rfl
@[simp] theorem tick_links : (tick s).links = s.links := rfl
@[simp] theorem tick_fields : (tick s).fields = s.fields := rfl
@[simp] theorem tick_gov : (tick s).gov = s.gov := rfl
@[simp] theorem tick_cal : (tick s).cal = s.cal := rfl
@[simp] theorem tick_mi : (tick s).mi = s.mi := rfl
@[simp] theorem tick_sec : (tick s).sec = s.sec := rfl
@[simp] theorem tick_cask : (tick s).cask = s.cask := rfl
@[simp] theorem tick_mmp : (tick s).mmp = s.mmp := rfl
@[simp] theorem tick_inj : (tick s).inj = s.inj := rfl

end Sys2Proof.Machine
end

