-- ==== Sys2Proof/Laws/Interrupts.lean ====
section
/-! SUPPORT. What the operations of the interrupt controller can change: the controller's own state and nothing else
(14_interrupts R414 to R427). -/

namespace Sys2Proof.Machine

/-- An operation that changes nothing but the interrupt controller. -/
def IrqOnly (f : State → State) : Prop := ∀ s, f s = { s with irq := (f s).irq }

theorem IrqOnly.id : IrqOnly fun s => s := fun _ => rfl

theorem IrqOnly.comp {f g : State → State} (hf : IrqOnly f) (hg : IrqOnly g) : IrqOnly fun s => f (g s) := by
  intro s
  show f (g s) = { s with irq := (f (g s)).irq }
  have h1 := hf (g s)
  have h2 := hg s
  rw [h1, h2]

theorem IrqOnly.ite {c : State → Prop} [DecidablePred c] {f g : State → State} (hf : IrqOnly f) (hg : IrqOnly g) :
    IrqOnly fun s => if c s then f s else g s := by
  intro s
  by_cases h : c s
  · simpa [h] using hf s
  · simpa [h] using hg s

theorem IrqOnly.fold {α : Type} (l : List α) {f : α → State → State} (h : ∀ a, IrqOnly (f a)) :
    IrqOnly (foldSt l f) := by
  induction l with
  | nil => exact fun _ => rfl
  | cons a l ih => exact fun s => IrqOnly.comp ih (h a) s

/-- A fold whose list depends on the state. -/
theorem IrqOnly.foldBy {α : Type} (l : State → List α) {f : α → State → State} (h : ∀ a, IrqOnly (f a)) :
    IrqOnly fun s => foldSt (l s) f s := fun s => IrqOnly.fold (l s) h s

theorem setPend_only (n : Fin 96) (b : Bool) : IrqOnly (setPend n b) := fun _ => rfl
theorem setReleased_only (n : Fin 96) (b : Bool) : IrqOnly (setReleased n b) := fun _ => rfl
theorem setModr_only (m : Fin 16) (x : Moderator) : IrqOnly (setModr m x) := fun _ => rfl

theorem setActive_only (p : Port) (n : Fin 96) (b : Bool) : IrqOnly (setActive p n b) := by
  intro s; cases p <;> rfl

theorem deliverOne_only (n : Fin 96) : IrqOnly (deliverOne n) := by
  intro s
  unfold deliverOne
  split
  · have h := IrqOnly.fold (targets s n).1 (f := fun p => setActive p n true) (fun p => setActive_only p n true)
      (setReleased n false (setPend n false s))
    dsimp only
    rw [h]
    split <;> rfl
  · rfl

theorem deliver_only : IrqOnly deliver := by
  intro s
  unfold deliver
  split
  · exact IrqOnly.fold _ deliverOne_only s
  · rfl

theorem fireMod_only (m : Fin 16) : IrqOnly (fireMod m) := fun s =>
  IrqOnly.comp (f := fun s => foldSt ((assigned s m).filter (isPend s)) (fun n => setReleased n true) s)
    (IrqOnly.foldBy _ fun n => setReleased_only n true) (setModr_only m _) s

theorem syncMod_only (m : Fin 16) : IrqOnly (syncMod m) := by
  intro s
  unfold syncMod
  dsimp only
  split
  · rfl
  · split
    · exact fireMod_only m s
    · split <;> rfl

theorem syncMods_only : IrqOnly syncMods := IrqOnly.fold _ syncMod_only

theorem raiseOnly_only (n : Fin 96) : IrqOnly (raiseOnly n) := by
  intro s
  unfold raiseOnly
  dsimp only
  split
  · rw [syncMod_only]
    rfl
  · rfl

theorem raise_only (n : Fin 96) : IrqOnly (raise n) := by
  intro s
  unfold raise
  split
  · exact IrqOnly.comp deliver_only (raiseOnly_only n) s
  · rfl

theorem raiseNat_only (n : Nat) : IrqOnly (raiseNat n) := by
  intro s
  unfold raiseNat
  split
  · exact raise_only _ s
  · rfl

theorem present_only (l : List Port) (n : Fin 96) : IrqOnly (present l n) := by
  intro s
  unfold present
  have h := IrqOnly.fold (l.filter fun p => !isActive s p n) (f := fun p => setActive p n true) (fun p => setActive_only p n true) s
  dsimp only
  rw [h]
  split <;> rfl

theorem serviceDone_only (p : Port) (n : Fin 96) : IrqOnly (serviceDone p n) := by
  intro s
  unfold serviceDone
  split
  · dsimp only
    rw [setActive_only]
    split <;> rfl
  · rfl

theorem reroute_only (n : Fin 96) (old : Nat) : IrqOnly (reroute n old) := by
  intro s
  unfold reroute
  dsimp only
  split
  · rfl
  · have h := IrqOnly.fold (ports.filter fun p => !(routePorts (intRoute s n)).contains p) (f := fun p => setActive p n false)
      (fun p => setActive_only p n false) s
    rw [h]
    split
    · split
      · rfl
      · rw [present_only]
    · rw [present_only]

@[simp] theorem deliver_pending (s : State) : (deliver s).pending = s.pending := by rw [deliver_only s]
@[simp] theorem deliver_now (s : State) : (deliver s).now = s.now := by rw [deliver_only s]
@[simp] theorem deliver_free (s : State) : (deliver s).free = s.free := by rw [deliver_only s]
@[simp] theorem deliver_pw (s : State) : (deliver s).pw = s.pw := by rw [deliver_only s]
@[simp] theorem deliver_aon (s : State) : (deliver s).aon = s.aon := by rw [deliver_only s]
@[simp] theorem deliver_ports (s : State) : (deliver s).ports = s.ports := by rw [deliver_only s]
@[simp] theorem deliver_deferred (s : State) : (deliver s).deferred = s.deferred := by rw [deliver_only s]
@[simp] theorem deliver_turn (s : State) : (deliver s).turn = s.turn := by rw [deliver_only s]
@[simp] theorem deliver_grpJob (s : State) : (deliver s).grpJob = s.grpJob := by rw [deliver_only s]
@[simp] theorem deliver_regJob (s : State) : (deliver s).regJob = s.regJob := by rw [deliver_only s]
@[simp] theorem deliver_cfgJob (s : State) : (deliver s).cfgJob = s.cfgJob := by rw [deliver_only s]
@[simp] theorem deliver_cfg (s : State) : (deliver s).cfg = s.cfg := by rw [deliver_only s]
@[simp] theorem deliver_nv (s : State) : (deliver s).nv = s.nv := by rw [deliver_only s]
@[simp] theorem deliver_taps (s : State) : (deliver s).taps = s.taps := by rw [deliver_only s]
@[simp] theorem deliver_flt (s : State) : (deliver s).flt = s.flt := by rw [deliver_only s]
@[simp] theorem deliver_wd (s : State) : (deliver s).wd = s.wd := by rw [deliver_only s]
@[simp] theorem deliver_trk (s : State) : (deliver s).trk = s.trk := by rw [deliver_only s]
@[simp] theorem deliver_seq (s : State) : (deliver s).seq = s.seq := by rw [deliver_only s]
@[simp] theorem deliver_mems (s : State) : (deliver s).mems = s.mems := by rw [deliver_only s]
@[simp] theorem deliver_smp (s : State) : (deliver s).smp = s.smp := by rw [deliver_only s]
@[simp] theorem deliver_mirrors (s : State) : (deliver s).mirrors = s.mirrors := by rw [deliver_only s]
@[simp] theorem deliver_links (s : State) : (deliver s).links = s.links := by rw [deliver_only s]
@[simp] theorem deliver_fields (s : State) : (deliver s).fields = s.fields := by rw [deliver_only s]
@[simp] theorem deliver_gov (s : State) : (deliver s).gov = s.gov := by rw [deliver_only s]
@[simp] theorem deliver_cal (s : State) : (deliver s).cal = s.cal := by rw [deliver_only s]
@[simp] theorem deliver_mi (s : State) : (deliver s).mi = s.mi := by rw [deliver_only s]
@[simp] theorem deliver_sec (s : State) : (deliver s).sec = s.sec := by rw [deliver_only s]
@[simp] theorem deliver_cask (s : State) : (deliver s).cask = s.cask := by rw [deliver_only s]
@[simp] theorem deliver_mmp (s : State) : (deliver s).mmp = s.mmp := by rw [deliver_only s]
@[simp] theorem deliver_inj (s : State) : (deliver s).inj = s.inj := by rw [deliver_only s]

@[simp] theorem syncMods_pending (s : State) : (syncMods s).pending = s.pending := by rw [syncMods_only s]
@[simp] theorem syncMods_now (s : State) : (syncMods s).now = s.now := by rw [syncMods_only s]
@[simp] theorem syncMods_free (s : State) : (syncMods s).free = s.free := by rw [syncMods_only s]
@[simp] theorem syncMods_pw (s : State) : (syncMods s).pw = s.pw := by rw [syncMods_only s]
@[simp] theorem syncMods_aon (s : State) : (syncMods s).aon = s.aon := by rw [syncMods_only s]
@[simp] theorem syncMods_ports (s : State) : (syncMods s).ports = s.ports := by rw [syncMods_only s]
@[simp] theorem syncMods_deferred (s : State) : (syncMods s).deferred = s.deferred := by rw [syncMods_only s]
@[simp] theorem syncMods_turn (s : State) : (syncMods s).turn = s.turn := by rw [syncMods_only s]
@[simp] theorem syncMods_grpJob (s : State) : (syncMods s).grpJob = s.grpJob := by rw [syncMods_only s]
@[simp] theorem syncMods_regJob (s : State) : (syncMods s).regJob = s.regJob := by rw [syncMods_only s]
@[simp] theorem syncMods_cfgJob (s : State) : (syncMods s).cfgJob = s.cfgJob := by rw [syncMods_only s]
@[simp] theorem syncMods_cfg (s : State) : (syncMods s).cfg = s.cfg := by rw [syncMods_only s]
@[simp] theorem syncMods_nv (s : State) : (syncMods s).nv = s.nv := by rw [syncMods_only s]
@[simp] theorem syncMods_taps (s : State) : (syncMods s).taps = s.taps := by rw [syncMods_only s]
@[simp] theorem syncMods_flt (s : State) : (syncMods s).flt = s.flt := by rw [syncMods_only s]
@[simp] theorem syncMods_wd (s : State) : (syncMods s).wd = s.wd := by rw [syncMods_only s]
@[simp] theorem syncMods_trk (s : State) : (syncMods s).trk = s.trk := by rw [syncMods_only s]
@[simp] theorem syncMods_seq (s : State) : (syncMods s).seq = s.seq := by rw [syncMods_only s]
@[simp] theorem syncMods_mems (s : State) : (syncMods s).mems = s.mems := by rw [syncMods_only s]
@[simp] theorem syncMods_smp (s : State) : (syncMods s).smp = s.smp := by rw [syncMods_only s]
@[simp] theorem syncMods_mirrors (s : State) : (syncMods s).mirrors = s.mirrors := by rw [syncMods_only s]
@[simp] theorem syncMods_links (s : State) : (syncMods s).links = s.links := by rw [syncMods_only s]
@[simp] theorem syncMods_fields (s : State) : (syncMods s).fields = s.fields := by rw [syncMods_only s]
@[simp] theorem syncMods_gov (s : State) : (syncMods s).gov = s.gov := by rw [syncMods_only s]
@[simp] theorem syncMods_cal (s : State) : (syncMods s).cal = s.cal := by rw [syncMods_only s]
@[simp] theorem syncMods_mi (s : State) : (syncMods s).mi = s.mi := by rw [syncMods_only s]
@[simp] theorem syncMods_sec (s : State) : (syncMods s).sec = s.sec := by rw [syncMods_only s]
@[simp] theorem syncMods_cask (s : State) : (syncMods s).cask = s.cask := by rw [syncMods_only s]
@[simp] theorem syncMods_mmp (s : State) : (syncMods s).mmp = s.mmp := by rw [syncMods_only s]
@[simp] theorem syncMods_inj (s : State) : (syncMods s).inj = s.inj := by rw [syncMods_only s]

@[simp] theorem raise_pending (n : Fin 96) (s : State) : (raise n s).pending = s.pending := by rw [raise_only n s]
@[simp] theorem raise_now (n : Fin 96) (s : State) : (raise n s).now = s.now := by rw [raise_only n s]
@[simp] theorem raise_free (n : Fin 96) (s : State) : (raise n s).free = s.free := by rw [raise_only n s]
@[simp] theorem raise_pw (n : Fin 96) (s : State) : (raise n s).pw = s.pw := by rw [raise_only n s]
@[simp] theorem raise_aon (n : Fin 96) (s : State) : (raise n s).aon = s.aon := by rw [raise_only n s]
@[simp] theorem raise_ports (n : Fin 96) (s : State) : (raise n s).ports = s.ports := by rw [raise_only n s]
@[simp] theorem raise_deferred (n : Fin 96) (s : State) : (raise n s).deferred = s.deferred := by rw [raise_only n s]
@[simp] theorem raise_turn (n : Fin 96) (s : State) : (raise n s).turn = s.turn := by rw [raise_only n s]
@[simp] theorem raise_grpJob (n : Fin 96) (s : State) : (raise n s).grpJob = s.grpJob := by rw [raise_only n s]
@[simp] theorem raise_regJob (n : Fin 96) (s : State) : (raise n s).regJob = s.regJob := by rw [raise_only n s]
@[simp] theorem raise_cfgJob (n : Fin 96) (s : State) : (raise n s).cfgJob = s.cfgJob := by rw [raise_only n s]
@[simp] theorem raise_cfg (n : Fin 96) (s : State) : (raise n s).cfg = s.cfg := by rw [raise_only n s]
@[simp] theorem raise_nv (n : Fin 96) (s : State) : (raise n s).nv = s.nv := by rw [raise_only n s]
@[simp] theorem raise_taps (n : Fin 96) (s : State) : (raise n s).taps = s.taps := by rw [raise_only n s]
@[simp] theorem raise_flt (n : Fin 96) (s : State) : (raise n s).flt = s.flt := by rw [raise_only n s]
@[simp] theorem raise_wd (n : Fin 96) (s : State) : (raise n s).wd = s.wd := by rw [raise_only n s]
@[simp] theorem raise_trk (n : Fin 96) (s : State) : (raise n s).trk = s.trk := by rw [raise_only n s]
@[simp] theorem raise_seq (n : Fin 96) (s : State) : (raise n s).seq = s.seq := by rw [raise_only n s]
@[simp] theorem raise_mems (n : Fin 96) (s : State) : (raise n s).mems = s.mems := by rw [raise_only n s]
@[simp] theorem raise_smp (n : Fin 96) (s : State) : (raise n s).smp = s.smp := by rw [raise_only n s]
@[simp] theorem raise_mirrors (n : Fin 96) (s : State) : (raise n s).mirrors = s.mirrors := by rw [raise_only n s]
@[simp] theorem raise_links (n : Fin 96) (s : State) : (raise n s).links = s.links := by rw [raise_only n s]
@[simp] theorem raise_fields (n : Fin 96) (s : State) : (raise n s).fields = s.fields := by rw [raise_only n s]
@[simp] theorem raise_gov (n : Fin 96) (s : State) : (raise n s).gov = s.gov := by rw [raise_only n s]
@[simp] theorem raise_cal (n : Fin 96) (s : State) : (raise n s).cal = s.cal := by rw [raise_only n s]
@[simp] theorem raise_mi (n : Fin 96) (s : State) : (raise n s).mi = s.mi := by rw [raise_only n s]
@[simp] theorem raise_sec (n : Fin 96) (s : State) : (raise n s).sec = s.sec := by rw [raise_only n s]
@[simp] theorem raise_cask (n : Fin 96) (s : State) : (raise n s).cask = s.cask := by rw [raise_only n s]
@[simp] theorem raise_mmp (n : Fin 96) (s : State) : (raise n s).mmp = s.mmp := by rw [raise_only n s]
@[simp] theorem raise_inj (n : Fin 96) (s : State) : (raise n s).inj = s.inj := by rw [raise_only n s]

@[simp] theorem raiseNat_pending (n : Nat) (s : State) : (raiseNat n s).pending = s.pending := by rw [raiseNat_only n s]
@[simp] theorem raiseNat_now (n : Nat) (s : State) : (raiseNat n s).now = s.now := by rw [raiseNat_only n s]
@[simp] theorem raiseNat_free (n : Nat) (s : State) : (raiseNat n s).free = s.free := by rw [raiseNat_only n s]
@[simp] theorem raiseNat_pw (n : Nat) (s : State) : (raiseNat n s).pw = s.pw := by rw [raiseNat_only n s]
@[simp] theorem raiseNat_aon (n : Nat) (s : State) : (raiseNat n s).aon = s.aon := by rw [raiseNat_only n s]
@[simp] theorem raiseNat_ports (n : Nat) (s : State) : (raiseNat n s).ports = s.ports := by rw [raiseNat_only n s]
@[simp] theorem raiseNat_deferred (n : Nat) (s : State) : (raiseNat n s).deferred = s.deferred := by rw [raiseNat_only n s]
@[simp] theorem raiseNat_turn (n : Nat) (s : State) : (raiseNat n s).turn = s.turn := by rw [raiseNat_only n s]
@[simp] theorem raiseNat_grpJob (n : Nat) (s : State) : (raiseNat n s).grpJob = s.grpJob := by rw [raiseNat_only n s]
@[simp] theorem raiseNat_regJob (n : Nat) (s : State) : (raiseNat n s).regJob = s.regJob := by rw [raiseNat_only n s]
@[simp] theorem raiseNat_cfgJob (n : Nat) (s : State) : (raiseNat n s).cfgJob = s.cfgJob := by rw [raiseNat_only n s]
@[simp] theorem raiseNat_cfg (n : Nat) (s : State) : (raiseNat n s).cfg = s.cfg := by rw [raiseNat_only n s]
@[simp] theorem raiseNat_nv (n : Nat) (s : State) : (raiseNat n s).nv = s.nv := by rw [raiseNat_only n s]
@[simp] theorem raiseNat_taps (n : Nat) (s : State) : (raiseNat n s).taps = s.taps := by rw [raiseNat_only n s]
@[simp] theorem raiseNat_flt (n : Nat) (s : State) : (raiseNat n s).flt = s.flt := by rw [raiseNat_only n s]
@[simp] theorem raiseNat_wd (n : Nat) (s : State) : (raiseNat n s).wd = s.wd := by rw [raiseNat_only n s]
@[simp] theorem raiseNat_trk (n : Nat) (s : State) : (raiseNat n s).trk = s.trk := by rw [raiseNat_only n s]
@[simp] theorem raiseNat_seq (n : Nat) (s : State) : (raiseNat n s).seq = s.seq := by rw [raiseNat_only n s]
@[simp] theorem raiseNat_mems (n : Nat) (s : State) : (raiseNat n s).mems = s.mems := by rw [raiseNat_only n s]
@[simp] theorem raiseNat_smp (n : Nat) (s : State) : (raiseNat n s).smp = s.smp := by rw [raiseNat_only n s]
@[simp] theorem raiseNat_mirrors (n : Nat) (s : State) : (raiseNat n s).mirrors = s.mirrors := by rw [raiseNat_only n s]
@[simp] theorem raiseNat_links (n : Nat) (s : State) : (raiseNat n s).links = s.links := by rw [raiseNat_only n s]
@[simp] theorem raiseNat_fields (n : Nat) (s : State) : (raiseNat n s).fields = s.fields := by rw [raiseNat_only n s]
@[simp] theorem raiseNat_gov (n : Nat) (s : State) : (raiseNat n s).gov = s.gov := by rw [raiseNat_only n s]
@[simp] theorem raiseNat_cal (n : Nat) (s : State) : (raiseNat n s).cal = s.cal := by rw [raiseNat_only n s]
@[simp] theorem raiseNat_mi (n : Nat) (s : State) : (raiseNat n s).mi = s.mi := by rw [raiseNat_only n s]
@[simp] theorem raiseNat_sec (n : Nat) (s : State) : (raiseNat n s).sec = s.sec := by rw [raiseNat_only n s]
@[simp] theorem raiseNat_cask (n : Nat) (s : State) : (raiseNat n s).cask = s.cask := by rw [raiseNat_only n s]
@[simp] theorem raiseNat_mmp (n : Nat) (s : State) : (raiseNat n s).mmp = s.mmp := by rw [raiseNat_only n s]
@[simp] theorem raiseNat_inj (n : Nat) (s : State) : (raiseNat n s).inj = s.inj := by rw [raiseNat_only n s]

@[simp] theorem serviceDone_pending (p : Port) (n : Fin 96) (s : State) : (serviceDone p n s).pending = s.pending := by rw [serviceDone_only p n s]
@[simp] theorem serviceDone_now (p : Port) (n : Fin 96) (s : State) : (serviceDone p n s).now = s.now := by rw [serviceDone_only p n s]
@[simp] theorem serviceDone_free (p : Port) (n : Fin 96) (s : State) : (serviceDone p n s).free = s.free := by rw [serviceDone_only p n s]
@[simp] theorem serviceDone_pw (p : Port) (n : Fin 96) (s : State) : (serviceDone p n s).pw = s.pw := by rw [serviceDone_only p n s]
@[simp] theorem serviceDone_aon (p : Port) (n : Fin 96) (s : State) : (serviceDone p n s).aon = s.aon := by rw [serviceDone_only p n s]
@[simp] theorem serviceDone_ports (p : Port) (n : Fin 96) (s : State) : (serviceDone p n s).ports = s.ports := by rw [serviceDone_only p n s]
@[simp] theorem serviceDone_deferred (p : Port) (n : Fin 96) (s : State) : (serviceDone p n s).deferred = s.deferred := by rw [serviceDone_only p n s]
@[simp] theorem serviceDone_turn (p : Port) (n : Fin 96) (s : State) : (serviceDone p n s).turn = s.turn := by rw [serviceDone_only p n s]
@[simp] theorem serviceDone_grpJob (p : Port) (n : Fin 96) (s : State) : (serviceDone p n s).grpJob = s.grpJob := by rw [serviceDone_only p n s]
@[simp] theorem serviceDone_regJob (p : Port) (n : Fin 96) (s : State) : (serviceDone p n s).regJob = s.regJob := by rw [serviceDone_only p n s]
@[simp] theorem serviceDone_cfgJob (p : Port) (n : Fin 96) (s : State) : (serviceDone p n s).cfgJob = s.cfgJob := by rw [serviceDone_only p n s]
@[simp] theorem serviceDone_cfg (p : Port) (n : Fin 96) (s : State) : (serviceDone p n s).cfg = s.cfg := by rw [serviceDone_only p n s]
@[simp] theorem serviceDone_nv (p : Port) (n : Fin 96) (s : State) : (serviceDone p n s).nv = s.nv := by rw [serviceDone_only p n s]
@[simp] theorem serviceDone_taps (p : Port) (n : Fin 96) (s : State) : (serviceDone p n s).taps = s.taps := by rw [serviceDone_only p n s]
@[simp] theorem serviceDone_flt (p : Port) (n : Fin 96) (s : State) : (serviceDone p n s).flt = s.flt := by rw [serviceDone_only p n s]
@[simp] theorem serviceDone_wd (p : Port) (n : Fin 96) (s : State) : (serviceDone p n s).wd = s.wd := by rw [serviceDone_only p n s]
@[simp] theorem serviceDone_trk (p : Port) (n : Fin 96) (s : State) : (serviceDone p n s).trk = s.trk := by rw [serviceDone_only p n s]
@[simp] theorem serviceDone_seq (p : Port) (n : Fin 96) (s : State) : (serviceDone p n s).seq = s.seq := by rw [serviceDone_only p n s]
@[simp] theorem serviceDone_mems (p : Port) (n : Fin 96) (s : State) : (serviceDone p n s).mems = s.mems := by rw [serviceDone_only p n s]
@[simp] theorem serviceDone_smp (p : Port) (n : Fin 96) (s : State) : (serviceDone p n s).smp = s.smp := by rw [serviceDone_only p n s]
@[simp] theorem serviceDone_mirrors (p : Port) (n : Fin 96) (s : State) : (serviceDone p n s).mirrors = s.mirrors := by rw [serviceDone_only p n s]
@[simp] theorem serviceDone_links (p : Port) (n : Fin 96) (s : State) : (serviceDone p n s).links = s.links := by rw [serviceDone_only p n s]
@[simp] theorem serviceDone_fields (p : Port) (n : Fin 96) (s : State) : (serviceDone p n s).fields = s.fields := by rw [serviceDone_only p n s]
@[simp] theorem serviceDone_gov (p : Port) (n : Fin 96) (s : State) : (serviceDone p n s).gov = s.gov := by rw [serviceDone_only p n s]
@[simp] theorem serviceDone_cal (p : Port) (n : Fin 96) (s : State) : (serviceDone p n s).cal = s.cal := by rw [serviceDone_only p n s]
@[simp] theorem serviceDone_mi (p : Port) (n : Fin 96) (s : State) : (serviceDone p n s).mi = s.mi := by rw [serviceDone_only p n s]
@[simp] theorem serviceDone_sec (p : Port) (n : Fin 96) (s : State) : (serviceDone p n s).sec = s.sec := by rw [serviceDone_only p n s]
@[simp] theorem serviceDone_cask (p : Port) (n : Fin 96) (s : State) : (serviceDone p n s).cask = s.cask := by rw [serviceDone_only p n s]
@[simp] theorem serviceDone_mmp (p : Port) (n : Fin 96) (s : State) : (serviceDone p n s).mmp = s.mmp := by rw [serviceDone_only p n s]
@[simp] theorem serviceDone_inj (p : Port) (n : Fin 96) (s : State) : (serviceDone p n s).inj = s.inj := by rw [serviceDone_only p n s]

@[simp] theorem reroute_pending (n : Fin 96) (o : Nat) (s : State) : (reroute n o s).pending = s.pending := by rw [reroute_only n o s]
@[simp] theorem reroute_now (n : Fin 96) (o : Nat) (s : State) : (reroute n o s).now = s.now := by rw [reroute_only n o s]
@[simp] theorem reroute_free (n : Fin 96) (o : Nat) (s : State) : (reroute n o s).free = s.free := by rw [reroute_only n o s]
@[simp] theorem reroute_pw (n : Fin 96) (o : Nat) (s : State) : (reroute n o s).pw = s.pw := by rw [reroute_only n o s]
@[simp] theorem reroute_aon (n : Fin 96) (o : Nat) (s : State) : (reroute n o s).aon = s.aon := by rw [reroute_only n o s]
@[simp] theorem reroute_ports (n : Fin 96) (o : Nat) (s : State) : (reroute n o s).ports = s.ports := by rw [reroute_only n o s]
@[simp] theorem reroute_deferred (n : Fin 96) (o : Nat) (s : State) : (reroute n o s).deferred = s.deferred := by rw [reroute_only n o s]
@[simp] theorem reroute_turn (n : Fin 96) (o : Nat) (s : State) : (reroute n o s).turn = s.turn := by rw [reroute_only n o s]
@[simp] theorem reroute_grpJob (n : Fin 96) (o : Nat) (s : State) : (reroute n o s).grpJob = s.grpJob := by rw [reroute_only n o s]
@[simp] theorem reroute_regJob (n : Fin 96) (o : Nat) (s : State) : (reroute n o s).regJob = s.regJob := by rw [reroute_only n o s]
@[simp] theorem reroute_cfgJob (n : Fin 96) (o : Nat) (s : State) : (reroute n o s).cfgJob = s.cfgJob := by rw [reroute_only n o s]
@[simp] theorem reroute_cfg (n : Fin 96) (o : Nat) (s : State) : (reroute n o s).cfg = s.cfg := by rw [reroute_only n o s]
@[simp] theorem reroute_nv (n : Fin 96) (o : Nat) (s : State) : (reroute n o s).nv = s.nv := by rw [reroute_only n o s]
@[simp] theorem reroute_taps (n : Fin 96) (o : Nat) (s : State) : (reroute n o s).taps = s.taps := by rw [reroute_only n o s]
@[simp] theorem reroute_flt (n : Fin 96) (o : Nat) (s : State) : (reroute n o s).flt = s.flt := by rw [reroute_only n o s]
@[simp] theorem reroute_wd (n : Fin 96) (o : Nat) (s : State) : (reroute n o s).wd = s.wd := by rw [reroute_only n o s]
@[simp] theorem reroute_trk (n : Fin 96) (o : Nat) (s : State) : (reroute n o s).trk = s.trk := by rw [reroute_only n o s]
@[simp] theorem reroute_seq (n : Fin 96) (o : Nat) (s : State) : (reroute n o s).seq = s.seq := by rw [reroute_only n o s]
@[simp] theorem reroute_mems (n : Fin 96) (o : Nat) (s : State) : (reroute n o s).mems = s.mems := by rw [reroute_only n o s]
@[simp] theorem reroute_smp (n : Fin 96) (o : Nat) (s : State) : (reroute n o s).smp = s.smp := by rw [reroute_only n o s]
@[simp] theorem reroute_mirrors (n : Fin 96) (o : Nat) (s : State) : (reroute n o s).mirrors = s.mirrors := by rw [reroute_only n o s]
@[simp] theorem reroute_links (n : Fin 96) (o : Nat) (s : State) : (reroute n o s).links = s.links := by rw [reroute_only n o s]
@[simp] theorem reroute_fields (n : Fin 96) (o : Nat) (s : State) : (reroute n o s).fields = s.fields := by rw [reroute_only n o s]
@[simp] theorem reroute_gov (n : Fin 96) (o : Nat) (s : State) : (reroute n o s).gov = s.gov := by rw [reroute_only n o s]
@[simp] theorem reroute_cal (n : Fin 96) (o : Nat) (s : State) : (reroute n o s).cal = s.cal := by rw [reroute_only n o s]
@[simp] theorem reroute_mi (n : Fin 96) (o : Nat) (s : State) : (reroute n o s).mi = s.mi := by rw [reroute_only n o s]
@[simp] theorem reroute_sec (n : Fin 96) (o : Nat) (s : State) : (reroute n o s).sec = s.sec := by rw [reroute_only n o s]
@[simp] theorem reroute_cask (n : Fin 96) (o : Nat) (s : State) : (reroute n o s).cask = s.cask := by rw [reroute_only n o s]
@[simp] theorem reroute_mmp (n : Fin 96) (o : Nat) (s : State) : (reroute n o s).mmp = s.mmp := by rw [reroute_only n o s]
@[simp] theorem reroute_inj (n : Fin 96) (o : Nat) (s : State) : (reroute n o s).inj = s.inj := by rw [reroute_only n o s]

end Sys2Proof.Machine
end

