-- ==== Sys2Proof/Laws/Memory.lean ====
section
/-! SUPPORT. The protected memories (16_memory_integrity R468 to R470): reads after writes, and the canonical form that every
memory operation keeps. -/

namespace Sys2Proof.Machine

/-! ### Lists with rising keys -/

theorem lookupD_tail {α : Type} (d : α) (a b : Nat) (y : α) (l : List (Nat × α)) (h : rising ((b, y) :: l) = true) (hab : a ≤ b) :
    lookupD d a l = d := by
  induction l generalizing b y with
  | nil => rfl
  | cons e l ih =>
    obtain ⟨c, z⟩ := e
    simp only [rising, Bool.and_eq_true, decide_eq_true_eq] at h
    have hne : a ≠ c := by omega
    simp only [lookupD, hne, if_false]
    exact ih c z h.2 (by omega)

theorem lookupD_insertKey_same {α : Type} (d : α) (a : Nat) (x : α) (keep : Bool) (h : keep = false → x = d) (l : List (Nat × α))
    (hl : rising l = true) : lookupD d a (insertKey a x keep l) = x := by
  induction l with
  | nil => cases keep <;> simp_all [insertKey, lookupD]
  | cons e l ih =>
    obtain ⟨b, y⟩ := e
    have tailFree : a ≤ b → lookupD d a l = d := lookupD_tail d a b y l hl
    have hr' : rising l = true := by cases l <;> simp_all [rising]
    unfold insertKey
    split
    · rename_i hlt
      cases keep
      · have hne : a ≠ b := by omega
        simp only [Bool.false_eq_true, if_false, lookupD, hne]
        rw [h rfl]; exact tailFree (by omega)
      · simp [lookupD]
    · split
      · rename_i hab
        subst hab
        cases keep
        · simp only [Bool.false_eq_true, if_false]
          rw [h rfl]; exact tailFree (Nat.le_refl _)
        · simp [lookupD]
      · rename_i hne
        simp only [lookupD, hne, if_false]
        exact ih hr'

theorem lookupD_insertKey_other {α : Type} (d : α) (a b : Nat) (x : α) (keep : Bool) (hab : b ≠ a) (l : List (Nat × α)) :
    lookupD d b (insertKey a x keep l) = lookupD d b l := by
  induction l with
  | nil => cases keep <;> simp [insertKey, lookupD, hab]
  | cons e l ih =>
    obtain ⟨c, y⟩ := e
    unfold insertKey
    split
    · cases keep <;> simp [lookupD, hab]
    · split
      · rename_i h; subst h
        cases keep <;> simp [lookupD, hab]
      · simp only [lookupD, ih]

theorem rising_cons {α : Type} (e : Nat × α) (l : List (Nat × α)) :
    rising (e :: l) = true ↔ (∀ f ∈ l.head?, e.1 < f.1) ∧ rising l = true := by
  cases l <;> simp [rising]

theorem insertKey_head {α : Type} (a : Nat) (x : α) (keep : Bool) (l : List (Nat × α)) :
    ∀ f ∈ (insertKey a x keep l).head?, f.1 = a ∨ (∃ e ∈ l, f.1 = e.1) := by
  intro f hf
  cases l with
  | nil =>
    cases keep
    · simp [insertKey] at hf
    · simp [insertKey] at hf
      subst hf
      simp
  | cons e l =>
    obtain ⟨b, y⟩ := e
    unfold insertKey at hf
    split at hf
    · cases keep <;> simp at hf <;> subst hf <;> simp
    · split at hf
      · cases keep
        · right
          simp only [Bool.false_eq_true, if_false] at hf
          exact ⟨f, List.mem_cons_of_mem _ (List.mem_of_mem_head? hf), rfl⟩
        · simp at hf; subst hf; simp
      · simp at hf; subst hf; simp

theorem rising_lt {α : Type} (e : Nat × α) (l : List (Nat × α)) (h : rising (e :: l) = true) : ∀ f ∈ l, e.1 < f.1 := by
  induction l generalizing e with
  | nil => simp
  | cons g l ih =>
    simp only [rising, Bool.and_eq_true, decide_eq_true_eq] at h
    intro f hf
    rcases List.mem_cons.1 hf with rfl | hf
    · exact h.1
    · have := ih g h.2 f hf; omega

theorem insertKey_rising {α : Type} (a : Nat) (x : α) (keep : Bool) (l : List (Nat × α)) (h : rising l = true) :
    rising (insertKey a x keep l) = true := by
  induction l with
  | nil => cases keep <;> simp [insertKey, rising]
  | cons e l ih =>
    obtain ⟨b, y⟩ := e
    have hl : rising l = true := ((rising_cons _ _).1 h).2
    unfold insertKey
    split
    · rename_i hlt
      cases keep
      · simpa using h
      · simp only [if_true]
        exact (rising_cons _ _).2 ⟨by simpa using hlt, h⟩
    · split
      · rename_i hab
        subst hab
        cases keep
        · simpa using hl
        · simp only [if_true]
          exact (rising_cons _ _).2 ⟨((rising_cons _ _).1 h).1, hl⟩
      · refine (rising_cons _ _).2 ⟨?_, ih hl⟩
        intro f hf
        rcases insertKey_head a x keep l f hf with hfa | ⟨e, he, hfe⟩
        · show b < f.1; omega
        · have : b < e.1 := rising_lt (b, y) l h e he
          show b < f.1; omega

theorem insertKey_mem {α : Type} (a : Nat) (x : α) (keep : Bool) (l : List (Nat × α)) :
    ∀ e ∈ insertKey a x keep l, (e = (a, x) ∧ keep = true) ∨ e ∈ l := by
  induction l with
  | nil => cases keep <;> simp [insertKey]
  | cons f l ih =>
    obtain ⟨b, y⟩ := f
    intro e he
    unfold insertKey at he
    split at he
    · cases keep
      · exact .inr (by simpa using he)
      · simpa using he
    · split at he
      · cases keep
        · exact .inr (List.mem_cons_of_mem _ (by simpa using he))
        · rcases List.mem_cons.1 (by simpa using he : e ∈ (a, x) :: l) with h | h
          · exact .inl ⟨h, rfl⟩
          · exact .inr (List.mem_cons_of_mem _ h)
      · rcases List.mem_cons.1 he with rfl | he
        · exact .inr (List.mem_cons_self ..)
        · rcases ih e he with h | h
          · exact .inl h
          · exact .inr (List.mem_cons_of_mem _ h)

/-! ### One memory -/

theorem Mem.wf_iff (m : Mem) : Mem.wf m = true ↔ rising m = true ∧ ∀ e ∈ m, e.2 ≠ 0 := by
  simp [Mem.wf, bne]

/-- Storing a cell keeps the canonical form; a zero cell takes its entry away. -/
theorem Mem.wf_insertKey (a : Nat) (c : Cell) (m : Mem) (h : Mem.wf m = true) : Mem.wf (insertKey a c (c != 0) m) = true := by
  rw [Mem.wf_iff] at h ⊢
  refine ⟨insertKey_rising a c _ m h.1, fun e he => ?_⟩
  rcases insertKey_mem a c _ m e he with ⟨rfl, hk⟩ | hm
  · simpa using hk
  · exact h.2 e hm

theorem rising_filter {α : Type} (p : Nat × α → Bool) (l : List (Nat × α)) (h : rising l = true) : rising (l.filter p) = true := by
  induction l with
  | nil => rfl
  | cons e l ih =>
    have hl := ((rising_cons _ _).1 h).2
    by_cases hp : p e
    · rw [List.filter_cons_of_pos hp]
      refine (rising_cons _ _).2 ⟨fun f hf => ?_, ih hl⟩
      exact rising_lt e l h f (List.mem_filter.1 (List.mem_of_mem_head? hf)).1
    · rw [List.filter_cons_of_neg hp]
      exact ih hl

theorem Mem.wf_filter (p : Nat × Cell → Bool) (m : Mem) (h : Mem.wf m = true) : Mem.wf (m.filter p) = true := by
  rw [Mem.wf_iff] at h ⊢
  exact ⟨rising_filter p m h.1, fun e he => h.2 e (List.mem_filter.1 he).1⟩

theorem Mem.wf_nil : Mem.wf [] = true := rfl

/-! ### All memories -/

theorem State.memsWf_iff (s : State) : s.memsWf = true ↔ ∀ i : Fin 16, Mem.wf s.mems[i] = true := by
  simp only [State.memsWf, List.all_eq_true, Vector.mem_toList_iff, Vector.mem_iff_getElem]
  constructor
  · intro h i; exact h _ ⟨i.val, i.isLt, rfl⟩
  · rintro h _ ⟨i, hi, rfl⟩; exact h ⟨i, hi⟩

theorem memsWf_of_mems {s t : State} (h : t.mems = s.mems) : t.memsWf = s.memsWf := by simp [State.memsWf, h]

theorem vmod_get {α : Type} {n : Nat} (v : Vector α n) (i j : Fin n) (f : α → α) :
    (vmod v i f)[j] = if i = j then f v[j] else v[j] := by
  unfold vmod
  by_cases h : i = j
  · subst h; simp
  · have : i.val ≠ j.val := fun e => h (Fin.ext e)
    simp [h, this]

theorem memsWf_vmod (s : State) (m : Fin 16) (f : Mem → Mem) (hf : ∀ x, Mem.wf x = true → Mem.wf (f x) = true) (t : State)
    (ht : t.mems = vmod s.mems m f) (h : s.memsWf = true) : t.memsWf = true := by
  rw [State.memsWf_iff] at h ⊢
  intro i
  rw [ht, vmod_get]
  split
  · exact hf _ (h i)
  · exact h i

theorem memSet_wf (m : Fin 16) (a : Nat) (c : Cell) (s : State) (h : s.memsWf = true) : (memSet m a c s).memsWf = true :=
  memsWf_vmod s m _ (Mem.wf_insertKey a c) _ rfl h

theorem memClear_wf (m : Fin 16) (s : State) (h : s.memsWf = true) : (memClear m s).memsWf = true :=
  memsWf_vmod s m (fun _ => []) (fun _ _ => rfl) _ rfl h

theorem memClearRange_wf (m : Fin 16) (a n : Nat) (s : State) (h : s.memsWf = true) : (memClearRange m a n s).memsWf = true :=
  memsWf_vmod s m _ (fun x hx => Mem.wf_filter _ x hx) _ rfl h

@[simp] theorem setLineCrc_mems (b : Fin 2) (line : Nat) (c : BitVec 16) (s : State) : (setLineCrc b line c s).mems = s.mems := rfl

theorem memPut_wf (m : Fin 16) (a : Nat) (w : Word) (s : State) (h : s.memsWf = true) : (memPut m a w s).memsWf = true := by
  unfold memPut
  dsimp only
  have h1 := memSet_wf m a (if (lineBank s m).isSome then plainCell w else encWord w) s h
  generalize memSet m a (if (lineBank s m).isSome then plainCell w else encWord w) s = u at h1 ⊢
  cases lineBank s m <;> dsimp only <;> split <;> (try split) <;>
    first
      | exact h1
      | (rw [memsWf_of_mems (raise_mems ..)]; exact memSet_wf _ _ _ _ h1)

/-! ### Reads after writes -/

/-- A stored cell is read back. -/
theorem memCell_memSet (m : Fin 16) (a : Nat) (c : Cell) (s : State) (h : s.memsWf = true) :
    memCell (memSet m a c s) m a = c := by
  have hr := ((Mem.wf_iff _).1 ((State.memsWf_iff s).1 h m)).1
  simp only [memCell, memSet_mems]
  rw [vmod_get, if_pos rfl]
  exact lookupD_insertKey_same 0 a c _ (by simp) _ hr

/-- A store changes no other word. -/
theorem memCell_memSet_other (m k : Fin 16) (a b : Nat) (c : Cell) (s : State) (h : k ≠ m ∨ b ≠ a) :
    memCell (memSet m a c s) k b = memCell s k b := by
  simp only [memCell, memSet_mems]
  rw [vmod_get]
  split
  · rename_i hm
    rcases h with h | h
    · exact absurd hm.symm h
    · exact lookupD_insertKey_other 0 a b c _ h _
  · rfl

end Sys2Proof.Machine
end

