-- ==== Sys2Proof/Laws/Recorder.lean ====
section
/-! SUPPORT. What the cask recorder's operations can change (18_recording_replay R509 to R524): the cask, the protected
memories, their counts, the interrupt controller and the requests to the memory master port; and every memory keeps its
canonical form. -/

namespace Sys2Proof.Machine

/-- From `s` to `t` nothing outside the recorder's reach has changed, and canonical memories stay canonical. -/
def RecStep (s t : State) : Prop :=
  t = { s with mems := t.mems, mi := t.mi, irq := t.irq, mmp := t.mmp, cask := t.cask }
    ∧ (s.memsWf = true → t.memsWf = true) ∧ (∀ m : Fin 16, m ≠ 8 → t.mems[m] = s.mems[m])
    ∧ (s.mi.fArmed = false → t.mi.fArmed = false)

theorem RecStep.refl (s : State) : RecStep s s := ⟨rfl, id, fun _ _ => rfl, id⟩

theorem RecStep.trans {s t u : State} (h : RecStep s t) (k : RecStep t u) : RecStep s u := by
  refine ⟨?_, fun w => k.2.1 (h.2.1 w), fun m hm => (k.2.2.1 m hm).trans (h.2.2.1 m hm), fun w => k.2.2.2 (h.2.2.2 w)⟩
  have h1 := h.1
  have k1 := k.1
  rw [h1] at k1
  exact k1

variable {s t : State}

theorem RecStep.cask (h : RecStep s t) (f : Cask → Cask) : RecStep s (modCask f t) := h.trans ⟨rfl, id, fun _ _ => rfl, id⟩
theorem RecStep.mmp (h : RecStep s t) (f : Mmp → Mmp) : RecStep s (modMmp f t) := h.trans ⟨rfl, id, fun _ _ => rfl, id⟩
theorem RecStep.mi (h : RecStep s t) (f : Mi → Mi) (hf : ∀ x, x.fArmed = false → (f x).fArmed = false) : RecStep s (modMi f t) :=
  h.trans ⟨rfl, id, fun _ _ => rfl, hf t.mi⟩

theorem RecStep.raise (h : RecStep s t) (n : Fin 96) : RecStep s (Machine.raise n t) :=
  h.trans ⟨by rw [raise_only n t], fun w => by rwa [memsWf_of_mems (raise_mems ..)],
    fun m _ => by rw [raise_mems], fun w => by rwa [raise_mi]⟩

theorem RecStep.memSet (h : RecStep s t) (a : Nat) (c : Cell) : RecStep s (Machine.memSet caskM a c t) :=
  h.trans ⟨rfl, memSet_wf caskM a c t, fun m hm => by
    rw [memSet_mems, vmod_get, if_neg (show ¬caskM = m from Ne.symm hm)], id⟩

theorem RecStep.ite {u : State} (c : Prop) [d : Decidable c] (h : RecStep s t) (k : RecStep s u) : RecStep s (if c then t else u) := by
  split
  · exact h
  · exact k

theorem RecStep.memPut (h : RecStep s t) (a : Nat) (w : Word) : RecStep s (Machine.memPut caskM a w t) := by
  unfold Machine.memPut
  dsimp only
  have h1 := h.memSet a (if (lineBank t caskM).isSome then plainCell w else encWord w)
  generalize Machine.memSet caskM a (if (lineBank t caskM).isSome then plainCell w else encWord w) t = u at h1 ⊢
  cases lineBank t caskM with
  | none =>
    refine RecStep.ite _ (((RecStep.ite _ (h1.mi _ (by intro _ e; exact e)) h1).mi _ (by intro _ _; rfl)).memSet a _ |>.raise 95) (RecStep.ite _ (h1.mi _ (by intro _ e; exact e)) h1)
  | some b =>
    have h2 : RecStep s (setLineCrc b (a / 8) (crc16 (lineWords u caskM (a / 8))) u) := h1.mi _ (by intro _ e; exact e)
    refine RecStep.ite _ (((RecStep.ite _ (h2.mi _ (by intro _ e; exact e)) h2).mi _ (by intro _ _; rfl)).memSet a _ |>.raise 95) (RecStep.ite _ (h2.mi _ (by intro _ e; exact e)) h2)

theorem RecStep.fold {α : Type} (h : RecStep s t) (l : List α) (f : State → α → State)
    (hf : ∀ (u : State) (a : α), RecStep s u → RecStep s (f u a)) : RecStep s (l.foldl f t) := by
  induction l generalizing t with
  | nil => exact h
  | cons a l ih => exact ih (hf t a h)

theorem RecStep.memPuts (h : RecStep s t) (a : Nat) (ws : List Word) : RecStep s (Machine.memPuts caskM a ws t) :=
  h.fold _ _ fun _ _ k => k.memPut ..

theorem RecStep.memClearRange (h : RecStep s t) (a n : Nat) : RecStep s (Machine.memClearRange caskM a n t) :=
  h.trans ⟨rfl, memClearRange_wf caskM a n t, fun m hm => by
    rw [show (Machine.memClearRange caskM a n t).mems = vmod t.mems caskM _ from rfl, vmod_get, if_neg (show ¬caskM = m from Ne.symm hm)], id⟩

theorem RecStep.when (h : RecStep s t) (b : Bool) (f : State → State) (hf : RecStep s (f t)) : RecStep s (whenSt b f t) := by
  cases b
  · exact h
  · exact hf

theorem RecStep.segOpen (h : RecStep s t) (a b : Bool) : RecStep s (Machine.segOpen a b t) :=
  ((h.cask _).memClearRange ..).memPuts ..

theorem RecStep.highWater (h : RecStep s t) : RecStep s (Machine.highWater t) := by
  unfold Machine.highWater
  dsimp only
  split
  · exact h.raise _
  · exact h

theorem RecStep.hashHead (h : RecStep s t) : RecStep s (Machine.hashHead t) := by
  unfold Machine.hashHead
  split
  · exact h
  · exact (h.when _ _ (h.memPuts ..)).cask _

theorem RecStep.hashBefore (slot n : Nat) (h : RecStep s t) : RecStep s (Machine.hashBefore slot n t) := by
  induction n generalizing t with
  | zero => exact h
  | succ n ih =>
    unfold Machine.hashBefore
    split
    · split
      · exact ih h.hashHead
      · exact h
    · exact h

theorem RecStep.autoKick (h : RecStep s t) : RecStep s (Machine.autoKick t) := by
  unfold Machine.autoKick
  split
  · exact h
  · split
    · exact ((RecStep.hashBefore _ _ h).cask _).mmp _
    · exact h

theorem RecStep.segClose (h : RecStep s t) (c : Nat) (l : Bool) : RecStep s (Machine.segClose c l t) := by
  unfold Machine.segClose
  dsimp only
  split
  · exact ((((h.memPut ..).memPut ..).cask _).highWater).autoKick
  · exact h

theorem RecStep.recWords (h : RecStep s t) (ws : List Word) : RecStep s (Machine.recWords ws t) := by
  unfold Machine.recWords
  exact (h.memPuts ..).cask _

theorem RecStep.recRaw (h : RecStep s t) (a b c : Nat) (ws : List Word) : RecStep s (Machine.recRaw a b c ws t) := by
  unfold Machine.recRaw
  dsimp only
  split
  · exact ((h.recWords _).cask _).recWords _
  · exact h.recWords _

theorem RecStep.recCheckpoint (h : RecStep s t) : RecStep s (Machine.recCheckpoint t) :=
  RecStep.fold (h.recRaw ..) _ _ fun _ _ k => k.recRaw ..

theorem RecStep.recSession (h : RecStep s t) : RecStep s (Machine.recSession t) := h.recRaw ..

theorem RecStep.recHeld (h : RecStep s t) : RecStep s (Machine.recHeld t) :=
  RecStep.fold (h.cask _) _ _ fun _ _ k => k.recRaw ..

theorem RecStep.segNext (h : RecStep s t) : RecStep s (Machine.segNext t) := by
  unfold Machine.segNext
  dsimp only
  split
  · exact h.cask _
  · apply RecStep.recHeld
    have h1 : RecStep s (Machine.segOpen (decide (t.cask.seg = 0)) false (modCask (fun k => { k with paused := false }) t)) :=
      (h.cask _).segOpen ..
    exact RecStep.ite _ (RecStep.ite _ h1.recSession h1).recCheckpoint (RecStep.ite _ h1.recSession h1)

theorem RecStep.slotFreed (h : RecStep s t) (k : Nat) : RecStep s (Machine.slotFreed k t) := by
  unfold Machine.slotFreed
  dsimp only
  split
  · exact (h.cask _).segNext
  · exact h.cask _

theorem RecStep.sessionEnding (h : RecStep s t) (c : Nat) : RecStep s (Machine.sessionEnding c t) := by
  unfold Machine.sessionEnding
  dsimp only
  have h1 := (h.segClose c false).cask fun k => { k with ending := some (BitVec.ofNat 3 c), freeze := none }
  split
  · exact h1
  · split
    · exact h1
    · exact h1.cask _

theorem RecStep.segRoll (h : RecStep s t) (c : Nat) : RecStep s (Machine.segRoll c t) := by
  unfold Machine.segRoll
  split
  · exact h.sessionEnding _
  · exact ((h.segClose ..).cask _).segNext
  · exact (h.segClose ..).segNext

theorem RecStep.recDrop (h : RecStep s t) (k : Nat) : RecStep s (Machine.recDrop k t) := h.cask _

theorem RecStep.recLoss (h : RecStep s t) : RecStep s (Machine.recLoss t) := by
  unfold Machine.recLoss
  dsimp only
  split
  · exact h
  · exact (h.cask _).recRaw ..

/-- A record offered to the cask changes nothing outside the recorder's reach. -/
theorem RecStep.recOffer (h : RecStep s t) (a b c : Nat) (ws : List Word) : RecStep s (Machine.recOffer a b c ws t) := by
  unfold Machine.recOffer
  split
  · dsimp only
    have h1 : RecStep s (if t.cask.paused then Machine.segNext t else t) := RecStep.ite _ h.segNext h
    generalize (if t.cask.paused then Machine.segNext t else t) = u at h1 ⊢
    have h2 : RecStep s (modCask (fun k => { k with buf := caskBuf u + (ws.length + 2), bufAt := u.now }) u) := h1.cask _
    exact RecStep.ite _ (h1.recDrop _) (RecStep.ite _ (h1.recDrop _)
      (RecStep.ite _ ((RecStep.ite _ (h2.segRoll 0) h2).recLoss.recRaw ..) ((RecStep.ite _ (h2.segRoll 0) h2).recDrop _)))
  · exact h

theorem RecStep.recNow (h : RecStep s t) (a b : Nat) (ws : List Word) : RecStep s (Machine.recNow a b ws t) := h.recOffer ..

theorem RecStep.recState (h : RecStep s t) : RecStep s (Machine.recState t) := h.recNow ..

theorem RecStep.caskFreezeGo (h : RecStep s t) (n : Nat) : RecStep s (Machine.caskFreezeGo n t) := h.cask _

theorem RecStep.shadowRoll (h : RecStep s t) (c : Nat) : RecStep s (Machine.shadowRoll c t) := by
  unfold Machine.shadowRoll
  dsimp only
  have h1 := h.segClose c false
  exact RecStep.ite _ (h1.cask _) ((h1.segOpen ..).cask _).recHeld

theorem RecStep.recShadow (h : RecStep s t) (a b c : Nat) (ws : List Word) : RecStep s (Machine.recShadow a b c ws t) := by
  unfold Machine.recShadow
  split
  · dsimp only
    exact RecStep.ite _ ((RecStep.ite _ (h.shadowRoll 0) h).recRaw ..) (RecStep.ite _ (h.shadowRoll 0) h)
  · exact h

end Sys2Proof.Machine
end

