-- ==== Sys2Proof/Laws/Rows.lean ====
section
/-! SUPPORT. Single register accesses (06_registers_taps R18, R166): a write that passes its checks has the effect of its
register, and nothing else happens. -/

namespace Sys2Proof.Machine

theorem permitted_live {op : Op} {s : State} (h : opPermitted op s.pw.dev = true) : isLive s = true := by
  unfold isLive
  revert h
  cases s.pw.dev <;> simp [opPermitted]

theorem RowReady.live {op : Op} {p : Port} {s : State} (h : RowReady op p s) : isLive s = true := permitted_live h.permitted

theorem RowReady.open {op : Op} {p : Port} {s : State} (h : RowReady op p s) : rowOpen op p s = true := by
  simp [rowOpen, portOpen, resetting, interpBusy, h.live, h.permitted, h.noReset, h.noEntry, h.packet, h.noGrp, h.noReg]

theorem cfgWait_none {s : State} (h : s.cfgJob = none) : cfgWait s = s := by simp [cfgWait, h]

theorem tapHeld_false {op : Op} {p : Port} {s : State} (h : RowReady op p s) (k : Fin 32) : tapHeld s p k = false := by
  have := h.taps k
  simpa [tapHeld] using this

theorem boundHeld_false {op : Op} {p : Port} {s : State} (h : RowReady op p s) (kind v : Nat) : boundHeld s p kind v = false := by
  simp [boundHeld, tapHeld_false h]

theorem addrFree_true {op : Op} {p : Port} {s : State} (h : RowReady op p s) (a : Nat) : addrFree s p a = true := by
  have ht := tapHeld_false h
  have hf : tapHeld s p = fun _ => false := funext ht
  simp only [addrFree, boundHeld_false h, hf]
  cases Reg.ofAddr a with
  | none => simp
  | some r => cases r <;> simp

/-- What a write of `v` to a register of one word does (R18, R166). -/
theorem regRow_next {p : Port} {s : State} (h : RowReady Op.regWrite p s) (r : Reg) (v : Word)
    (ha : Reg.ofAddr r.addr = some r) (hlt : r.addr < 2 ^ 16) (hw : r.wmask ≠ 0) (hd : hdataIx r.addr = none)
    (hst : regStateOk s r (maskW r v) = true) (hrg : regRange (afterWrite r (maskW r v) s) r (maskW r v) = true)
    (hse : sealHolds s r = false) (h1 : isHigher r = false) (h2 : snapHigher r = []) :
    regRow p r v s = .next (regEffect p r (maskW r v) s) := by
  have hnat : (BitVec.ofNat 20 r.addr).toNat = r.addr := by
    rw [BitVec.toNat_ofNat]; exact Nat.mod_eq_of_lt (Nat.lt_trans hlt (by decide))
  have hf : fld (BitVec.ofNat 20 r.addr) 16 4 = 0 := by
    simp only [fld, hnat, Nat.shiftRight_eq_div_pow, Nat.div_eq_of_lt hlt, Nat.zero_mod]
  have hj : judgePair Op.regWrite p (BitVec.ofNat 20 r.addr, v) s = none := by
    simp [judgePair, hf, judgeUnit, hnat, targetOf, ha, hw, hst, hrg, opHeld, boundHeld_false h, addrFree_true h, hse, hd]
  simp [regRow, h.open, cfgWait_none h.noCfg, writeUnits, hj, hnat, hd, writeAddr, ha, regWriteBy, h1, h2, hw]

/-- The same for a register that no state rule, no range rule and no seal restricts. -/
theorem regRow_plain {p : Port} {s : State} (h : RowReady Op.regWrite p s) (r : Reg) (v : Word)
    (ha : Reg.ofAddr r.addr = some r) (hlt : r.addr < 2 ^ 16) (hw : r.wmask ≠ 0) (hd : hdataIx r.addr = none)
    (hst : regStateRule s r (maskW r v) = true) (hrg : regRange (afterWrite r (maskW r v) s) r (maskW r v) = true)
    (hse : r.isSealed = false) (h1 : isHigher r = false) (h2 : snapHigher r = []) :
    regRow p r v s = .next (regEffect p r (maskW r v) s) :=
  regRow_next h r v ha hlt hw hd (by simp [regStateOk, hse, hst]) hrg (by simp [sealHolds, hse]) h1 h2

end Sys2Proof.Machine
end

