-- ==== Sys2Proof/Laws/Packets.lean ====
section
/-! SUPPORT. The take-up of a command packet and its answer (05_packet_protocol R153 to R159): what they change. -/

namespace Sys2Proof.Machine

/-! ### Stored words -/

theorem append_lo {a b : Nat} (x : BitVec a) (y : BitVec b) (i : Nat) (h : i < b) : (x ++ y).getLsbD i = y.getLsbD i := by
  rw [BitVec.getLsbD_append]; simp [h]

theorem append_hi {a b : Nat} (x : BitVec a) (y : BitVec b) (i : Nat) : (x ++ y).getLsbD (b + i) = x.getLsbD i := by
  rw [BitVec.getLsbD_append]; simp

theorem halfData_encHalf (d : BitVec 10) : halfData (encHalf d) = d := by
  apply BitVec.eq_of_getLsbD_eq
  intro i hi
  rw [halfData, BitVec.getLsbD_extractLsb']
  simp only [hi, decide_true, Bool.true_and, Nat.zero_add]
  exact append_lo (checkBits d) d i hi

theorem decHalf_encHalf (d : BitVec 10) : decHalf (encHalf d) = (encHalf d, .ok) := by
  have hs : checkBits (halfData (encHalf d)) ^^^ (encHalf d).extractLsb' 10 7 = 0 := by
    rw [halfData_encHalf]
    have : (encHalf d).extractLsb' 10 7 = checkBits d := by
      apply BitVec.eq_of_getLsbD_eq
      intro i hi
      rw [BitVec.getLsbD_extractLsb']
      simp only [hi, decide_true, Bool.true_and]
      exact append_hi (checkBits d) d i
    rw [this]
    simp
  unfold decHalf
  simp only [hs]
  rfl

theorem cellLo_mk (h l : BitVec 17) : cellLo (mkCell h l) = l := by
  apply BitVec.eq_of_getLsbD_eq
  intro i hi
  rw [cellLo, BitVec.getLsbD_extractLsb']
  simp only [hi, decide_true, Bool.true_and, Nat.zero_add]
  exact append_lo h l i hi

theorem cellHi_mk (h l : BitVec 17) : cellHi (mkCell h l) = h := by
  apply BitVec.eq_of_getLsbD_eq
  intro i hi
  rw [cellHi, BitVec.getLsbD_extractLsb']
  simp only [hi, decide_true, Bool.true_and]
  exact append_hi h l i

/-- A word as it was stored is found good (R469). -/
theorem decCell_encWord (w : Word) : decCell (encWord w) = (encWord w, .ok) := by
  simp [decCell, encWord, cellLo_mk, cellHi_mk, decHalf_encHalf]

theorem cellData_encWord (w : Word) : cellData (encWord w) = w := by
  simp only [cellData, encWord, cellLo_mk, cellHi_mk, halfData_encHalf]
  apply BitVec.eq_of_getLsbD_eq
  intro i hi
  by_cases h : i < 10
  · refine (append_lo _ _ i h).trans ?_
    simp [h]
  · obtain ⟨k, rfl⟩ : ∃ k, i = 10 + k := ⟨i - 10, by omega⟩
    refine (append_hi _ _ k).trans ?_
    have : k < 10 := by omega
    simp [this]

/-- Words that a buffer memory stored without an error are read back unchanged. -/
theorem cellsRead_good (m : Fin 16) (ws : List Word) (s : State) : cellsRead m (ws.map encWord) s = ((ws, false), s) := by
  have : ∀ (l acc : List Word), (l.map encWord).foldl (fun r c =>
      match decCell c with
      | (_, .ok) => ((r.1.1 ++ [cellData c], r.1.2), r.2)
      | (d, .corrected) => ((r.1.1 ++ [cellData d], r.1.2), noteCorrected m 0 r.2)
      | (_, .bad) => ((r.1.1 ++ [cellData c], true), noteBad .host m 0 r.2)) ((acc, false), s) = ((acc ++ l, false), s) := by
    intro l
    induction l with
    | nil => simp
    | cons w l ih =>
      intro acc
      simp only [List.map_cons, List.foldl_cons, decCell_encWord, cellData_encWord]
      rw [ih]
      simp
  exact this ws []

/-! ### Took -/

theorem Took.refl (s : State) : Took s s := ⟨rfl, fun _ _ => rfl⟩

theorem Took.trans {s t u : State} (h : Took s t) (k : Took t u) : Took s u := by
  refine ⟨?_, fun m hm => (k.2 m hm).trans (h.2 m hm)⟩
  have h1 := h.1
  have k1 := k.1
  rw [h1] at k1
  exact k1

theorem RecStep.took {s t : State} (h : RecStep s t) : Took s t := by
  refine ⟨?_, h.2.2.1⟩
  have h1 := h.1
  generalize t.mems = a, t.mi = b, t.irq = c, t.mmp = d, t.cask = e at h1
  subst h1
  rfl

theorem Took.port {s t : State} (h : Took s t) (p : Port) (f : PortSt → PortSt) : Took s (modPort p f t) := h.trans ⟨rfl, fun _ _ => rfl⟩
theorem Took.turn {s t : State} (h : Took s t) (p : Option Port) : Took s (setTurn p t) := h.trans ⟨rfl, fun _ _ => rfl⟩
theorem Took.raise {s t : State} (h : Took s t) (n : Fin 96) : Took s (Machine.raise n t) := h.trans ((RecStep.refl t).raise n).took
theorem Took.rec {s t u : State} (h : Took s t) (k : RecStep t u) : Took s u := h.trans k.took

/-! ### Ports -/

theorem prt_modPort_same (p : Port) (f : PortSt → PortSt) (s : State) : prt (modPort p f s) p = f (prt s p) := by
  simp only [prt, modPort_ports]
  cases p <;> simp [vmod, pidx]

theorem prt_modPort_other (p : Port) (f : PortSt → PortSt) (s : State) : prt (modPort p f s) (pother p) = prt s (pother p) := by
  simp only [prt, modPort_ports]
  cases p <;> simp [vmod, pidx, pother]

theorem prt_of_ports {s t : State} (h : t.ports = s.ports) (p : Port) : prt t p = prt s p := by simp [prt, h]

theorem RecStep.ports {s t : State} (h : RecStep s t) : t.ports = s.ports := by rw [h.1]
theorem RecStep.now_eq {s t : State} (h : RecStep s t) : t.now = s.now := by rw [h.1]
theorem RecStep.pw_eq {s t : State} (h : RecStep s t) : t.pw = s.pw := by rw [h.1]

/-! ### Replies -/

/-- A reply that fits is queued; nothing else changes but the interrupt controller (R158). -/
theorem queueReply_next {p : Port} {st : Status} {tag : BitVec 7} {wake : Bool} {ws : List Word} {s : State}
    (hw : (prt s p).waiting = []) (hf : replyFits (prt s p) ws.length = true) (ha : s.mi.fArmed = false) :
    Took s (queueReply p st tag wake ws s)
      ∧ (queueReply p st tag wake ws s).cask = s.cask ∧ (queueReply p st tag wake ws s).mems = s.mems
      ∧ (queueReply p st tag wake ws s).mi = s.mi ∧ (queueReply p st tag wake ws s).mmp = s.mmp
      ∧ (queueReply p st tag wake ws s).turn = s.turn
      ∧ prt (queueReply p st tag wake ws s) p
          = { prt s p with
              replyQ := (prt s p).replyQ ++ [{ status := st, tag := tag, wake := wake, cells := ws.map encWord, queuedAt := s.now }]
              wakeLvl := (prt s p).wakeLvl || wake }
      ∧ prt (queueReply p st tag wake ws s) (pother p) = prt s (pother p) := by
  have hr : ∀ n (t : State) q, prt (raise n t) q = prt t q := fun n t q => prt_of_ports (raise_ports ..) q
  unfold queueReply encCells
  simp only [ha, Bool.false_eq_true, false_and, if_false, hw, List.isEmpty_nil, true_and, List.length_map, hf, if_true]
  cases wake
  · refine ⟨((Took.refl s).port _ _).raise _, by simp, by simp, by simp, by simp, by simp, ?_, ?_⟩
    · simp [hr, prt_modPort_same, hw]
    · simp [hr, prt_modPort_other]
  · refine ⟨(((Took.refl s).port _ _).raise _).port _ _, by simp, by simp, by simp, by simp, by simp, ?_, ?_⟩
    · simp [hr, prt_modPort_same, hw]
    · simp [hr, prt_modPort_other]

/-! ### Take-up -/

variable {op : Op} {m : Msg} {s : State}

theorem takeCmd_head (h : PacketHead op m s) : takeCmd op m s = (some (m, false), popped m s) := by
  obtain ⟨l, hl⟩ := h.head
  have ho : portOpen s = true := by simp [portOpen, resetting, h.live, h.noReset, h.noEntry]
  have ha : arrive op m s = s := by simp [arrive, hl]
  have hr : resetting s = false := by simp [resetting, h.noReset]
  have hb : interpBusy s = false := by simp [interpBusy, h.noGrp, h.noReg]
  have ht : (decide (s.turn = some m.port) && !(prt s (pother m.port)).cmdBuf.isEmpty && (prt s (pother m.port)).waiting.isEmpty) = false := by
    by_cases e : s.turn = some m.port
    · simp [h.turn e]
    · simp [e]
  have hp : modPort m.port (fun x => { x with cmdBuf := l }) (setTurn (some m.port) s) = popped m s := by
    unfold popped
    have : prt s m.port = (setTurn (some m.port) s).ports[pidx m.port] := rfl
    unfold modPort vmod
    simp only [← this, hl, List.tail_cons]
  unfold takeCmd
  simp only [ho, h.packet, Bool.not_true, Bool.or_self, Bool.false_eq_true, if_false, ha, hl, if_true,
    cfgWait_none h.noCfg, and_self, h.noWait, List.isEmpty_nil, ht, Bool.not_false, hr, hb, hp]
  rw [cellsRead_good]

theorem recCmd_rec (op : Op) (m : Msg) (s : State) : RecStep s (recCmd op m s) := by
  unfold recCmd
  split
  · exact (RecStep.refl s).recNow ..
  · exact RecStep.refl s

theorem takenUp_took (op : Op) (m : Msg) (s : State) : Took s (takenUp op m s) :=
  (((Took.refl s).turn _).port _ _).rec (recCmd_rec ..)

theorem takenUp_port (op : Op) (m : Msg) (s : State) :
    prt (takenUp op m s) m.port = { prt s m.port with cmdBuf := (prt s m.port).cmdBuf.tail } := by
  unfold takenUp
  rw [prt_of_ports (recCmd_rec ..).ports, popped, prt_modPort_same]
  rfl

theorem takenUp_other (op : Op) (m : Msg) (s : State) : prt (takenUp op m s) (pother m.port) = prt s (pother m.port) := by
  unfold takenUp
  rw [prt_of_ports (recCmd_rec ..).ports, popped, prt_modPort_other]
  rfl

theorem takenUp_fArmed (op : Op) (m : Msg) (s : State) (h : s.mi.fArmed = false) : (takenUp op m s).mi.fArmed = false :=
  (recCmd_rec op m (popped m s)).2.2.2 h

theorem Took.taps_eq {s t : State} (h : Took s t) : t.taps = s.taps := by rw [h.1]
theorem Took.pw_eq {s t : State} (h : Took s t) : t.pw = s.pw := by rw [h.1]
theorem Took.now_eq {s t : State} (h : Took s t) : t.now = s.now := by rw [h.1]
theorem Took.cfg_eq {s t : State} (h : Took s t) : t.cfg = s.cfg := by rw [h.1]
theorem Took.deferred_eq {s t : State} (h : Took s t) : t.deferred = s.deferred := by rw [h.1]

/-- What the checks of R154 look at is what it was before the packet left its buffer. -/
theorem opHeld_congr {s t : State} (h : t.taps = s.taps) (k : t.cfg = s.cfg) (p : Port) (op : Op) : opHeld t p op = opHeld s p op := by
  simp [opHeld, boundHeld, tapHeld, cfgFld, cfgGet, h, k]

theorem tapHeld_of_taps {s t : State} (h : t.taps = s.taps) (p : Port) (k : Fin 32) : tapHeld t p k = tapHeld s p k := by
  simp [tapHeld, h]

theorem TapsFree.tap {p : Port} {s : State} (h : TapsFree p s) (k : Fin 32) : tapHeld s p k = false := by
  simpa [tapHeld] using h k

theorem takenUp_vintage (op : Op) (m : Msg) (s : State) : portVintage (takenUp op m s) m.port = portVintage s m.port := by
  simp only [portVintage, takenUp_port]

theorem takenUp_noReset (op : Op) (m : Msg) (s : State) (h : s.pw.resetSeq = none) : resetting (takenUp op m s) = false := by
  simp [resetting, (takenUp_took op m s).pw_eq, h]

/-- The checks that a ready packet has passed already, and those that are left to its opcode (R154). -/
theorem judge_ready (h : PacketReady op m s) (hd : Handler) (i : OpInfo) (hi : opInfo op = some i)
    (hst : hd.stateOk (takenUp op m s) m = true)
    (hlo : i.lo ≤ m.words.length) (hhi : m.stream = .none → m.words.length ≤ i.hi)
    (hsh : hd.shape m = true) (hsn : hd.shapeNow (takenUp op m s) m = true) (hrg : hd.range (takenUp op m s) m = true)
    (hfr : hd.free (takenUp op m s) m = true) (hau : hd.auth (takenUp op m s) m = true) :
    judge op hd m false (takenUp op m s) = none := by
  have ht := takenUp_took op m s
  have hv := takenUp_vintage op m s
  obtain ⟨j, hj, hvi⟩ := h.vintage
  rw [hi] at hj
  obtain rfl := Option.some.inj hj
  have hheld : opHeld (takenUp op m s) m.port op = false := by
    rw [opHeld_congr ht.taps_eq ht.cfg_eq]
    exact h.bound
  have hp : opPermitted op (takenUp op m s).pw.dev = true := by rw [ht.pw_eq]; exact h.permitted
  have hs1 : m.stream ≠ .aborted := by rcases h.whole with e | e <;> simp [e]
  have hs2 : m.stream ≠ .badLength := by rcases h.whole with e | e <;> simp [e]
  have hlen : (decide (m.words.length < i.lo) || decide (m.stream = .none) && decide (i.hi < m.words.length)) = false := by
    by_cases e : m.stream = .none
    · simp [e]; exact ⟨hlo, hhi e⟩
    · simp [e]; exact hlo
  unfold judge
  simp only [hi, Bool.false_eq_true, if_false, hs1, hs2, h.good, Bool.not_true, Bool.false_and, hv, Nat.not_lt.2 hvi, hp, hst,
    Bool.or_self, hsh, hsn, hrg, hheld, hfr, hau, Bool.and_false, Bool.or_false]
  rw [if_neg]
  simp only [Bool.not_eq_true]
  exact hlen

/-- A ready packet that passes its checks is executed and answered. -/
theorem interp_ready (h : PacketHead op m s) (hd : Handler) (i : OpInfo) (hi : opInfo op = some i)
    (hj : judge op hd m false (takenUp op m s) = none) :
    interp op hd m s = .next (if i.deferred then answerDeferred op m (hd.run m (addDeferred (defOf op m) (takenUp op m s)))
      else answer m (hd.run m (takenUp op m s))) := by
  have ht : recCmd op m (popped m s) = takenUp op m s := rfl
  simp only [interp, takeCmd_head h, ht, hj, hi]

/-- A packet that a check refuses is answered with its status. -/
theorem interp_refused (h : PacketHead op m s) (hd : Handler) (st : Status) (hj : judge op hd m false (takenUp op m s) = some st) :
    interp op hd m s = .next (
      let u := hd.refused st m (if m.stream != .none && (st == stAborted || st == stLength || st == stCheck) then
        hd.broken m (takenUp op m s) else takenUp op m s)
      answer m (.reply st (hd.words op st u m), u)) := by
  have ht : recCmd op m (popped m s) = takenUp op m s := rfl
  simp only [interp, takeCmd_head h, ht, hj]

/-- A reply is queued unless a reset is under way (R83). -/
theorem answer_reply {st : Status} {ws : List Word} {u : State} (h : resetting u = false) :
    answer m (.reply st ws, u) = replied m st ws u := by
  simp [answer, h, replied]

end Sys2Proof.Machine
end

