-- ==== Sys2Proof/Laws/Raise.lean ====
section
/-! SUPPORT. A raised source shows (14_interrupts R415, R417): it is PENDING, or it is ACTIVE on a port. -/

namespace Sys2Proof.Machine

theorem bit_setBit {n : Nat} (w : BitVec n) (i j : Nat) (b : Bool) (hi : i < n) :
    bit (setBit w i b) j = if i = j then b else bit w j := by
  unfold bit setBit
  by_cases h : i = j
  · subst h
    cases b <;> simp [hi]
  · cases b
    · by_cases hj : j < n
      · have : ¬j = i := fun e => h e.symm
        simp [h, hj, this]
      · simp [h, BitVec.getLsbD_of_ge w j (by omega)]
    · simp [h, BitVec.getLsbD_twoPow]

theorem isPend_setPend (m n : Fin 96) (b : Bool) (s : State) : isPend (setPend m b s) n = if m = n then b else isPend s n := by
  simp only [isPend, setPend_irq]
  rw [bit_setBit _ _ _ _ m.isLt]
  simp only [Fin.ext_iff]

@[simp] theorem isPend_setReleased (m n : Fin 96) (b : Bool) (s : State) : isPend (setReleased m b s) n = isPend s n := rfl
@[simp] theorem isPend_setModr (m : Fin 16) (x : Moderator) (n : Fin 96) (s : State) : isPend (setModr m x s) n = isPend s n := rfl
@[simp] theorem isPend_setActive (p : Port) (m n : Fin 96) (b : Bool) (s : State) : isPend (setActive p m b s) n = isPend s n := by
  cases p <;> rfl
@[simp] theorem isActive_setPend (p : Port) (m n : Fin 96) (b : Bool) (s : State) : isActive (setPend m b s) p n = isActive s p n := by
  cases p <;> rfl
@[simp] theorem isActive_setReleased (p : Port) (m n : Fin 96) (b : Bool) (s : State) :
    isActive (setReleased m b s) p n = isActive s p n := by cases p <;> rfl

theorem isActive_setActive (p q : Port) (m n : Fin 96) (b : Bool) (s : State) :
    isActive (setActive p m b s) q n = if p = q ∧ m = n then b else isActive s q n := by
  cases p <;> cases q <;> simp [isActive, setActive, modIrq, bit_setBit _ _ _ _ m.isLt, Fin.ext_iff]

theorem foldSt_cons {α : Type} (a : α) (l : List α) (f : α → State → State) (s : State) :
    foldSt (a :: l) f s = foldSt l f (f a s) := rfl

theorem fold_setActive_mono (l : List Port) (m n : Fin 96) (q : Port) (s : State) (h : isActive s q n = true) :
    isActive (foldSt l (fun p => setActive p m true) s) q n = true := by
  induction l generalizing s with
  | nil => exact h
  | cons p l ih =>
    rw [foldSt_cons]
    apply ih
    rw [isActive_setActive]
    split
    · rfl
    · exact h

theorem fold_setActive_mem (l : List Port) (n : Fin 96) (q : Port) (s : State) (h : q ∈ l) :
    isActive (foldSt l (fun p => setActive p n true) s) q n = true := by
  induction l generalizing s with
  | nil => simp at h
  | cons p l ih =>
    rw [foldSt_cons]
    rcases List.mem_cons.1 h with rfl | h
    · exact fold_setActive_mono _ _ _ _ _ (by simp [isActive_setActive])
    · exact ih _ h

theorem fold_setActive_pend (l : List Port) (m n : Fin 96) (s : State) :
    isPend (foldSt l (fun p => setActive p m true) s) n = isPend s n := by
  induction l generalizing s with
  | nil => rfl
  | cons p l ih => rw [foldSt_cons, ih, isPend_setActive]

theorem shows_irq {s t : State} (h : t.irq.pend = s.irq.pend) (ha : t.irq.actA = s.irq.actA) (hb : t.irq.actB = s.irq.actB)
    (n : Fin 96) : shows t n = shows s n := by simp [shows, isPend, isActive, h, ha, hb]

theorem targets_ne (s : State) (n : Fin 96) (h : ports.any (eligible s n) = true) : (targets s n).1 ≠ [] := by
  have hf : ports.filter (eligible s n) ≠ [] := by
    obtain ⟨p, hp, he⟩ := List.any_eq_true.1 h
    exact List.ne_nil_of_mem (List.mem_filter.2 ⟨hp, he⟩)
  unfold targets
  dsimp only
  split
  · split
    · split
      · simp
      · split <;> simp
    · exact hf
  · exact hf

theorem deliverOne_shows (m n : Fin 96) (s : State) (h : shows s n = true) : shows (deliverOne m s) n = true := by
  unfold deliverOne
  split
  · rename_i hd
    have hn := targets_ne s m (by
      simp only [deliverable, Bool.and_eq_true] at hd
      exact hd.2)
    dsimp only
    have key : shows (foldSt (targets s m).1 (fun p => setActive p m true) (setReleased m false (setPend m false s))) n = true := by
      by_cases hmn : m = n
      · subst hmn
        obtain ⟨q, hq⟩ := List.exists_mem_of_ne_nil _ hn
        have := fold_setActive_mem (targets s m).1 m q (setReleased m false (setPend m false s)) hq
        cases q <;> simp [shows, this]
      · simp only [shows, Bool.or_eq_true] at h ⊢
        rcases h with (h | h) | h
        · left; left
          rw [fold_setActive_pend]
          simpa [isPend_setPend, hmn] using h
        · left; right
          exact fold_setActive_mono _ _ _ _ _ (by simpa using h)
        · right
          exact fold_setActive_mono _ _ _ _ _ (by simpa using h)
    split
    · exact (shows_irq (by rfl) (by rfl) (by rfl) n).trans key
    · exact key
  · exact h

theorem deliver_shows (n : Fin 96) (s : State) (h : shows s n = true) : shows (deliver s) n = true := by
  unfold deliver
  split
  · rename_i hl
    clear hl
    generalize prioOrder s (sources.filter (deliverable s)) = l
    unfold foldSt
    induction l generalizing s with
    | nil => exact h
    | cons m l ih => exact ih _ (deliverOne_shows m n s h)
  · exact h

theorem fold_setReleased_pend (l : List (Fin 96)) (n : Fin 96) (s : State) :
    isPend (foldSt l (fun n => setReleased n true) s) n = isPend s n := by
  induction l generalizing s with
  | nil => rfl
  | cons p l ih => rw [foldSt_cons, ih, isPend_setReleased]

theorem syncMod_pend (m : Fin 16) (n : Fin 96) (s : State) : isPend (syncMod m s) n = isPend s n := by
  unfold syncMod
  dsimp only
  split
  · rfl
  · split
    · unfold fireMod
      dsimp only
      rw [fold_setReleased_pend, isPend_setModr]
    · split <;> rfl

theorem raiseOnly_pend (n : Fin 96) (s : State) : isPend (raiseOnly n s) n = true := by
  unfold raiseOnly
  dsimp only
  split
  · rw [syncMod_pend, isPend_setModr, isPend_setPend]; simp
  · rw [isPend_setPend]; simp

/-- A source that is raised while the controller works is then pending or active. -/
theorem raise_shows (n : Fin 96) (s : State) (h : isLive s = true) : shows (raise n s) n = true := by
  unfold raise
  rw [if_pos h]
  exact deliver_shows n _ (by simp [shows, raiseOnly_pend])

end Sys2Proof.Machine
end

