-- ==== Sys2Proof/Laws/Tracker.lean ====
section
/-! SUPPORT. What the tracker's and the sequencer's shared operations can change (07_angle_tracking, 08_trellis_sequencer):
beside the recorder's reach the tracker, the sequencer, the pans and the links. -/

namespace Sys2Proof.Machine

/-- From `s` to `t` nothing outside the reach of a tracker state change has changed. -/
def TrkStep (s t : State) : Prop :=
  t = { s with mems := t.mems, mi := t.mi, irq := t.irq, mmp := t.mmp, cask := t.cask, trk := t.trk, seq := t.seq, smp := t.smp,
               links := t.links }
    ∧ (s.memsWf = true → t.memsWf = true)

theorem TrkStep.refl (s : State) : TrkStep s s := ⟨rfl, id⟩

theorem TrkStep.trans {s t u : State} (h : TrkStep s t) (k : TrkStep t u) : TrkStep s u := by
  refine ⟨?_, fun w => k.2 (h.2 w)⟩
  have h1 := h.1
  have k1 := k.1
  rw [h1] at k1
  exact k1

variable {s t : State}

theorem TrkStep.ite {u : State} (c : Prop) [d : Decidable c] (h : TrkStep s t) (k : TrkStep s u) : TrkStep s (if c then t else u) := by
  split
  · exact h
  · exact k

theorem RecStep.trk {s t : State} (h : RecStep s t) : TrkStep s t := by
  refine ⟨?_, h.2.1⟩
  have h1 := h.1
  generalize t.mems = a, t.mi = b, t.irq = c, t.mmp = d, t.cask = e at h1
  subst h1
  rfl

theorem TrkStep.modTrk (h : TrkStep s t) (f : Tracker → Tracker) : TrkStep s (modTrk f t) := h.trans ⟨rfl, id⟩
theorem TrkStep.modSeq (h : TrkStep s t) (f : Seq → Seq) : TrkStep s (modSeq f t) := h.trans ⟨rfl, id⟩
theorem TrkStep.modSmp (h : TrkStep s t) (f : Smp → Smp) : TrkStep s (modSmp f t) := h.trans ⟨rfl, id⟩
theorem TrkStep.modLink (h : TrkStep s t) (g : Grp) (f : Link → Link) : TrkStep s (modLink g f t) := h.trans ⟨rfl, id⟩
theorem TrkStep.modBank (h : TrkStep s t) (b : Fin 2) (f : Bank → Bank) : TrkStep s (modBank b f t) := h.trans ⟨rfl, id⟩
theorem TrkStep.modPan (h : TrkStep s t) (g : Grp) (p : Fin 16) (f : Pan → Pan) : TrkStep s (modPan g p f t) := h.trans ⟨rfl, id⟩

theorem TrkStep.fold {α : Type} (h : TrkStep s t) (l : List α) (f : α → State → State)
    (hf : ∀ (u : State) (a : α), TrkStep s u → TrkStep s (f a u)) : TrkStep s (foldSt l f t) := by
  unfold foldSt
  induction l generalizing t with
  | nil => exact h
  | cons a l ih => exact ih (hf t a h)

theorem TrkStep.raise (h : TrkStep s t) (n : Fin 96) : TrkStep s (raise n t) := h.trans ((RecStep.refl t).raise n).trk

theorem TrkStep.raiseTrk (h : TrkStep s t) (n : Fin 96) : TrkStep s (raiseTrk n t) := TrkStep.ite _ h (h.raise n)

theorem TrkStep.setBank (h : TrkStep s t) (b : Fin 2) (k : BankState) : TrkStep s (setBank b k t) := h.modBank ..
theorem TrkStep.stopWalk (h : TrkStep s t) : TrkStep s (stopWalk t) := h.modSeq _
theorem TrkStep.syncWait (h : TrkStep s t) : TrkStep s (syncWait t) := h.modSeq _
theorem TrkStep.estReset (h : TrkStep s t) : TrkStep s (estReset t) := h.modTrk _

theorem TrkStep.dropActs (h : TrkStep s t) (e : Extent) : TrkStep s (dropActs e t) :=
  ((h.modSeq _).modSmp _).fold _ _ fun _ _ k => k.modLink ..

theorem TrkStep.panCloseAt (h : TrkStep s t) (g : Grp) (p : Fin 16) (n : Nat) (r : BitVec 3) : TrkStep s (panCloseAt g p n r t) :=
  h.modPan ..

theorem TrkStep.closePans (h : TrkStep s t) (g : Grp) (n : Nat) (r : BitVec 3) (w : Pan → Bool) : TrkStep s (closePans g n r w t) :=
  h.fold _ _ fun _ _ k => TrkStep.ite _ (k.panCloseAt ..) k

theorem TrkStep.replayClose (h : TrkStep s t) (r : BitVec 3) (w : Pan → Bool) : TrkStep s (replayClose r w t) :=
  h.fold _ _ fun _ _ k => k.closePans ..

theorem TrkStep.withdraw (h : TrkStep s t) (e : Extent) : TrkStep s (withdraw e t) := by
  unfold Machine.withdraw
  exact (TrkStep.ite _ ((h.dropActs e).replayClose ..) ((h.dropActs e).fold _ _ fun _ _ k => k.modLink ..)).modSeq _

theorem TrkStep.parkActive (h : TrkStep s t) : TrkStep s (parkActive t) := by
  unfold Machine.parkActive
  split
  · exact TrkStep.ite _ h (h.setBank ..).stopWalk
  · exact h

theorem TrkStep.haltBanks (h : TrkStep s t) : TrkStep s (haltBanks t) := (((h.withdraw _).setBank ..).setBank ..).stopWalk

theorem TrkStep.recShadow (h : TrkStep s t) (a b c : Nat) (ws : List Word) : TrkStep s (recShadow a b c ws t) :=
  h.trans ((RecStep.refl t).recShadow ..).trk

theorem TrkStep.trkEnter (h : TrkStep s t) (st : TrkState) (b : Bool) : TrkStep s (trkEnter st b t) := by
  have h1 := h.modTrk (trkTake st b)
  have h2 : TrkStep s (trkValid (angValid t) (Machine.modTrk (trkTake st b) t)) :=
    TrkStep.ite _ ((h1.modTrk _).raiseTrk _) (TrkStep.ite _ ((h1.modTrk _).raiseTrk _) h1)
  have h3 : ∀ a b u, TrkStep s u → TrkStep s (trkLeave a b u) := fun a b u k => TrkStep.ite _ (k.withdraw _).parkActive k
  have h4 : ∀ u, TrkStep s u → TrkStep s (trkShadow u) := fun u k => TrkStep.ite _ (k.recShadow ..) k
  exact (h4 _ (h3 _ _ _ h2)).syncWait

theorem TrkStep.trkRestart (h : TrkStep s t) : TrkStep s (trkRestart t) := ((h.trkEnter ..).modTrk _).estReset

theorem TrkStep.reseek (h : TrkStep s t) : TrkStep s (reseek t) := (((h.modTrk _).trkEnter ..).modTrk _).estReset

/-! ### What each operation leaves alone -/

@[simp] theorem raiseTrk_trk (n : Fin 96) (s : State) : (raiseTrk n s).trk = s.trk := by
  unfold raiseTrk; split <;> simp

theorem ite_keep {α β : Type} (p : α → β) {c : Prop} [Decidable c] {a b : α} {x : β} (ha : p a = x) (hb : p b = x) :
    p (if c then a else b) = x := by
  split
  · exact ha
  · exact hb

theorem foldSt_keeps {α β : Type} (p : State → β) (l : List α) (f : α → State → State) (h : ∀ a s, p (f a s) = p s) (s : State) :
    p (foldSt l f s) = p s := by
  unfold foldSt
  induction l generalizing s with
  | nil => rfl
  | cons a l ih => exact (ih (f a s)).trans (h a s)

@[simp] theorem dropActs_trk (e : Extent) (s : State) : (dropActs e s).trk = s.trk := by
  unfold dropActs
  dsimp only
  refine (foldSt_keeps State.trk _ _ ?_ _).trans rfl
  intros
  rfl

@[simp] theorem closePans_trk (g : Grp) (n : Nat) (r : BitVec 3) (w : Pan → Bool) (s : State) : (closePans g n r w s).trk = s.trk := by
  refine foldSt_keeps State.trk _ _ (fun p s => ?_) s
  split <;> rfl

@[simp] theorem replayClose_trk (r : BitVec 3) (w : Pan → Bool) (s : State) : (replayClose r w s).trk = s.trk :=
  foldSt_keeps State.trk _ _ (fun _ _ => closePans_trk ..) s

@[simp] theorem withdraw_trk (e : Extent) (s : State) : (withdraw e s).trk = s.trk := by
  unfold withdraw
  dsimp only
  rw [modSeq_trk]
  split
  · simp
  · refine (foldSt_keeps State.trk _ _ ?_ _).trans (dropActs_trk e s)
    intros
    rfl

@[simp] theorem parkActive_trk (s : State) : (parkActive s).trk = s.trk := by
  unfold parkActive
  split
  · split <;> rfl
  · rfl

theorem RecStep.trk_eq {s t : State} (h : RecStep s t) : t.trk = s.trk := by rw [h.1]

@[simp] theorem recShadow_trk (a b c : Nat) (ws : List Word) (s : State) : (recShadow a b c ws s).trk = s.trk :=
  ((RecStep.refl s).recShadow a b c ws).trk_eq

@[simp] theorem syncWait_trk (s : State) : (syncWait s).trk = s.trk := rfl

@[simp] theorem trkShadow_trk (s : State) : (trkShadow s).trk = s.trk := by
  unfold trkShadow; split <;> simp

@[simp] theorem trkLeave_trk (a b : Bool) (s : State) : (trkLeave a b s).trk = s.trk := by
  unfold trkLeave; split <;> simp

theorem trkValid_st (b : Bool) (s : State) : (trkValid b s).trk.st = s.trk.st := by
  unfold trkValid; repeat' split
  all_goals simp

/-- The state that the tracker enters is the one named. -/
@[simp] theorem trkEnter_st (st : TrkState) (b : Bool) (s : State) : (trkEnter st b s).trk.st = st := by
  unfold trkEnter
  dsimp only
  rw [syncWait_trk, trkShadow_trk, trkLeave_trk, trkValid_st]
  rfl

/-- A restart leaves the tracker in STOPPED (R221, R232). -/
@[simp] theorem trkRestart_st (s : State) : (trkRestart s).trk.st = .stopped := by
  simp [trkRestart, estReset]

@[simp] theorem reseek_st (s : State) : (reseek s).trk.st = .seeking := by
  simp [reseek, estReset]

end Sys2Proof.Machine
end

