-- ==== Sys2Proof/Tests/Slice0.lean ====
section
/-! SUPPORT. Tests: ill-formed commands that the checks refuse, for each statement with hypotheses a state and operands that meet
them together, and single steps with the results that the spec gives. -/

namespace Sys2Proof.Tests

open Sys2Proof Sys2Proof.Machine

set_option Elab.async false

/-! ### Ill-formed commands -/

/-- A command packet of port A with tag 5. -/
def msg (ws : List Word) : Msg :=
  { port := .a, tag := 5, wake := false, lanes := 0, words := ws, good := true, stream := .none }

theorem test_wf_packet : (Instr.hello (msg [0x33])).wf = true := by decide
theorem test_illformed_lanes : (Instr.hello { msg [0x33] with lanes := 3 }).wf = false := by decide
theorem test_illformed_length : (Instr.regRead (msg (List.replicate 4095 0))).wf = false := by decide +kernel
theorem test_illformed_stream : (Instr.status { msg [] with stream := .whole }).wf = false := by decide
theorem test_wf_stream : (Instr.trellisLoad { msg (List.replicate 4096 0) with stream := .whole }).wf = true := by decide +kernel
theorem test_illformed_stream_lanes : (Instr.sealLoad { msg [1] with lanes := 3 }).wf = false := by decide
theorem test_illformed_stream_length : (Instr.nvUpdateData (msg (List.replicate 4095 0))).wf = false := by decide +kernel
theorem test_illformed_payload_empty : (Instr.packetComplete .a [] 0).wf = false := by decide
theorem test_illformed_payload_long : (Instr.packetComplete .b (List.replicate 4095 0) 0).wf = false := by decide +kernel
theorem test_illformed_fetch : (Instr.replyFetch .a 3 true).wf = false := by decide
theorem test_illformed_pan_group : (Instr.panCmdOpen .a 6 0).wf = false ∧ (Instr.panCmdClose .a 6 0).wf = false
    ∧ (Instr.panCmdRelease .b 6 0).wf = false ∧ (Instr.panCmdOpen .a 7 0).wf = true := by decide
theorem test_illformed_refetch : (Instr.lineRefetchDone true [1, 2, 3] true).wf = false := by decide
theorem test_illformed_wake : (Instr.standbyWake false false false).wf = false := by decide

/-! ### States -/

/-- A device that has ended BOOT: every link UP, every port in vintage 3. -/
def inSt (d : DevState) : State :=
  { State.reset with
    now := 5000000
    pw := { State.reset.pw with dev := d, prev := .boot, tb0 := some 1000 }
    links := Vector.replicate 6
      { Link.reset with st := .up, tbLock := true, vintage := 3, supply := .good, vfg := 120, nextDown := 5000000 }
    fields := Vector.replicate 6 { Field.reset with linked := true, ranged := true, lock := true }
    ports := Vector.replicate 2 { PortSt.reset with vintage := 3 } }

def cfgS : State := inSt .config
def runS : State := inSt .run
def maintS : State := inSt .maint

/-- A packet at the head of its port's command buffer. -/
def put (op : Op) (m : Msg) (s : State) : State :=
  modPort m.port (fun x => { x with cmdBuf := { op := op, msg := m, cells := m.words.map encWord } :: x.cmdBuf }) s

/-- The state after a command. -/
def run (i : Instr) (s : State) : State :=
  match exec i s with
  | .next t => t
  | _ => s

def rowB (op : Op) (p : Port) (s : State) : Bool :=
  opPermitted op s.pw.dev && s.pw.resetSeq.isNone && decide (s.pw.stby ≠ .entering) && !(prt s p).daisy
    && s.grpJob.isNone && s.regJob.isNone && s.cfgJob.isNone
    && (List.finRange 32).all fun k => decide (s.taps[k].holder ≠ some (pother p))

theorem ready_row {op : Op} {p : Port} {s : State} (h : rowB op p s = true) : RowReady op p s := by
  simp only [rowB, Bool.and_eq_true, Option.isNone_iff_eq_none, decide_eq_true_eq, Bool.not_eq_true', List.all_eq_true] at h
  obtain ⟨⟨⟨⟨⟨⟨⟨h1, h2⟩, h3⟩, h4⟩, h5⟩, h6⟩, h7⟩, h8⟩ := h
  exact ⟨h1, h2, h3, h4, h5, h6, h7, fun k => h8 k (List.mem_finRange k)⟩

def headB (op : Op) (m : Msg) (s : State) : Bool :=
  isLive s && s.pw.resetSeq.isNone && decide (s.pw.stby ≠ .entering) && !(prt s m.port).daisy
    && s.grpJob.isNone && s.regJob.isNone && s.cfgJob.isNone
    && decide ((prt s m.port).cmdBuf.head? = some { op := op, msg := m, cells := m.words.map encWord })
    && (prt s m.port).waiting.isEmpty && (decide (s.turn ≠ some m.port) || (prt s (pother m.port)).cmdBuf.isEmpty)

theorem ready_head {op : Op} {m : Msg} {s : State} (h : headB op m s = true) : PacketHead op m s := by
  simp only [headB, Bool.and_eq_true, Option.isNone_iff_eq_none, decide_eq_true_eq, Bool.not_eq_true', List.isEmpty_iff,
    Bool.or_eq_true] at h
  obtain ⟨⟨⟨⟨⟨⟨⟨⟨⟨h1, h2⟩, h3⟩, h4⟩, h5⟩, h6⟩, h7⟩, h8⟩, h9⟩, h10⟩ := h
  refine ⟨h1, h2, h3, h4, h5, h6, h7, ?_, h9, fun h => h10.resolve_left fun g => g h⟩
  match hc : (prt s m.port).cmdBuf with
  | [] => simp [hc] at h8
  | a :: l => exact ⟨l, by simp [hc] at h8; simp [h8]⟩

def readyB (op : Op) (m : Msg) (s : State) : Bool :=
  headB op m s && m.good && (decide (m.stream = .none) || decide (m.stream = .whole))
    && (match opInfo op with | some i => decide (i.vintage ≤ portVintage s m.port) | none => false)
    && opPermitted op s.pw.dev && !opHeld s m.port op

theorem ready_packet {op : Op} {m : Msg} {s : State} (h : readyB op m s = true) : PacketReady op m s := by
  simp only [readyB, Bool.and_eq_true, Bool.or_eq_true, decide_eq_true_eq, Bool.not_eq_true'] at h
  obtain ⟨⟨⟨⟨⟨h1, h2⟩, h3⟩, h4⟩, h5⟩, h6⟩ := h
  refine ⟨ready_head h1, h2, h3, ?_, h5, h6⟩
  match hi : opInfo op with
  | none => simp [hi] at h4
  | some i => exact ⟨i, rfl, by simpa [hi] using h4⟩

def serveB (m : Msg) (w : Word) (s : State) : Bool :=
  isLive s && s.pw.resetSeq.isNone && decide (s.pw.stby ≠ .entering) && !(prt s m.port).daisy && !(prt s m.port).selected
    && (prt s m.port).awake && (prt s m.port).cmdBuf.isEmpty && (prt s m.port).waiting.isEmpty && replyFits (prt s m.port) 0
    && s.cfgJob.isNone && s.inj.armed.isNone && !bit (prt s m.port).tags m.tag.toNat && decide (m.lanes.toNat ≤ 2)
    && (!m.wake || decide ((prt s m.port).vintage = 3)) && decide (m.words = [w]) && m.good && decide (m.stream = .none)

theorem ready_serve {m : Msg} {w : Word} {s : State} (h : serveB m w s = true) : ServeArrives m w s := by
  simp only [serveB, Bool.and_eq_true, Option.isNone_iff_eq_none, decide_eq_true_eq, Bool.not_eq_true', List.isEmpty_iff,
    Bool.or_eq_true] at h
  obtain ⟨⟨⟨⟨⟨⟨⟨⟨⟨⟨⟨⟨⟨⟨⟨⟨h1, h2⟩, h3⟩, h4⟩, h5⟩, h6⟩, h7⟩, h8⟩, h9⟩, h10⟩, h11⟩, h12⟩, h13⟩, h14⟩, h15⟩, h16⟩, h17⟩ := h
  exact ⟨h1, h2, h3, h4, h5, h6, h7, h8, h9, h10, h11, h12, h13, fun h => h14.resolve_left (by simp [h]), h15, h16, h17⟩

theorem taps_free {p : Port} {s : State} (h : ((List.finRange 32).all fun k => decide (s.taps[k].holder ≠ some (pother p))) = true) :
    TapsFree p s := by
  simp only [List.all_eq_true, decide_eq_true_eq] at h
  exact fun k => h k (List.mem_finRange k)


/-! ### Witnesses: for each statement, states and operands that meet the hypotheses of its clauses -/

theorem witness_StepRunsFrontCommand :
    ({ cfgS with pending := [.pllLock, .stbyNRise] } : State).pending = [.pllLock, .stbyNRise] ∧ cfgS.pending = [] := ⟨rfl, rfl⟩

theorem witness_ClearsThroughRegisters :
    let d := modLink 1 (fun l => { l with st := .down }) runS
    RowReady Op.regWrite .a runS ∧ RowReady Op.regWrite .b cfgS ∧ RowReady Op.regWrite .a d
      ∧ (lnk runS (chanGrp 9)).st = .up ∧ (lnk d (chanGrp 9)).st ≠ .up := by
  and_intros <;> first
    | exact ready_row (by decide +kernel)
    | exact ready_packet (by decide +kernel)
    | exact ready_head (by decide +kernel)
    | exact ready_serve (by decide +kernel)
    | exact taps_free (by decide +kernel)
    | decide +kernel

/-- Every source pending. -/
def irqS : State := cfgSet (.ien 0) 0xFFFFF (modIrq (fun x => { x with pend := 0xF0F0F0F0F0F0F0F0F0F0F0F0, actA := 0xFF, actB := 0x33 }) runS)

theorem witness_InterruptRegisterWrites :
    RowReady Op.regWrite .a irqS ∧ ¬(fld (0x400 : Word) 0 10 = 0 ∧ fld (0x400 : Word) 10 8 = 0)
      ∧ fld (0x435 : Word) 6 5 ≤ 16 ∧ ¬(fld (0x435 : Word) 0 4 = 0 ∧ fld (0x435 : Word) 4 2 = 3) ∧ (70 : Fin 96).val / 20 = (3 : Fin 5).val := by
  and_intros <;> first
    | exact ready_row (by decide +kernel)
    | exact ready_packet (by decide +kernel)
    | exact ready_head (by decide +kernel)
    | exact ready_serve (by decide +kernel)
    | exact taps_free (by decide +kernel)
    | decide +kernel

/-- The tracker in a state. -/
def trkS (st : TrkState) : State := modTrk (fun t => { t with st := st, learned := true, predOk := true, edges := 5 }) runS

theorem witness_TrackerRegisters :
    RowReady Op.regWrite .a maintS ∧ inConfMaint maintS = true ∧ isOwned maintS = false ∧ maintS.cask.st ≠ .replaying
      ∧ maintS.mi.fArmed = false ∧ maintS.canonical = true
      ∧ regRange (afterWrite (trkReg (.tcor 5)) 0x345 maintS) (trkReg (.tcor 5)) (maskW (trkReg (.tcor 5)) 0x345) = true
      ∧ regRange (afterWrite (trkReg .wheel) 0x0883C maintS) (trkReg .wheel) (maskW (trkReg .wheel) 0x0883C) = true
      ∧ regRange (afterWrite (trkReg .spdMax) 5000 maintS) (trkReg .spdMax) (maskW (trkReg .spdMax) 5000) = true
      ∧ RowReady Op.regWrite .a (trkS .revSync) ∧ (trkS .revSync).trk.st = .revSync ∧ (trkS .revSync).trk.st ≠ .stopped
      ∧ RowReady Op.regWrite .a runS ∧ runS.trk.st = .stopped ∧ (trkS .revSync).mi.fArmed = false
      ∧ (trkS .revSync).canonical = true := by
  and_intros <;> first
    | exact ready_row (by decide +kernel)
    | exact ready_packet (by decide +kernel)
    | exact ready_head (by decide +kernel)
    | exact ready_serve (by decide +kernel)
    | exact taps_free (by decide +kernel)
    | decide +kernel

/-- An injection of a point is armed. -/
def armed (dom : BitVec 4) (c : BitVec 5) (s : State) : State :=
  modInj (fun i => { i with armed := some { dom := dom, cause := c, unit := 63, arg := 0, left := 1, since := 0, until_ := some 6000000 } }) s

theorem witness_SamplingAndServiceRegisters :
    let q := modPan 2 5 (fun k => { k with st := .closed }) runS
    let c := modCask (fun k => { k with closed := [4, 5] }) (cfgSet .caskCfg 0xFFFFF maintS)
    RowReady Op.regWrite .a q ∧ (2 : BitVec 3).toNat = (2 : Grp).val ∧ (pan q 2 ⟨5, by decide⟩).st ≠ .opened ∧ (7 : BitVec 3).toNat = 7
      ∧ (lnk (modLink 1 (fun l => { l with st := .down }) runS) 1).st ≠ .up
      ∧ RowReady Op.regWrite .a maintS ∧ maintS.pw.dev = .maint ∧ maintS.cask.st = .idle ∧ maintS.cask.rack = []
      ∧ maintS.cask.autoSlot = none ∧ (∀ (g : Grp) (q : Fin 16), (pan maintS g q).st ≠ .opened) ∧ fld (0x8009 : BitVec 16) 9 6 = 0
      ∧ meminjOk maintS = true ∧ (maintS.cask.closed = [] ∨ cfgBit maintS .caskCfg 1 = false)
      ∧ RowReady Op.regWrite .a c ∧ c.cask.closed = [4, 5] ∧ cfgBit c .caskCfg 1 = true ∧ c.cask.autoSlot = none
      ∧ maintS.inj.armed = none ∧ RowReady Op.regWrite .a (armed 11 1 maintS) ∧ (armed 11 1 maintS).inj.armed.isSome = true := by
  and_intros <;> first
    | exact ready_row (by decide +kernel)
    | exact ready_packet (by decide +kernel)
    | exact ready_head (by decide +kernel)
    | exact ready_serve (by decide +kernel)
    | exact taps_free (by decide +kernel)
    | decide +kernel

/-- CHAN_CONFIG of channel 9: its word CFG. -/
def ccm (w0 v : Word) : Msg := msg [w0, 0x200, 0, 0, 0x40, v]
def ccS (w0 v : Word) : State := put Op.chanConfig (ccm w0 v) cfgS

theorem witness_ChannelConfiguration :
    RowReady Op.regWrite .a cfgS ∧ isOwned cfgS = false ∧ cfgS.cask.st ≠ .replaying ∧ cfgS.canonical = true ∧ (∀ k, chMode cfgS k ≤ 8)
      ∧ fld (8 : Word) 0 4 ≤ 8 ∧ fld (8 : Word) 0 4 = mAiDiff ∧ (8 : Chan).val % 2 = 0 ∧ modeStateOk cfgS 8 (fld (8 : Word) 0 4) = true
      ∧ PacketReady Op.chanConfig (ccm 0 3) (ccS 0 3) ∧ PacketReady Op.chanConfig (ccm 1 3) (ccS 1 3)
      ∧ PacketReady Op.chanConfig (ccm 0 9) (ccS 0 9) ∧ 4 ≤ (ccm 0 3).words.length ∧ (ccm 0 3).words.length ≤ 2046
      ∧ cfgShape (ccm 0 3) = true ∧ cfgRange (ccS 0 3) (ccm 0 3) = true ∧ cfgUnits (ccm 0 3) = [(9, [(0x6240, 3)])]
      ∧ cfgShape (ccm 1 3) = true ∧ cfgRange (ccS 1 3) (ccm 1 3) = true ∧ cfgUnits (ccm 1 3) = [(9, [(0x6240, 3)])]
      ∧ cfgShape (ccm 0 9) = true ∧ cfgRange (ccS 0 9) (ccm 0 9) = true ∧ cfgUnits (ccm 0 9) = [(9, [(0x6240, 9)])]
      ∧ staged (ccm 0 3) = false ∧ judgeUnit Op.chanConfig .a [(0x6240, 3)] (takenUp Op.chanConfig (ccm 0 3) (ccS 0 3)) = none
      ∧ judgeUnit Op.chanConfig .a [(0x6240, 9)] (takenUp Op.chanConfig (ccm 0 9) (ccS 0 9)) = some stRange
      ∧ staged (ccm 1 3) = true ∧ judgeUnit Op.chanConfig .a [(0x6240, 3)] (takenUp Op.chanConfig (ccm 1 3) (ccS 1 3)) = none
      ∧ (lnk (ccS 1 3) (chanGrp 9)).st = .up
      ∧ dieValues (unitEffect (takenUp Op.chanConfig (ccm 1 3) (ccS 1 3)) 9 [(0x6240, 3)]).2.1 ≠ [] := by
  and_intros <;> first
    | exact ready_row (by decide +kernel)
    | exact ready_packet (by decide +kernel)
    | exact ready_head (by decide +kernel)
    | exact ready_serve (by decide +kernel)
    | exact taps_free (by decide +kernel)
    | decide +kernel

/-- Windows 0 and 1 of the memory master port over select 0, writable. -/
def mmpOn (s : State) : State :=
  cfgSet (.mmpWin 1 2) 0xFFFF (cfgSet (.mmpWin 1 1) 0 (cfgSet (.mmpWin 1 0) 0x0C0 (cfgSet (.mmpWin 0 2) 0xFFFF (cfgSet (.mmpWin 0 1) 0
    (cfgSet (.mmpWin 0 0) 0x0C0 (cfgSet (.mmpSel 0 3) 0x1078 (cfgSet (.mmpSel 0 2) 0x30000 (cfgSet (.mmpSel 0 0) 0x0003D
      (cfgSet .mmpCfg 1 s)))))))))

def angW : Word := BitVec.ofNat 20 Reg.angOfs.addr
def whlW : Word := BitVec.ofNat 20 Reg.wheel.addr
def rwS (ws : List Word) : State := put Op.regWrite (msg ws) cfgS

theorem witness_RegisterAccesses :
    RowReady Op.regRead .a (mmpOn cfgS) ∧ hdataOk (mmpOn cfgS) .a false 3 = true ∧ hdataOk (mmpOn cfgS) .a true 3 = true
      ∧ RowReady Op.regWrite .a (mmpOn cfgS) ∧ inConfMaint (mmpOn cfgS) = true
      ∧ (BitVec.ofNat 16 (Reg.tb 0).addr).toNat = (Reg.tb 0).addr
      ∧ (BitVec.ofNat 16 (Reg.ang 1).addr).toNat = (Reg.ang 1).addr ∧ isHigher (Reg.ang 1) = true
      ∧ PacketReady Op.regRead (msg [0x10, 0x1800]) (put Op.regRead (msg [0x10, 0x1800]) cfgS)
      ∧ (fld (0x10 : Word) 16 4 = 0 ∧ hdataIx (0x10 : Word).toNat = none ∧ fld (0x1800 : Word) 16 4 = 0 ∧ hdataIx (0x1800 : Word).toNat = none)
      ∧ PacketReady Op.regRead (msg [0x10, 0x10011]) (put Op.regRead (msg [0x10, 0x10011]) cfgS)
      ∧ ((0x10011 : Word) ∈ (msg [0x10, 0x10011]).words ∧ fld (0x10011 : Word) 16 4 ≠ 0)
      ∧ PacketReady Op.regRead (msg [0x8603]) (put Op.regRead (msg [0x8603]) (mmpOn cfgS))
      ∧ (msg [0x8603]).words = [BitVec.ofNat 20 (0x8600 + (3 : Fin 512).val)]
      ∧ hdataOk (put Op.regRead (msg [0x8603]) (mmpOn cfgS)) .a false 3 = true
      ∧ hdataIx angW.toNat = none ∧ hdataIx whlW.toNat = none
      ∧ PacketReady Op.regWrite (msg [0, angW, 5]) (rwS [0, angW, 5])
      ∧ judgePair Op.regWrite .a (angW, 5) (takenUp Op.regWrite (msg [0, angW, 5]) (rwS [0, angW, 5])) = none
      ∧ PacketReady Op.regWrite (msg [1, angW, 5]) (rwS [1, angW, 5]) ∧ portVintage (rwS [1, angW, 5]) .a = 3
      ∧ PacketReady Op.regWrite (msg [0, angW, 5, angW, 7]) (rwS [0, angW, 5, angW, 7])
      ∧ judgePair Op.regWrite .a (angW, 7) (writeAddr .a angW.toNat 5 (takenUp Op.regWrite (msg [0, angW, 5, angW, 7])
          (rwS [0, angW, 5, angW, 7]))) = none
      ∧ judgePair Op.regWrite .a (whlW, 0) (writeAddr .a angW.toNat 5 (takenUp Op.regWrite (msg [0, angW, 5, whlW, 0])
          (rwS [0, angW, 5, whlW, 0]))) = some stRange
      ∧ judgePair Op.regWrite .a (whlW, 0) (takenUp Op.regWrite (msg [0, whlW, 0, angW, 5]) (rwS [0, whlW, 0, angW, 5])) = some stRange
      ∧ judgePair Op.regWrite .a (whlW, 0) (takenUp Op.regWrite (msg [1, whlW, 0, angW, 5]) (rwS [1, whlW, 0, angW, 5])) = some stRange := by
  and_intros <;> first
    | exact ready_row (by decide +kernel)
    | exact ready_packet (by decide +kernel)
    | exact ready_head (by decide +kernel)
    | exact ready_serve (by decide +kernel)
    | exact taps_free (by decide +kernel)
    | decide +kernel

/-- Port A has agreed another vintage. -/
def vint (k : BitVec 2) (s : State) : State := modPort .a (fun x => { x with vintage := k }) s

theorem witness_PacketsAndReplies :
    PacketHead Op.status (msg []) (put Op.status (msg []) runS) ∧ cfgBit runS .caskCfg 3 = false
      ∧ runS.mi.fArmed = false ∧ isLive runS = true
      ∧ packetOf (.attest (msg [0, 1])) = some (Op.attest, msg [0, 1]) ∧ (opInfo Op.attest).isSome = true
      ∧ PacketHead Op.attest { msg [0, 1] with good := false } (put Op.attest { msg [0, 1] with good := false } runS)
      ∧ PacketHead Op.attest (msg [0, 1]) (put Op.attest (msg [0, 1]) (vint 1 runS))
      ∧ portVintage (put Op.attest (msg [0, 1]) (vint 1 runS)) .a = 1
      ∧ PacketHead Op.attest (msg [0, 1]) (put Op.attest (msg [0, 1]) (vint 2 runS))
      ∧ portVintage (put Op.attest (msg [0, 1]) (vint 2 runS)) .a = 2
      ∧ (opInfo Op.attest).map (fun i => i.vintage) = some 3
      ∧ PacketHead Op.stateReq (msg [0]) (put Op.stateReq (msg [0]) (inSt .lockdown))
      ∧ opPermitted Op.stateReq (put Op.stateReq (msg [0]) (inSt .lockdown)).pw.dev = false := by
  and_intros <;> first
    | exact ready_row (by decide +kernel)
    | exact ready_packet (by decide +kernel)
    | exact ready_head (by decide +kernel)
    | exact ready_serve (by decide +kernel)
    | exact taps_free (by decide +kernel)
    | decide +kernel

theorem witness_HelloAndStatus :
    PacketReady Op.hello (msg [0x33]) (put Op.hello (msg [0x33]) runS) ∧ fld (0x33 : Word) 8 12 = 0
      ∧ PacketReady Op.hello (msg [0x4F]) (put Op.hello (msg [0x4F]) (vint 1 runS)) ∧ ¬ fld (0x4F : Word) 4 4 ≤ 3
      ∧ PacketReady Op.status (msg []) (put Op.status (msg []) runS) := by
  and_intros <;> first
    | exact ready_row (by decide +kernel)
    | exact ready_packet (by decide +kernel)
    | exact ready_head (by decide +kernel)
    | exact ready_serve (by decide +kernel)
    | exact taps_free (by decide +kernel)
    | decide +kernel

/-- Tap 9 with a holder. -/
def tapS (h : Option Port) (s : State) : State := modTap 9 (fun t => { t with holder := h }) s

theorem witness_TapTakeReply :
    (∀ h ∈ [none, some Port.a, some .b], (put Op.tapTake (msg [9]) (tapS h runS)).taps[(tapNo (msg [9]))].holder = h)
      ∧ PacketReady Op.tapTake (msg [9]) (put Op.tapTake (msg [9]) (tapS none runS))
      ∧ PacketReady Op.tapTake (msg [9]) (put Op.tapTake (msg [9]) (tapS (some .a) runS))
      ∧ PacketReady Op.tapTake (msg [9]) (put Op.tapTake (msg [9]) (tapS (some .b) runS)) ∧ fld (9 : Word) 5 15 = 0
      ∧ PacketReady Op.tapTake (msg [31]) (put Op.tapTake (msg [31]) runS) ∧ fld (31 : Word) 5 15 = 0 := by
  and_intros <;> first
    | exact ready_row (by decide +kernel)
    | exact ready_packet (by decide +kernel)
    | exact ready_head (by decide +kernel)
    | exact ready_serve (by decide +kernel)
    | exact taps_free (by decide +kernel)
    | decide +kernel

theorem witness_TapIsFreed :
    PacketReady Op.tapRelease (msg [9]) (put Op.tapRelease (msg [9]) (tapS none runS))
      ∧ PacketReady Op.tapRelease (msg [9]) (put Op.tapRelease (msg [9]) (tapS (some .a) runS))
      ∧ PacketReady Op.tapRelease (msg [9]) (put Op.tapRelease (msg [9]) (tapS (some .b) runS))
      ∧ fld (9 : Word) 5 15 = 0 ∧ fld (9 : Word) 0 5 = (9 : Fin 32).val ∧ isLive runS = true
      ∧ (∀ h ∈ [none, some Port.a, some .b], (put Op.tapRelease (msg [9]) (tapS h runS)).taps[(9 : Fin 32)].holder = h)
      ∧ (tapS (some .b) runS).taps[(9 : Fin 32)].holder.isSome = true := by
  and_intros <;> first
    | exact ready_row (by decide +kernel)
    | exact ready_packet (by decide +kernel)
    | exact ready_head (by decide +kernel)
    | exact ready_serve (by decide +kernel)
    | exact taps_free (by decide +kernel)
    | decide +kernel

def modS : State :=
  cfgSet .irqTimer 3 (cfgSet (.modCfg 2) 0x02800 (cfgSet (.intCfg 5) (3 <<< 6)
    (modIrq (fun x => { x with pend := setBit x.pend 5 true, mods := x.mods.set 2 { count := 2, timer := some 4999999 } }) runS)))

theorem witness_InterruptsAreServed :
    PacketReady Op.irqAck (msg [3, 0xF3]) (put Op.irqAck (msg [3, 0xF3]) irqS) ∧ fld (3 : Word) 3 17 = 0 ∧ fld (3 : Word) 0 2 ≠ 0
      ∧ fld (([0xF3] : List Word).getD 4 0) 16 4 = 0
      ∧ (bit (3 : Word) 1 = true ∧ bit (([0xF3] : List Word).getD ((4 : Fin 96).val / 20) 0) ((4 : Fin 96).val % 20) = true)
      ∧ (bit (3 : Word) 0 = true ∧ bit (([0xF3] : List Word).getD ((0 : Fin 96).val / 20) 0) ((0 : Fin 96).val % 20) = true
        ∧ isPend (takenUp Op.irqAck (msg [3, 0xF3]) (put Op.irqAck (msg [3, 0xF3]) irqS)) 0 = false)
      ∧ PacketReady Op.portSleep (msg []) (put Op.portSleep (msg []) irqS)
      ∧ isLive modS = true ∧ modS.irq.mods[(2 : Fin 16)].timer = some 4999999 ∧ (modTime modS 2).isSome = true
      ∧ intMod modS 5 = (2 : Fin 16).val + 1 ∧ isPend modS 5 = true ∧ modS.pw.tb0 = some 1000
      ∧ (cfgGet modS .irqTimer).toNat * 25000 ≠ 0 := by
  and_intros <;> first
    | exact ready_row (by decide +kernel)
    | exact ready_packet (by decide +kernel)
    | exact ready_head (by decide +kernel)
    | exact ready_serve (by decide +kernel)
    | exact taps_free (by decide +kernel)
    | decide +kernel

/-- Channel n has a mode. -/
def md (n : Chan) (m : Word) (s : State) : State := cfgSet (.ch n .cfg) m s
def csS (ws : List Word) (s : State) : State := put Op.chanSet (msg ws) s

theorem witness_ChannelCommands :
    PacketReady Op.chanSet (msg [73]) (csS [73] (md 9 3 runS)) ∧ runS.pw.dev = .run ∧ fld (73 : Word) 6 4 = 1 ∧ fld (73 : Word) 0 6 = (9 : Chan).val
      ∧ fld (73 : Word) 10 10 = 0 ∧ chMode (csS [73] (md 9 3 runS)) 9 = mDo ∧ isStart (csS [73] (md 9 3 runS)) 9 .on = true
      ∧ isStart (csS [9] (md 9 3 runS)) 9 .off = false ∧ PacketReady Op.chanSet (msg [9]) (csS [9] (md 9 3 runS))
      ∧ PacketReady Op.chanSet (msg [201]) (csS [201] (md 9 4 runS)) ∧ fld (201 : Word) 6 4 = 3 ∧ chMode (csS [201] (md 9 4 runS)) 9 = mDoPwm
      ∧ PacketReady Op.chanSet (msg [329, 0xEA600]) (csS [329, 0xEA600] (md 9 7 runS)) ∧ fld (329 : Word) 6 4 = 5
      ∧ chMode (csS [329, 0xEA600] (md 9 7 runS)) 9 = mAoI ∧ (0xEA600 : Word).toNat ≤ 0xEA600
      ∧ (let s := csS [265, 200] (cfgSet (.ch 9 .pwmcfg) 1 (cfgSet (.ch 9 .pwmper) 1000 (md 9 4 runS)))
        PacketReady Op.chanSet (msg [265, 200]) s ∧ fld (265 : Word) 6 4 = 4 ∧ chMode s 9 = mDoPwm
          ∧ pwmOk (cfgSet (.ch 9 .pwmduty) 200 s) 9 = true)
      ∧ PacketReady Op.chanSet (msg [393]) (csS [393] (md 9 2 runS)) ∧ fld (393 : Word) 6 4 = 6 ∧ chMode (csS [393] (md 9 2 runS)) 9 = mDiCount
      ∧ PacketReady Op.chanSet (msg [457]) (csS [457] (md 9 3 runS)) ∧ fld (457 : Word) 6 4 = 7 ∧ chMode (csS [457] (md 9 3 runS)) 9 = mDo
      ∧ PacketReady Op.chanSet (msg [73]) (csS [73] (md 9 4 runS)) ∧ chMode (csS [73] (md 9 4 runS)) 9 ≠ mDo
      ∧ PacketReady Op.chanSet (msg [521]) (csS [521] runS) ∧ 8 ≤ fld (521 : Word) 6 4
      ∧ PacketReady Op.chanGet (msg [5, 1, 0x80]) (put Op.chanGet (msg [5, 1, 0x80]) runS) ∧ fld (0x80 : Word) 8 12 = 0
      ∧ inMask 5 1 0x80 47 = true
      ∧ PacketReady Op.chanGet (msg [5, 1, 0x180]) (put Op.chanGet (msg [5, 1, 0x180]) runS) ∧ fld (0x180 : Word) 8 12 ≠ 0
      ∧ (∀ n : Chan, inMask 0 0 0 n = false) := by
  and_intros <;> first
    | exact ready_row (by decide +kernel)
    | exact ready_packet (by decide +kernel)
    | exact ready_head (by decide +kernel)
    | exact ready_serve (by decide +kernel)
    | exact taps_free (by decide +kernel)
    | decide +kernel

def sm0 : SchedMsg :=
  { id := 1, first := true, again := false, running := false, slot := 0, timeBank := false, action := 1, target := 9, mask := 0, arg := 0
    stamp := 6000000, endStamp := none, entry := 0, cyc := 0, bank := false, w0 := 0 }
def act0 : Act :=
  { id := 1, bank := false, entry := 0, cyc := 0, timeBank := false, w0 := 0, w1 := 0, w2 := 0, stamp := 6000000, committed := false
    checked := false, endStamp := none, endCommitted := false, deferred := false, late := 0, grps := [(1, some 3), (2, some 3)] }

/-- A run state with actions placed at group 1. -/
def busyS : State :=
  modLink 1 (fun l => { l with sched := [sm0], slots := 8, conf := [.host 1 .on], seqDown := 77, dnCrc := 3, vmin := 5 })
    { runS with seq := { runS.seq with acts := [act0] } }

def downS (g : Grp) (s : State) : State := modLink g (fun l => { l with st := .down }) s
def gcS (ws : List Word) (s : State) : State := put Op.groupCmd (msg ws) s

theorem witness_GroupCommands :
    let d : Deferred := { op := Op.groupCmd, port := .a, tag := 5, wake := false }
    let j : State := setGrpJob (some { cmd := d, items := [], staged := false, waiting := setBit 0 1 true, done := [], fail := none }) busyS
    PacketReady Op.groupCmd (msg [0, 17]) (gcS [0, 17] busyS) ∧ TapsFree .a (gcS [0, 17] busyS) ∧ fld (17 : Word) 0 3 = (1 : Grp).val
      ∧ fld (17 : Word) 5 15 = 0 ∧ fld (17 : Word) 3 2 = 2
      ∧ PacketReady Op.groupCmd (msg [0, 9]) (gcS [0, 9] busyS) ∧ TapsFree .a (gcS [0, 9] busyS) ∧ fld (9 : Word) 3 2 = 1
      ∧ (lnk (gcS [0, 9] busyS) 1).st = .up ∧ PacketReady Op.groupCmd (msg [0, 9]) (gcS [0, 9] (downS 1 busyS))
      ∧ (lnk (gcS [0, 9] (downS 1 busyS)) 1).st = .down
      ∧ PacketReady Op.groupCmd (msg [0, 1]) (gcS [0, 1] busyS) ∧ fld (1 : Word) 3 2 = 0 ∧ (lnk (gcS [0, 1] busyS) 1).st = .up
      ∧ PacketReady Op.groupCmd (msg [0, 1]) (gcS [0, 1] (downS 1 busyS)) ∧ (lnk (gcS [0, 1] (downS 1 busyS)) 1).st ≠ .up
      ∧ j.grpJob = some { cmd := d, items := [], staged := false, waiting := setBit 0 1 true, done := [], fail := none }
      ∧ (lnk j 1).st = .up ∧ (lnk j 1).safeFrom = none ∧ j.pw.resetSeq = none := by
  and_intros <;> first
    | exact ready_row (by decide +kernel)
    | exact ready_packet (by decide +kernel)
    | exact ready_head (by decide +kernel)
    | exact ready_serve (by decide +kernel)
    | exact taps_free (by decide +kernel)
    | decide +kernel

/-- Counter 65, of cause 1 of domain 2, has a window that ends at 6,000,000. -/
def fcS (s : State) : State := modFlt (fun f => { f with cnt := [(65, { window := 3, total := 4, until_ := some 6000000 })] }) s

theorem witness_CorrectedEventsAndDetectors :
    (fltCnt (fcS runS) (2 : Fin 12).val (1 : Fin 32).val).until_ = some 6000000 ∧ (fcS runS).now < 6000000
      ∧ (fltCnt runS (2 : Fin 12).val (1 : Fin 32).val).until_ = none ∧ isLive runS = true ∧ runS.pw.tb0.isSome = true
      ∧ runS.pw.dev ≠ .lockdown ∧ runS.aon.fatalHeld = false ∧ (inSt .lockdown).pw.tb0.isSome = true
      ∧ (inSt .lockdown).pw.dev = .lockdown ∧ (inSt .lockdown).pw.resetSeq = none := by
  and_intros <;> first
    | exact ready_row (by decide +kernel)
    | exact ready_packet (by decide +kernel)
    | exact ready_head (by decide +kernel)
    | exact ready_serve (by decide +kernel)
    | exact taps_free (by decide +kernel)
    | decide +kernel

theorem witness_ContainedAndFatalFaults :
    faultClass (6 : Fin 12).val (6 : Fin 32).val = some .contained ∧ (6 : Fin 12).val ≠ 9 ∧ isLive runS = true ∧ heldAt runS 6 = none
      ∧ isLive (holdFault 6 5 2 false runS) = true ∧ (heldAt (holdFault 6 5 2 false runS) 6).isSome = true
      ∧ (holdFault 6 5 2 false runS).pw.dev ≠ .lockdown ∧ isLive (holdFault 6 5 2 false (inSt .lockdown)) = true
      ∧ (heldAt (holdFault 6 5 2 false (inSt .lockdown)) 6).isSome = true ∧ (holdFault 6 5 2 false (inSt .lockdown)).pw.dev = .lockdown
      ∧ faultClass (6 : Fin 12).val (7 : Fin 32).val = some .fatal ∧ runS.aon.fatalHeld = false
      ∧ (modAon (fun a => { a with fatalHeld := true }) runS).aon.fatalHeld = true ∧ heldAt (inSt .lockdown) 6 = none := by
  and_intros <;> first
    | exact ready_row (by decide +kernel)
    | exact ready_packet (by decide +kernel)
    | exact ready_head (by decide +kernel)
    | exact ready_serve (by decide +kernel)
    | exact taps_free (by decide +kernel)
    | decide +kernel

/-- Two contained faults are held. -/
def fS : State :=
  modAon (fun a => { a with fatalHeld := true }) (fcS (report 2 2 63 (report 10 3 63 (modWd (fun w => { w with early := 3, wrong := 4 }) runS))))
def frS (ws : List Word) : State := put Op.faultRead (msg ws) fS

theorem witness_FaultReadAndAck :
    PacketReady Op.faultRead (msg [0]) (frS [0]) ∧ fld (0 : Word) 16 4 = 0 ∧ fld (0 : Word) 0 2 = 0
      ∧ PacketReady Op.faultRead (msg [0x401]) (frS [0x401]) ∧ fld (0x401 : Word) 16 4 = 0 ∧ fld (0x401 : Word) 0 2 = 1
      ∧ 1 ≤ fld (0x401 : Word) 9 7 ∧ fld (0x401 : Word) 2 7 + fld (0x401 : Word) 9 7 ≤ 64
      ∧ PacketReady Op.faultRead (msg [0x401, 0x400]) (frS [0x401, 0x400]) ∧ fld (0x400 : Word) 12 8 = 0
      ∧ PacketReady Op.faultRead (msg [2]) (frS [2]) ∧ fld (2 : Word) 0 2 = 2 ∧ PacketReady Op.faultRead (msg [3]) (frS [3])
      ∧ fld (3 : Word) 0 2 = 3
      ∧ PacketReady Op.faultAck (msg [0x1404]) (put Op.faultAck (msg [0x1404]) fS) ∧ fld (0x1404 : Word) 13 7 = 0
      ∧ PacketReady Op.faultAck (msg [4, 0x1804]) (put Op.faultAck (msg [4, 0x1804]) fS) ∧ fld (4 : Word) 13 7 = 0
      ∧ fld (0x1804 : Word) 13 7 = 0 := by
  and_intros <;> first
    | exact ready_row (by decide +kernel)
    | exact ready_packet (by decide +kernel)
    | exact ready_head (by decide +kernel)
    | exact ready_serve (by decide +kernel)
    | exact taps_free (by decide +kernel)
    | decide +kernel

/-- The watchdog runs for port A with its count at 50. -/
def wdS : State :=
  modWd (fun w => { w with running := true, owner := some .a, timeout := 1000, close := 10, base := 50, zero := 5000000, warn := 100
                           token := 0x12345, clkNow := true }) runS
def wdAt (n : Nat) : State := modWd (fun w => { w with base := n }) wdS
def tok : Word := nextToken 0x12345

theorem witness_TokenSequence :
    ServeArrives (msg [tok]) tok wdS ∧ ServeArrives (msg [5]) 5 wdS ∧ wdS.wd.running = true ∧ wdS.wd.owner = some (msg [5]).port
      ∧ wdCount wdS < wdS.wd.timeout.toNat ∧ wdS.wd.close.toNat ≤ wdCount wdS ∧ tok = nextToken wdS.wd.token
      ∧ (5 : Word) ≠ nextToken wdS.wd.token := by
  and_intros <;> first
    | exact ready_row (by decide +kernel)
    | exact ready_packet (by decide +kernel)
    | exact ready_head (by decide +kernel)
    | exact ready_serve (by decide +kernel)
    | exact taps_free (by decide +kernel)
    | decide +kernel

theorem witness_ServesAreJudged :
    ServeArrives (msg [nextToken wdS.wd.token]) (nextToken wdS.wd.token) wdS ∧ wdS.wd.running = true ∧ wdS.wd.owner = some .a
      ∧ wdCount wdS < wdS.wd.timeout.toNat ∧ wdS.wd.close.toNat ≤ wdCount wdS ∧ runS.wd.running = false ∧ wdS.inj.armed = none
      ∧ wdS.wd.owner ≠ some .b ∧ wdS.wd.timeout.toNat ≤ wdCount (wdAt 1000) ∧ (wdAt 1000).inj.armed = none
      ∧ wdCount (wdAt 9) < (wdAt 9).wd.close.toNat ∧ wdCount (wdAt 10) = (wdAt 10).wd.close.toNat ∧ (5 : Word) ≠ nextToken wdS.wd.token
      ∧ (∀ c ∈ [(5 : BitVec 5), 3, 4], (armed 11 c wdS).inj.armed.map (fun a => (a.dom, a.cause)) = some (11, c))
      ∧ (armed 11 4 wdS).wd.running = true ∧ (armed 11 4 wdS).wd.owner = some .a := by
  and_intros <;> first
    | exact ready_row (by decide +kernel)
    | exact ready_packet (by decide +kernel)
    | exact ready_head (by decide +kernel)
    | exact ready_serve (by decide +kernel)
    | exact taps_free (by decide +kernel)
    | decide +kernel

theorem witness_WatchdogConfigurationAndEvents :
    let n (s : State) := modWd (fun w => { w with running := false, owner := some .a, timeout := 1000, close := 10, warn := 100 }) s
    PacketReady Op.wdConfig (msg [0x54, 5, 100, 20]) (put Op.wdConfig (msg [0x54, 5, 100, 20]) runS) ∧ isOwned runS = false
      ∧ runS.wd.owner = none ∧ fld (0x54 : Word) 0 2 = 0 ∧ fld (0x54 : Word) 7 13 = 0 ∧ runS.wd.running = false
      ∧ (if bit (0x54 : Word) 6 then runS.wd.failedB else runS.wd.failedA) = false ∧ fld (0x54 : Word) 2 4 ≤ 10
      ∧ 2 ≤ (100 : Word).toNat ∧ (5 : Word).toNat < (100 : Word).toNat ∧ (20 : Word).toNat < (100 : Word).toNat
      ∧ PacketReady Op.wdConfig (msg [1, 5]) (put Op.wdConfig (msg [1, 5]) (n runS)) ∧ (n runS).wd.owner = some .a
      ∧ fld (1 : Word) 0 2 = 1 ∧ fld (1 : Word) 2 18 = 0 ∧ (n runS).wd.running = false
      ∧ wdTests (n runS).wd.pre.toNat (n runS).wd.close (n runS).wd.timeout (n runS).wd.warn = true
      ∧ PacketReady Op.wdConfig (msg [2]) (put Op.wdConfig (msg [2]) (n cfgS)) ∧ fld (2 : Word) 0 2 = 2 ∧ fld (2 : Word) 2 18 = 0
      ∧ inConfMaint (n cfgS) = true ∧ isOwned (n cfgS) = false
      ∧ wdS.wd.running = true ∧ wdS.wd.warn ≠ 0 ∧ wdS.wd.warned = false ∧ runS.wd.running = false ∧ wdMonitored wdS = true := by
  and_intros <;> first
    | exact ready_row (by decide +kernel)
    | exact ready_packet (by decide +kernel)
    | exact ready_head (by decide +kernel)
    | exact ready_serve (by decide +kernel)
    | exact taps_free (by decide +kernel)
    | decide +kernel

def caS (ws : List Word) (s : State) : State := put Op.caskCtrl (msg ws) s
/-- The cask records into slot 7. -/
def recS (s : State) : State :=
  modCask (fun k => { k with st := .recording, opened := true, used := 24, slot := 7, closed := [5, 6], base := 100 }) (cfgSet .caskCfg 0xFFFFD s)

theorem witness_CaskCommands :
    let i := modCask (fun k => { k with closed := [5], autoSlot := some 5, tries := 1 }) runS
    let u (w : Word) (l : List Word) (s : State) := takenUp Op.caskCtrl (msg (w :: l)) (caS (w :: l) s)
    PacketReady Op.caskCtrl (msg [0]) (caS [0] (recS runS)) ∧ fld (0 : Word) 11 9 = 0 ∧ fld (0 : Word) 0 3 = 0
      ∧ PacketReady Op.caskCtrl (msg [4]) (caS [4] i) ∧ fld (4 : Word) 0 3 = 4 ∧ (u 4 [] i).cask.st = .idle
      ∧ PacketReady Op.caskCtrl (msg [5, 1]) (caS [5, 1] (recS runS)) ∧ fld (5 : Word) 0 3 = 5
      ∧ PacketReady Op.caskCtrl (msg [5, 1, 2, 3, 4, 5, 6, 7]) (caS [5, 1, 2, 3, 4, 5, 6, 7] (recS runS))
      ∧ (u 5 [1] (recS runS)).cask.ending = none ∧ (u 5 [1] (recS runS)).cask.st = .recording
      ∧ PacketReady Op.caskCtrl (msg [1]) (caS [1] cfgS) ∧ fld (1 : Word) 0 3 = 1 ∧ (u 1 [] cfgS).cask.st = .idle
      ∧ (u 1 [] cfgS).cask.closed.contains (u 1 [] cfgS).cask.slot = false
      ∧ PacketReady Op.caskCtrl (msg [2]) (caS [2] (recS runS)) ∧ fld (2 : Word) 0 3 = 2 ∧ (u 2 [] (recS runS)).cask.st = .recording
      ∧ (u 2 [] (recS runS)).cask.ending = none ∧ (u 2 [] (recS runS)).cask.opened = true
      ∧ PacketReady Op.caskCtrl (msg [43]) (caS [43] (recS runS)) ∧ fld (43 : Word) 0 3 = 3 ∧ fld (43 : Word) 11 9 = 0
      ∧ (u 43 [] (recS runS)).cask.st = .recording ∧ (u 43 [] (recS runS)).cask.ending = none := by
  and_intros <;> first
    | exact ready_row (by decide +kernel)
    | exact ready_packet (by decide +kernel)
    | exact ready_head (by decide +kernel)
    | exact ready_serve (by decide +kernel)
    | exact taps_free (by decide +kernel)
    | decide +kernel

theorem witness_MemoriesAreReadByPackets :
    let r (w : Word) := cfgSet (.panRegion 1 2) 0x00C03 (modPan 1 2 (fun p => { p with st := .closed }) (put Op.panRead (msg [w, 3]) runS))
    PacketReady Op.trellisRead (msg [1, 0xAA800]) (put Op.trellisRead (msg [1, 0xAA800]) runS) ∧ fld (1 : Word) 1 19 = 0
      ∧ fld (0xAA800 : Word) 10 10 = 682 ∧ fld (0xAA800 : Word) 0 10 + fld (0xAA800 : Word) 10 10 ≤ 1024
      ∧ underTest (takenUp Op.trellisRead (msg [1, 0xAA800]) (put Op.trellisRead (msg [1, 0xAA800]) runS)) 1 = false
      ∧ PacketReady Op.caskRead (msg [0x301, 3]) (put Op.caskRead (msg [0x301, 3]) runS) ∧ bit (0x301 : Word) 19 = false
      ∧ 1 ≤ fld (0x301 : Word) 8 11 ∧ fld (0x301 : Word) 8 11 ≤ 2046 ∧ fld (3 : Word) 12 8 = 0 ∧ fld (3 : Word) 0 12 + fld (0x301 : Word) 8 11 ≤ 4096
      ∧ underTest (takenUp Op.caskRead (msg [0x301, 3]) (put Op.caskRead (msg [0x301, 3]) runS)) 8 = false
      ∧ PacketReady Op.panRead (msg [0x391, 3]) (r 0x391) ∧ fld (0x391 : Word) 0 3 = (1 : Grp).val ∧ fld (0x391 : Word) 3 4 = (2 : Fin 16).val
      ∧ bit (0x391 : Word) 19 = false ∧ 1 ≤ fld (0x391 : Word) 8 11 ∧ fld (0x391 : Word) 8 11 ≤ 2046
      ∧ fld (3 : Word) 0 16 + fld (0x391 : Word) 8 11 ≤ panSize (r 0x391) 1 2 ∧ fld (3 : Word) 16 4 = 0
      ∧ bit (0x391 : Word) 7 = true ∧ (pan (r 0x391) 1 2).st ≠ .opened
      ∧ underTest (takenUp Op.panRead (msg [0x391, 3]) (r 0x391)) (panM 1) = false := by
  and_intros <;> first
    | exact ready_row (by decide +kernel)
    | exact ready_packet (by decide +kernel)
    | exact ready_head (by decide +kernel)
    | exact ready_serve (by decide +kernel)
    | exact taps_free (by decide +kernel)
    | decide +kernel

def dR (op : Op) (t : BitVec 7) : Deferred := { op := op, port := .a, tag := t, wake := false }
def rkS (s : State) : State := put Op.rack (msg [0, 3]) s
def closedS (l : List Nat) (s : State) : State := modCask (fun k => { k with closed := l }) s

theorem witness_RackingWritesPages :
    let j : RackJob := { cmd := dR Op.rack 5, staged := false, pages := [3, 4, 5], slots := [], nDone := 2, wait := 0, ended := true, fail := none }
    let w (j : RackJob) : State := modCask (fun k => { k with rack := [j] }) { runS with deferred := [j.cmd] }
    let a (f : MmpReq → MmpReq) (n : Nat) : State :=
      modMmp (fun m => { m with reqs := [f (rackReq runS 3 7 none)] }) (modCask (fun k => { k with autoSlot := some 7, closed := [7, 8], tries := n })
        (cfgSet .caskRcount 100 (cfgSet .caskRbase 0 (cfgSet .caskCfg 2 (mmpOn runS)))))
    PacketReady Op.rack (msg [0, 3]) (rkS (closedS [7, 8] (mmpOn runS))) ∧ cfgBit (rkS (closedS [7, 8] (mmpOn runS))) .caskCfg 1 = false
      ∧ (takenUp Op.rack (msg [0, 3]) (rkS (closedS [7, 8] (mmpOn runS)))).cask.rack = []
      ∧ rackable (takenUp Op.rack (msg [0, 3]) (rkS (closedS [7, 8] (mmpOn runS)))) = [7, 8]
      ∧ inWindowW (rkS (closedS [7, 8] (mmpOn runS))) 1 (4096 * (3 : Word).toNat) 4096 = true
      ∧ PacketReady Op.rack (msg [0, 3]) (rkS (mmpOn runS)) ∧ rackable (takenUp Op.rack (msg [0, 3]) (rkS (mmpOn runS))) = []
      ∧ (w j).cask.rack.find? (·.ended) = some j ∧ (w j).deferred.contains j.cmd = true ∧ j.fail = none
      ∧ (let k := { j with fail := some (stFault, 5) }
        (w k).cask.rack.find? (·.ended) = some k ∧ k.fail = some (stFault, 5) ∧ k.staged = false ∧ 1 ≤ k.nDone)
      ∧ (autoEnded (a (fun q => { q with done := q.len }) 1)).map (fun q => q.failed) = some none
      ∧ (a (fun q => { q with done := q.len }) 1).cask.autoSlot = some 7
      ∧ ((autoEnded (a (fun q => { q with failed := some 2 }) 0)).map fun q => q.failed.isSome) = some true
      ∧ (a (fun q => { q with failed := some 2 }) 0).cask.tries = 0 ∧ (a (fun q => { q with failed := some 2 }) 1).cask.tries ≠ 0 := by
  and_intros <;> first
    | exact ready_row (by decide +kernel)
    | exact ready_packet (by decide +kernel)
    | exact ready_head (by decide +kernel)
    | exact ready_serve (by decide +kernel)
    | exact taps_free (by decide +kernel)
    | decide +kernel

theorem witness_SegmentsRollHashAndSign :
    let h := modCask (fun k => { k with toHash := [(5, 64), (6, 65)], cfgHash := [1] }) (recS runS)
    let n := modCask (fun k => { k with toSign := [(64, word256 7)] }) runS
    (segTicks (recS runS)).isSome = true ∧ recOn (recS runS) = true ∧ (recS runS).cask.opened = true ∧ (recS runS).cask.freeze = none
      ∧ recOn h = true ∧ (cfgHash h).length ≠ h.cask.cfgHash.length ∧ h.cask.toHash = [(5, 64), (6, 65)] ∧ 64 % 64 = 0
      ∧ n.cask.toSign = [(64, word256 7)] ∧ n.cask.ending = none ∧ n.cask.opened = false := by
  and_intros <;> first
    | exact ready_row (by decide +kernel)
    | exact ready_packet (by decide +kernel)
    | exact ready_head (by decide +kernel)
    | exact ready_serve (by decide +kernel)
    | exact taps_free (by decide +kernel)
    | decide +kernel

/-- A recorded segment: a header of 24 words with its length, a CHECKPOINT of 48 words and further records. -/
def rpl (began : Bool) (ws : List Word) (res : Option (BitVec 3)) : Replay :=
  { cmd := dR Op.replay 9, pages := false, strict := false, first := 0, count := 1, earliest := 0, began := began, seg := 0, words := ws
    pos := 24, hi := 0, result := res, matched := 0, cfgHash := [], prevHash := [], recState := 0, shadowSegs := 0, lastEnd := 0, asked := 0
    source := [], failed := false }
def rplS (r : Replay) : State := modCask (fun k => { k with st := .replaying, replay := some r }) { maintS with deferred := [r.cmd] }
/-- A segment whose data are one record. -/
def seg (l : List Word) : List Word := (List.replicate 7 0 ++ [BitVec.ofNat 20 l.length] ++ List.replicate 16 0) ++ l
def rpM (ws : List Word) : Msg := { msg ws with tag := 9 }

theorem witness_ReplaysRun :
    let u (ws : List Word) (s : State) := takenUp Op.replay (rpM ws) (put Op.replay (rpM ws) s)
    let x := { rpl true [] none with cmd := dR Op.replay 11 }
    PacketReady Op.replay (rpM [0, 0, 1]) (put Op.replay (rpM [0, 0, 1]) maintS) ∧ bit (0 : Word) 0 = false ∧ fld (0 : Word) 3 17 = 0
      ∧ (1 : Word) ≠ 0 ∧ (0 : Word).toNat < 256 ∧ (u [0, 0, 1] maintS).cask.st = .idle ∧ noOpenPan (put Op.replay (rpM [0, 0, 1]) maintS) = true
      ∧ PacketReady Op.replay (rpM [6, 300, 1]) (put Op.replay (rpM [6, 300, 1]) maintS) ∧ bit (6 : Word) 1 = true ∧ fld (6 : Word) 3 17 = 0
      ∧ PacketReady Op.replay (rpM [1]) (put Op.replay (rpM [1]) maintS) ∧ bit (1 : Word) 0 = true ∧ fld (1 : Word) 3 17 = 0
      ∧ dR Op.replay 9 ∉ maintS.deferred ∧ (u [1] maintS).cask.replay = none ∧ (u [1] maintS).cask.st ≠ .replaying
      ∧ PacketReady Op.replay (rpM [1]) (put Op.replay (rpM [1]) (rplS x)) ∧ (u [1] (rplS x)).cask.replay = some x
      ∧ (u [1] (rplS x)).cask.st = .replaying ∧ x.cmd ≠ dR Op.replay 9
      ∧ (rplS (rpl true [] (some 0))).cask.replay = some (rpl true [] (some 0)) ∧ (rpl true [] (some 0)).result = some 0
      ∧ (rplS (rpl true (seg [recWord0 4 1 69, 1000]) none)).cask.replay = some (rpl true (seg [recWord0 4 1 69, 1000]) none)
      ∧ (rpl true (seg [recWord0 4 1 69, 1000]) none).pos < segEnd (seg [recWord0 4 1 69, 1000])
      ∧ (recAt (seg [recWord0 4 1 69, 1000]) 24 0).type = 4 ∧ (recAt (seg [recWord0 4 1 69, 1000]) 24 0).arg % 64 = (5 : Chan).val
      ∧ (recAt (seg [recWord0 3 2 4, 1000, 7]) 24 0).type = 3 ∧ (rpl true (seg [recWord0 3 2 4, 1000, 7]) none).pos < segEnd (seg [recWord0 3 2 4, 1000, 7])
      ∧ (recAt (seg [recWord0 7 2 4, 1000, 7]) 24 0).type = 7 := by
  and_intros <;> first
    | exact ready_row (by decide +kernel)
    | exact ready_packet (by decide +kernel)
    | exact ready_head (by decide +kernel)
    | exact ready_serve (by decide +kernel)
    | exact taps_free (by decide +kernel)
    | decide +kernel

/-- A segment read from a page of the device. -/
def pageS (ws : List Word) : State := rplS { rpl false [] none with pages := true, source := [ws] }
/-- A first segment: its header names type 1 and the number 0, and its first record is a CHECKPOINT. -/
def seg0 : List Word := [1, 0, 0, 0, 0, 0, 0, 5] ++ List.replicate 16 0 ++ [recWord0 0x0C 4 0, 1000, 0, 0, 0]

theorem witness_ReplaysRun_begin :
    (∃ u, replayFetch 0 (pageS (seg [])) = (.words (seg []), u)) ∧ checkpointAt (seg []) = none
      ∧ (∃ u, replayFetch 0 (pageS seg0) = (.words seg0, u)) ∧ (checkpointAt seg0).isSome = true
      ∧ ({ rpl false [] none with pages := true, source := [seg0] } : Replay).strict = false
      ∧ ({ rpl false [] none with pages := true, source := [seg0] } : Replay).began = false := by
  refine ⟨⟨_, rfl⟩, ?_, ⟨_, rfl⟩, ?_⟩ <;> decide +kernel

def calS (ws : List Word) (s : State) : State := put Op.calSet (msg ws) (cfgSet (.ch 8 .calcfg) 3 s)

theorem witness_CalSetWritesTrims :
    let st : State := { maintS with cal := { maintS.cal with trims := [(57, 7, 9)], storing := some 7 } }
    PacketReady Op.calSet (msg [136, 5, 6]) (calS [136, 5, 6] maintS) ∧ rising maintS.cal.trims = true ∧ bit (136 : Word) 9 = false
      ∧ calPlace 136 = true ∧ fld (136 : Word) 11 9 = 0 ∧ fld (5 : Word) 16 4 = 0 ∧ calAuth (calS [136, 5, 6] maintS) (calChan 136) .a = true
      ∧ PacketReady Op.calSet (msg [648, 0]) (calS [648, 0] maintS) ∧ bit (648 : Word) 9 = true ∧ calPlace 648 = true ∧ fld (648 : Word) 11 9 = 0
      ∧ PacketReady Op.calSet (msg [1160, 5, 6]) (calS [1160, 5, 6] maintS) ∧ bit (1160 : Word) 9 = false ∧ bit (1160 : Word) 10 = true
      ∧ calPlace 1160 = true ∧ fld (1160 : Word) 11 9 = 0 ∧ (calS [1160, 5, 6] maintS).cal.storing = none
      ∧ PacketReady Op.calSet (msg [1160, 5, 6]) (calS [1160, 5, 6] st) ∧ (calS [1160, 5, 6] st).cal.storing.isSome = true
      ∧ rising st.cal.trims = true := by
  and_intros <;> first
    | exact ready_row (by decide +kernel)
    | exact ready_packet (by decide +kernel)
    | exact ready_head (by decide +kernel)
    | exact ready_serve (by decide +kernel)
    | exact taps_free (by decide +kernel)
    | decide +kernel

def armC (w : Word) (s : State) : State := put Op.calArm (msg [w]) (cfgSet (.ch 8 .calcfg) 3 (cfgSet (.ch 8 .cfg) 6 s))
def arm0 : CalArm := { who := dR Op.calArm 9, n := 8, set := 2, ref := 0xC3500, store := false, since := 4000000 }
def capC (tried : Nat) (sum : Int) : Capture :=
  { span := true, next := 5100000, tried := tried, made := tried - 50, sum := sum, beyond := false }
def capS (tried : Nat) (sum : Int) (s : State) : State := { s with cal := { s.cal with arm := some arm0, cap := some (capC tried sum) } }

/-- An arming waits for its button. -/
def armedC : State := { maintS with cal := { maintS.cal with arm := some arm0 }, deferred := [arm0.who] }
theorem witness_CalibrationCaptures :
    PacketReady Op.calArm (msg [648]) (armC 648 maintS) ∧ fld (648 : Word) 10 10 = 0 ∧ (armC 648 maintS).cal.arm = none
      ∧ armRangeOk (armC 648 maintS) (msg [648]) = true ∧ calAuth (armC 648 maintS) (calChan 648) .a = true
      ∧ PacketReady Op.calArm (msg [1024]) (armC 1024 armedC) ∧ fld (1024 : Word) 11 9 = 0 ∧ bit (1024 : Word) 10 = true
      ∧ (armC 1024 armedC).cal.arm = some arm0 ∧ arm0.who.port = (msg [1024]).port ∧ arm0.who ≠ dR Op.calArm 5
      ∧ PacketReady Op.calArm (msg [1024]) (armC 1024 maintS) ∧ dR Op.calArm 5 ∉ (armC 1024 maintS).deferred
      ∧ armedC.cal.arm = some arm0 ∧ armedC.cal.cap = none ∧ isLive armedC = true
      ∧ (capS 999 5000 maintS).cal.arm = some arm0 ∧ (capS 999 5000 maintS).cal.cap = some (capC 999 5000) ∧ (capC 999 5000).tried < 1000
      ∧ (capS 1000 9500 maintS).cal.cap = some (capC 1000 9500) ∧ 1000 ≤ (capC 1000 9500).tried
      ∧ captureResult arm0 (capC 1000 9500) (trimOf (capS 1000 9500 maintS) 8 2) = none
      ∧ (captureResult arm0 (capC 1000 778050000) (trimOf (capS 1000 778050000 maintS) 8 2)).isSome = true
      ∧ rising (capS 1000 778050000 maintS).cal.trims = true
      ∧ ({ maintS with cal := { maintS.cal with storing := some 100 } } : State).cal.storing = some 100 := by
  and_intros <;> first
    | exact ready_row (by decide +kernel)
    | exact ready_packet (by decide +kernel)
    | exact ready_head (by decide +kernel)
    | exact ready_serve (by decide +kernel)
    | exact taps_free (by decide +kernel)
    | decide +kernel

def jobsS (l : List SecJob) (s : State) : State := { s with sec := { s.sec with jobs := l } }

theorem witness_AttestationIsAnswered :
    PacketReady Op.attest (msg [0, 5]) (put Op.attest (msg [0, 5]) maintS) ∧ (msg [0, 5]).words.length ≤ 16 ∧ fld (0 : Word) 2 18 = 0
      ∧ fld (0 : Word) 0 2 = 0 ∧ ([5] : List Word) ≠ []
      ∧ PacketReady Op.attest (msg [1]) (put Op.attest (msg [1]) maintS) ∧ fld (1 : Word) 0 2 = 1 ∧ fld (1 : Word) 2 18 = 0
      ∧ PacketReady Op.attest (msg [2]) (put Op.attest (msg [2]) maintS) ∧ fld (2 : Word) 0 2 = 2 ∧ fld (2 : Word) 2 18 = 0
      ∧ (∀ l ∈ [[(0 : Word), 5], [1], [2]], (jobsS [.attest (dR Op.attest 9) (msg l).words []] maintS).sec.jobs
          = [.attest (dR Op.attest 9) (msg l).words []]) := by
  and_intros <;> first
    | exact ready_row (by decide +kernel)
    | exact ready_packet (by decide +kernel)
    | exact ready_head (by decide +kernel)
    | exact ready_serve (by decide +kernel)
    | exact taps_free (by decide +kernel)
    | decide +kernel

/-- The owner's key is the generator of the curve, whose private key is 1; its signature with the nonce 1. -/
def signG (ms : List Word) : List Word := word256 p256Gx ++ word256 ((shaOf ms + p256Gx) % p256N)
def slot1 (o : OwnerSlot) (s : State) : State :=
  { s with sec := { s.sec with cellar := { s.sec.cellar with slots := s.sec.cellar.slots.set 1 o } } }
def freeS (s : State) : State := slot1 { hash := none, revoked := true } s
def ownedS (s : State) : State :=
  let t := slot1 { hash := some (keyHash p256Gx p256Gy), revoked := false } s
  { t with sec := { t.sec with confs := t.sec.confs.set (curConf t) { t.sec.confs[curConf t] with key := some (p256Gx, p256Gy) } } }

/-- A bundle of two pairs, signed by the owner. -/
def bunBody : List Word :=
  [0x11, 1, 0, 0, 5, 2, 1, 3] ++ [BitVec.ofNat 20 Reg.spdMin.addr, 100, BitVec.ofNat 20 Reg.spdMax.addr, 1000] ++ word256 77
def bun : List Word := bunBody ++ signG bunBody
def sealS (w : Word) (s : State) : State := put Op.sealLoad (msg (w :: bun)) s

theorem witness_SealBundlesTakeEffect :
    PacketReady Op.sealLoad (msg (0 :: bun)) (sealS 0 (ownedS cfgS)) ∧ (msg (0 :: bun)).words.length ≤ 2046 ∧ bun.length = bundleLen bun
      ∧ fld (0 : Word) 1 19 = 0 ∧ replaying (takenUp Op.sealLoad (msg (0 :: bun)) (sealS 0 (ownedS cfgS))) = false
      ∧ PacketReady Op.sealLoad (msg (1 :: bun)) (sealS 1 (ownedS cfgS)) ∧ bit (1 : Word) 0 = true ∧ fld (1 : Word) 1 19 = 0
      ∧ confSession (sealS 1 (ownedS cfgS)) = false ∧ dR Op.sealLoad 5 ∉ (sealS 1 (ownedS cfgS)).deferred
      ∧ bundleRefused (takenUp Op.sealLoad (msg (0 :: bun)) (sealS 0 (ownedS cfgS))) bun true = none
      ∧ bundleSigned (takenUp Op.sealLoad (msg (0 :: bun)) (sealS 0 (ownedS cfgS))) bun = true
      ∧ injAt (sealS 0 (ownedS cfgS)) 9 1 = none
      ∧ (bundleRefused (takenUp Op.sealLoad (msg (0 :: bun)) (sealS 0 cfgS)) bun true).isSome = true
      ∧ PacketReady Op.sealLoad (msg (0 :: bun)) (sealS 0 cfgS)
      ∧ (let j := jobsS [.sealing (dR Op.sealLoad 9) (parseBundle bun) false]
        (j runS).sec.jobs = [.sealing (dR Op.sealLoad 9) (parseBundle bun) false] ∧ inConfMaint (j runS) = false ∧ inConfMaint (j maintS) = true
          ∧ (j maintS).canonical = true) := by
  and_intros <;> first
    | exact ready_row (by decide +kernel)
    | exact ready_packet (by decide +kernel)
    | exact ready_head (by decide +kernel)
    | exact ready_serve (by decide +kernel)
    | exact taps_free (by decide +kernel)
    | decide +kernel

def keyW : List Word := word256 p256Gx ++ word256 p256Gy
def enrW (s : State) : List Word := keyW ++ signG ([0x13#20] ++ serial2 s ++ keyW)
def enrS (s : State) : State := put Op.ownerEnroll (msg (enrW s)) s
def relW (s : State) : List Word := signG ([0x12#20] ++ serial2 s ++ [1])
def relS (s : State) : State := put Op.ownerRelease (msg (relW s)) s

theorem witness_OwnersAreEnrolledAndReleased :
    PacketReady Op.ownerEnroll (msg (enrW (freeS cfgS))) (enrS (freeS cfgS)) ∧ (msg (enrW (freeS cfgS))).words.length = 52
      ∧ confSession (enrS (freeS cfgS)) = false ∧ dR Op.ownerEnroll 5 ∉ (enrS (freeS cfgS)).deferred
      ∧ num256 (((enrW (freeS cfgS)).take 26).take 13) = p256Gx ∧ num256 (((enrW (freeS cfgS)).take 26).drop 13) = p256Gy
      ∧ (enrollSlot (freeS cfgS) 5).isSome = true ∧ enrollSlot (ownedS cfgS) 5 = none
      ∧ injAt (enrS (freeS cfgS)) 9 1 = none
      ∧ PacketReady Op.ownerRelease (msg (relW (ownedS cfgS))) (relS (ownedS cfgS)) ∧ (msg (relW (ownedS cfgS))).words.length = 26
      ∧ curSlot (relS (freeS cfgS)) = none ∧ PacketReady Op.ownerRelease (msg (relW (ownedS cfgS))) (put Op.ownerRelease (msg (relW (ownedS cfgS))) (freeS cfgS))
      ∧ curSlot (relS (ownedS cfgS)) = some 1 ∧ ownerKey (relS (ownedS cfgS)) = some (p256Gx, p256Gy)
      ∧ isLive cfgS = true
      ∧ (jobsS [.enroll (dR Op.ownerEnroll 9) 3 4 1 true] cfgS).sec.jobs = [.enroll (dR Op.ownerEnroll 9) 3 4 1 true]
      ∧ (jobsS [.release (dR Op.ownerRelease 9) 1] cfgS).sec.jobs = [.release (dR Op.ownerRelease 9) 1] := by
  and_intros <;> first
    | exact ready_row (by decide +kernel)
    | exact ready_packet (by decide +kernel)
    | exact ready_head (by decide +kernel)
    | exact ready_serve (by decide +kernel)
    | exact taps_free (by decide +kernel)
    | decide +kernel

theorem witness_OwnersAreEnrolledAndReleased_signatures :
    ecdsaVerify p256Gx p256Gy ([0x13#20] ++ serial2 (freeS cfgS) ++ (enrW (freeS cfgS)).take 26) (sigOf (tailSig (enrW (freeS cfgS)))).1
        (sigOf (tailSig (enrW (freeS cfgS)))).2 = true
      ∧ ecdsaVerify p256Gx p256Gy ([0x12#20] ++ serial2 (ownedS cfgS) ++ [BitVec.ofNat 20 1]) (sigOf (relW (ownedS cfgS))).1
        (sigOf (relW (ownedS cfgS))).2 = true := by
  and_intros <;> first
    | exact ready_row (by decide +kernel)
    | exact ready_packet (by decide +kernel)
    | exact ready_head (by decide +kernel)
    | exact ready_serve (by decide +kernel)
    | exact taps_free (by decide +kernel)
    | decide +kernel

/-- The words of NV_UPDATE_BEGIN: type and target, version, length, rollback, hash. -/
def updW (t n : Word) : List Word := [t, 7, n, 0] ++ word256 77
def nbS (ws : List Word) (s : State) : State := put Op.nvBegin (msg ws) s
def sess (ph : SessPhase) (conf : Bool) (data : List Word) : Session :=
  { phase := ph, conf := conf, port := .a, version := 8, length := 3, rollback := 0, hash := shaOf [3, 3, 3], data := data
    sig := (p256Gx, 5), cmd := dR Op.nvBegin 9 }
def sesS (x : Session) (s : State) : State := { s with deferred := [x.cmd], sec := { s.sec with sess := some x } }
/-- A firmware session with the image of the bank, which is signed. -/
def fwSess : Session :=
  { sess .committing false Config.fwImage with
    version := Config.fwVersion, length := 1, hash := Config.fwHash, sig := (Config.fwSigR, Config.fwSigS) }

theorem witness_UpdateSessions :
    let x := sess .opened true [3]
    let c := sess .opened true [3, 3, 3]
    PacketReady Op.nvBegin (msg (updW 0 3)) (nbS (updW 0 3) cfgS) ∧ (msg (updW 0 3)).words.length = 17 ∧ isOwned (nbS (updW 0 3) cfgS) = false
      ∧ (nbS (updW 0 3) cfgS).sec.sess = none ∧ updRange (msg (updW 0 3)) = true ∧ updAborts (msg (updW 0 3)) = false
      ∧ (updConf (msg (updW 0 3)) = true ∨ rbCount (nbS (updW 0 3) cfgS) ≤ fld (pword (msg (updW 0 3)) 3) 0 7)
      ∧ PacketReady Op.nvBegin (msg (updW 1 3)) (nbS (updW 1 3) cfgS) ∧ updConf (msg (updW 1 3)) ≠ updConf (msg (updW 0 3))
      ∧ (updConf (msg (updW 1 3)) = true ∨ rbCount (nbS (updW 1 3) cfgS) ≤ fld (pword (msg (updW 1 3)) 3) 0 7)
      ∧ updRange (msg (updW 1 3)) = true ∧ updAborts (msg (updW 1 3)) = false
      ∧ PacketReady Op.nvBegin (msg [2]) (nbS [2] cfgS) ∧ dR Op.nvBegin 5 ∉ (nbS [2] cfgS).deferred
      ∧ PacketReady Op.nvBegin (msg [2]) (nbS [2] (sesS x maintS)) ∧ (nbS [2] (sesS x maintS)).sec.sess = some x ∧ x.port = (msg [2]).port
      ∧ x.phase = .opened ∧ (sess .erasing true []).cmd ≠ dR Op.nvBegin 5 ∧ (sess .erasing true []).phase = .erasing
      ∧ (sesS (sess .erasing true []) maintS).sec.sess = some (sess .erasing true [])
      ∧ (sesS (sess .erasing true []) maintS).deferred.contains (sess .erasing true []).cmd = true
      ∧ PacketReady Op.nvData (msg [5, 6]) (put Op.nvData (msg [5, 6]) (sesS x maintS)) ∧ x.data.length + (msg [5, 6]).words.length ≤ x.length
      ∧ PacketReady Op.nvData (msg [5, 6, 7]) (put Op.nvData (msg [5, 6, 7]) (sesS x maintS)) ∧ x.length < x.data.length + (msg [5, 6, 7]).words.length
      ∧ PacketReady Op.nvCommit (msg [0]) (put Op.nvCommit (msg [0]) (sesS c maintS)) ∧ (msg [0]).words.length = (if c.conf then 1 else 27)
      ∧ pword (msg [0]) 0 = 0 ∧ c.data.length = c.length := by
  and_intros <;> first
    | exact ready_row (by decide +kernel)
    | exact ready_packet (by decide +kernel)
    | exact ready_head (by decide +kernel)
    | exact ready_serve (by decide +kernel)
    | exact taps_free (by decide +kernel)
    | decide +kernel

theorem witness_UpdateSessions_commit :
    let x := sess .committing true [3, 3, 3]
    let y := sess .committing true [3, 3, 4]
    let v : State := { cfgS with sec := { cfgS.sec with rebootDue := some (.b, 5, 6000000) } }
    (sesS x cfgS).sec.sess = some x ∧ x.phase = .committing ∧ (sesS x cfgS).deferred.contains x.cmd = true ∧ shaOf x.data = x.hash
      ∧ x.conf = true ∧ shaOf y.data ≠ y.hash ∧ y.phase = .committing ∧ fwSess.phase = .committing ∧ shaOf fwSess.data = fwSess.hash
      ∧ injAt (sesS fwSess cfgS) 9 1 = none
      ∧ ecdsaVerify Config.knadinX Config.knadinY ([0x21#20, fwSess.version, BitVec.ofNat 20 fwSess.rollback, BitVec.ofNat 20 fwSess.length]
          ++ word256 fwSess.hash) fwSess.sig.1 fwSess.sig.2 = true
      ∧ v.sec.rebootDue = some (.b, 5, 6000000) ∧ v.pw.resetSeq = none := by
  and_intros <;> first
    | exact ready_row (by decide +kernel)
    | exact ready_packet (by decide +kernel)
    | exact ready_head (by decide +kernel)
    | exact ready_serve (by decide +kernel)
    | exact taps_free (by decide +kernel)
    | decide +kernel

def ijM (d c u : Nat) : Msg := msg [BitVec.ofNat 20 (d + 16 * c + 512 * u)]
def ijS (d c u : Nat) (s : State) : State := put Op.inject (ijM d c u) s
def ijR (d c : Nat) : InjRow := (injRow d c).getD {}

theorem witness_InjectionsAreArmed :
    let w := modWd (fun w => { w with running := true, timeout := 100 }) maintS
    PacketReady Op.inject (ijM 0 1 63) (ijS 0 1 63 maintS) ∧ 1 ≤ (ijM 0 1 63).words.length ∧ (ijM 0 1 63).words.length ≤ 8
      ∧ injPoint (ijM 0 1 63) = some (ijR 0 1) ∧ injStateOk (takenUp Op.inject (ijM 0 1 63) (ijS 0 1 63 maintS)) (ijM 0 1 63) = true
      ∧ injAuth (takenUp Op.inject (ijM 0 1 63) (ijS 0 1 63 maintS)) (ijM 0 1 63) = true
      ∧ injAtOnce (injDom (ijM 0 1 63)) (injCause (ijM 0 1 63)) = false
      ∧ PacketReady Op.inject (ijM 7 6 63) (ijS 7 6 63 maintS) ∧ injPoint (ijM 7 6 63) = some (ijR 7 6) ∧ injDom (ijM 7 6 63) = 7
      ∧ injCause (ijM 7 6 63) = 6 ∧ injStateOk (takenUp Op.inject (ijM 7 6 63) (ijS 7 6 63 maintS)) (ijM 7 6 63) = true
      ∧ injAuth (takenUp Op.inject (ijM 7 6 63) (ijS 7 6 63 maintS)) (ijM 7 6 63) = true
      ∧ PacketReady Op.inject (ijM 11 2 63) (ijS 11 2 63 w) ∧ injPoint (ijM 11 2 63) = some (ijR 11 2) ∧ injDom (ijM 11 2 63) = 11
      ∧ injCause (ijM 11 2 63) = 2 ∧ injStateOk (takenUp Op.inject (ijM 11 2 63) (ijS 11 2 63 w)) (ijM 11 2 63) = true
      ∧ injAuth (takenUp Op.inject (ijM 11 2 63) (ijS 11 2 63 w)) (ijM 11 2 63) = true
      ∧ ((armed 10 1 maintS).inj.armed.map fun a => a.until_) = some (some 6000000) := by
  and_intros <;> first
    | exact ready_row (by decide +kernel)
    | exact ready_packet (by decide +kernel)
    | exact ready_head (by decide +kernel)
    | exact ready_serve (by decide +kernel)
    | exact taps_free (by decide +kernel)
    | decide +kernel

theorem witness_InjectionsAreArmed_act (x : State) : injAct (injDom (ijM 0 1 63)) (injCause (ijM 0 1 63)) (injUnit (ijM 0 1 63)) x = x := rfl

theorem witness_ResetsTakeHold :
    let q := startReset 2 true runS
    (powerOff runS).pw.dev = .off ∧ runS.pw.dev ≠ .off ∧ runS.pw.vsupGood = true ∧ runS.pw.vioGood = true ∧ 1000 ≤ 1200 ∧ 400 < 500
      ∧ runS.pw.resetSeq = none ∧ q.pw.resetSeq.isSome = true := by
  and_intros <;> first
    | exact ready_row (by decide +kernel)
    | exact ready_packet (by decide +kernel)
    | exact ready_head (by decide +kernel)
    | exact ready_serve (by decide +kernel)
    | exact taps_free (by decide +kernel)
    | decide +kernel

def bootS (ph : BootPhase) (now : Nat) : State :=
  { State.reset with now := now, pw := { State.reset.pw with dev := .boot, boot := { Boot.reset with phase := ph, t0 := 10 } } }
/-- The rows of BOOT after the PLL has locked. -/
def bootTb (ph : BootPhase) : State := modPw (fun p => { p with tb0 := some 300 }) (bootS ph 600000)

theorem witness_BootRuns :
    bootAt State.reset .waiting = true ∧ bootAt (bootS .pll 250010) .pll = true ∧ (bootS .pll 250010).now ≤ (bootS .pll 250010).pw.boot.t0 + 250000
      ∧ bootAt (bootS .pattern 300000) .pattern = true ∧ (bootS .pattern 300000).aon.inj75 = none ∧ (bootS .pattern 300000).cask.st = .idle
      ∧ ({ mem := 5, addr := 3, mendable := false } : PatternFault).mendable = false
      ∧ bootAt (bootTb .groups) .groups = true ∧ linksRun (bootTb .groups) = true ∧ bootSlot (bootTb .groups) 0 = true
      ∧ (bootTb .groups).pw.resetSeq = none := by
  and_intros <;> first
    | exact ready_row (by decide +kernel)
    | exact ready_packet (by decide +kernel)
    | exact ready_head (by decide +kernel)
    | exact ready_serve (by decide +kernel)
    | exact taps_free (by decide +kernel)
    | decide +kernel

theorem witness_BootRuns_firmware :
    bootAt (bootTb .firmware) .firmware = true ∧ bootCauses false (bootTb .firmware) ≠ [] ∧ bootCauses true (bootTb .firmware) = []
      ∧ isOwned (bootTb .firmware) = false ∧ (bootTb .firmware).pw.boot.secFail = 0
      ∧ (bootTb .firmware).cal.copies[calCopyIx (bootTb .firmware).cal.cur].good = true ∧ (bootTb .firmware).aon.inj76 = false
      ∧ (bootBank (bootTb .firmware)).isSome = true := by
  and_intros <;> first
    | exact ready_row (by decide +kernel)
    | exact ready_packet (by decide +kernel)
    | exact ready_head (by decide +kernel)
    | exact ready_serve (by decide +kernel)
    | exact taps_free (by decide +kernel)
    | decide +kernel

def srS (w : Word) (s : State) : State := put Op.stateReq (msg [w]) s
def srU (w : Word) (s : State) : State := takenUp Op.stateReq (msg [w]) (srS w s)

theorem witness_StateChanges :
    let f := holdFault 3 2 63 false (inSt .safe)
    let e := dR Op.stateReq 9
    let l := modPw (fun p => { p with leaveRun := [e] }) { maintS with deferred := [e] }
    isLive State.reset = false ∧ isLive runS = true ∧ runS.pw.resetSeq = none ∧ runS.pw.stby ≠ .entering ∧ (lnk runS 2).st ≠ .down
      ∧ runS.pw.dev = .run
      ∧ PacketReady Op.stateReq (msg [3]) (srS 3 cfgS) ∧ dR Op.stateReq 5 ∉ (srS 3 cfgS).deferred ∧ fld (3 : Word) 4 16 = 0
      ∧ reqTarget (msg [3]) = some .run ∧ transitionOk (srU 3 cfgS) .run = true ∧ isOwned (srS 3 cfgS) = false
      ∧ configBlocked (srS 3 cfgS) .run = false ∧ (srS 3 cfgS).pw.dev ≠ .run ∧ (srU 3 cfgS).pw.resetSeq = none
      ∧ PacketReady Op.stateReq (msg [4]) (srS 4 runS) ∧ fld (4 : Word) 4 16 = 0 ∧ reqTarget (msg [4]) = some .maint
      ∧ transitionOk (srU 4 runS) .maint = true ∧ (srS 4 runS).pw.dev = .run ∧ (lnk (srS 4 runS) 1).st = .up
      ∧ PacketReady Op.stateReq (msg [7]) (srS 7 cfgS) ∧ fld (7 : Word) 4 16 = 0 ∧ reqTarget (msg [7]) = some .standby
      ∧ transitionOk (srU 7 cfgS) .standby = true ∧ (srS 7 cfgS).pw.stby = .none
      ∧ PacketReady Op.stateReq (msg [2]) (srS 2 f) ∧ fld (2 : Word) 4 16 = 0 ∧ reqTarget (msg [2]) = some .config
      ∧ transitionOk (srU 2 f) .config = true ∧ configBlocked (srS 2 f) .config = true
      ∧ PacketReady Op.stateReq (msg [3]) (srS 3 maintS) ∧ transitionOk (srU 3 maintS) .run = false
      ∧ PacketReady Op.stateReq (msg [8]) (srS 8 cfgS) ∧ reqTarget (msg [8]) = none
      ∧ l.pw.leaveRun = [e] ∧ l.deferred.contains e = true ∧ l.pw.resetSeq = none ∧ (∀ g : Grp, (lnk l g).safeFrom = none) := by
  and_intros <;> first
    | exact ready_row (by decide +kernel)
    | exact ready_packet (by decide +kernel)
    | exact ready_head (by decide +kernel)
    | exact ready_serve (by decide +kernel)
    | exact taps_free (by decide +kernel)
    | decide +kernel

def lowS (s : State) : State := modPw (fun p => { p with stbyLow := true }) s
def entS (l : BitVec 3) (s : State) : State := modPw (fun p => { p with stby := .entering, latched := l }) s

theorem witness_StandbyEntersAndWakes :
    let w := modPw (fun p => { p with stby := .awaitFetch .a 5 65536 }) cfgS
    let b := lowS (modAon (fun a => { a with stbyFrom := 7, stbyCount := 3 }) (inSt .standby))
    (lowS runS).pw.stbyLow = true ∧ State.reset.pw.stbyLow = false ∧ State.reset.pw.resetSeq = none ∧ State.reset.pw.dev = .boot
      ∧ (inSt .lockdown).pw.dev = .lockdown ∧ (inSt .lockdown).pw.stbyLow = false ∧ runS.pw.dev ∈ [DevState.config, .run, .maint, .safe]
      ∧ runS.pw.stby ≠ .entering ∧ runS.pw.stbyLow = false
      ∧ (entS 0 runS).pw.stby = .entering ∧ (entS 0 runS).pw.resetSeq = none ∧ (entS 0 runS).pw.latched = 0 ∧ (entS 5 runS).pw.latched ≠ 0
      ∧ w.pw.resetSeq = none ∧ w.pw.stby = .awaitFetch .a 5 65536
      ∧ b.pw.resetSeq = none ∧ b.pw.dev = .standby ∧ b.pw.stbyLow = true ∧ b.aon.stbyCount ≠ 0 ∧ (inSt .standby).aon.stbyCount = 0
      ∧ (entS 5 runS).pw.dev ≠ .standby ∧ (lowS runS).pw.dev ≠ .standby ∧ (lowS runS).pw.stby ≠ .entering := by
  and_intros <;> first
    | exact ready_row (by decide +kernel)
    | exact ready_packet (by decide +kernel)
    | exact ready_head (by decide +kernel)
    | exact ready_serve (by decide +kernel)
    | exact taps_free (by decide +kernel)
    | decide +kernel

/-- Port A is selected. -/
def selS (f : PortSt → PortSt) (s : State) : State := modPort .a (fun x => f { x with selected := true }) s
/-- A header word: opcode, tag, lanes, wake. -/
def hdr (op : Op) (tag lanes wake : Nat) : Word := BitVec.ofNat 20 (4096 * op.toNat + 32 * tag + 8 * lanes + 4 * wake)
def hS : Word := hdr Op.stateReq 9 0 1
def rplQ (l : List (List Word)) (s : State) : State :=
  modPort .a (fun x => { x with replyQ := l.map fun ws => { status := 0, tag := 9, wake := false, cells := ws.map encWord, queuedAt := 5000000 } }) s

theorem witness_SelectsAndFetches :
    let p := selS (fun x => { x with rx := .payload hS (hdrWord1 hS 5) .accept }) runS
    let t := selS (fun x => { x with rx := .stream hS [1, 2] 7 0 false }) runS
    (prt runS .a).daisy = false ∧ portOpen runS = true ∧ (prt runS .a).selected = false ∧ (prt runS .a).awake = true
      ∧ portOpen State.reset = false ∧ (prt State.reset .a).selected = false ∧ State.reset.pw.dev ≠ .off ∧ State.reset.pw.dev ≠ .standby
      ∧ State.reset.pw.stby ≠ .entering
      ∧ (prt (selS (fun x => { x with ignoring := true }) runS) .a).ignoring = true ∧ (prt (selS id runS) .a).selected = true
      ∧ (prt (selS id runS) .a).ignoring = false ∧ (prt (selS id runS) .a).rx = .header ∧ (prt (selS id runS) .a).gotPacket = false
      ∧ (prt (selS (fun x => { x with gotPacket := true }) runS) .a).gotPacket = true
      ∧ (prt p .a).rx = .payload hS (hdrWord1 hS 5) .accept ∧ (prt p .a).ignoring = false
      ∧ (prt t .a).rx = .stream hS [1, 2] 7 0 false ∧ t.mi.fArmed = false
      ∧ (2 : BitVec 2) ≠ 3 ∧ runS.cfgJob = none ∧ injAt runS 8 1 = none
      ∧ (prt (rplQ [[1, 2], [3]] runS) .a).replyQ.map (fun r => r.cells) = [([1, 2] : List Word).map encWord, ([3] : List Word).map encWord]
      ∧ takesBeat (rplQ [[1, 2, 3]] (selS id runS)) .a = true ∧ (prt (rplQ [[1, 2, 3]] (selS id runS)) .a).rx = .header
      ∧ (prt (rplQ [[1, 2], [3]] runS) .a).selected = false ∧ (prt (rplQ [[1, 2], [3]] runS) .a).ignoring = false
      ∧ (prt (rplQ [[1, 2], [3]] runS) .a).awake = true ∧ (prt (rplQ [[1, 2], [3]] runS) .a).waiting = []
      ∧ (rplQ [[1, 2], [3]] runS).sec.rebootDue = none ∧ (rplQ [[1, 2], [3]] runS).pw.stby = .none
      ∧ (prt (selS id runS) .a).replyQ = [] ∧ takesBeat (selS id runS) .a = true := by
  and_intros <;> first
    | exact ready_row (by decide +kernel)
    | exact ready_packet (by decide +kernel)
    | exact ready_head (by decide +kernel)
    | exact ready_serve (by decide +kernel)
    | exact taps_free (by decide +kernel)
    | decide +kernel

def hU : Word := hdr 0xEE 9 0 0
def hN : Word := hdr Op.nvData 9 0 0

theorem witness_HeadersAndPayloads :
    let s := selS id runS
    let t := selS (fun x => { x with tags := setBit 0 9 true }) runS
    let b := put Op.nvData { msg (List.replicate 100 0) with tag := 11 } s
    let i (op : Op) := (opInfo op).map fun i => i.hi
    takesBeat s .a = true ∧ (prt s .a).rx = .header ∧ s.cfgJob = none ∧ injAt s 8 1 = none ∧ hdrWord1 hS (hdrLen (hdrWord1 hS 1 + 1)) ≠ hdrWord1 hS 1 + 1
      ∧ hdrWord1 hS (hdrLen (hdrWord1 hS 1)) = hdrWord1 hS 1 ∧ hdrOp hS ≠ Op.fetch
      ∧ takesBeat t .a = true ∧ bit (prt t .a).tags (hdrTag hS).toNat = true ∧ bit (prt s .a).tags (hdrTag hS).toNat = false ∧ hdrLanes hS ≠ 3
      ∧ fld hS 0 2 = 0 ∧ wakeOk s .a hS = true ∧ i (hdrOp hS) = some 1 ∧ hdrLen (hdrWord1 hS 1) = 1 ∧ packetWords 1 ≤ cmdFree s (prt s .a)
      ∧ hdrLen (hdrWord1 (hdr Op.status 9 0 0) 0) = 0 ∧ i Op.status = some 0
      ∧ opInfo (hdrOp hU) = none ∧ hdrLen (hdrWord1 hU 7) ≤ 2048 ∧ hdrLen (hdrWord1 hU 7) ≠ 0 ∧ 2048 < hdrLen (hdrWord1 hU 2049)
      ∧ hdrLen (hdrWord1 hU 2049) ≠ 4095 ∧ i (hdrOp hS) = some 1 ∧ 1 < hdrLen (hdrWord1 hS 2)
      ∧ (i (hdrOp hN)).map (fun n => decide (hdrLen (hdrWord1 hN 2000) ≤ n)) = some true ∧ hdrLen (hdrWord1 hN 2000) ≤ 2048
      ∧ cmdFree b (prt b .a) < packetWords (hdrLen (hdrWord1 hN 2000)) ∧ takesBeat b .a = true ∧ wakeOk b .a hN = true := by
  and_intros <;> first
    | exact ready_row (by decide +kernel)
    | exact ready_packet (by decide +kernel)
    | exact ready_head (by decide +kernel)
    | exact ready_serve (by decide +kernel)
    | exact taps_free (by decide +kernel)
    | decide +kernel

theorem witness_HeadersAndPayloads_payload :
    let p (d : Dispo) := selS (fun x => { x with rx := .payload hS (hdrWord1 hS 5) d }) runS
    let t (o : Bool) := selS (fun x => { x with rx := .stream hS [1, 2] 2 0 o }) runS
    let b := put Op.nvData { msg (List.replicate 2046 0) with tag := 11 } (t false)
    takesBeat (p .accept) .a = true ∧ (prt (p .accept) .a).rx = .payload hS (hdrWord1 hS 5) .accept
      ∧ ([1, 2, 3, 4, 5] : List Word).length = hdrLen (hdrWord1 hS 5) ∧ (p .accept).cfgJob = none ∧ injAt (p .accept) 8 2 = none
      ∧ (p .accept).mi.fArmed = false ∧ hdrOp hS ≠ Op.wdServe ∧ takesBeat (p .drop) .a = true
      ∧ (prt (p .drop) .a).rx = .payload hS (hdrWord1 hS 5) .drop ∧ takesBeat (t true) .a = true
      ∧ (prt (t true) .a).rx = .stream hS [1, 2] 2 0 true ∧ takesBeat (t false) .a = true ∧ 2 ≤ cmdFree (t false) (prt (t false) .a)
      ∧ takesBeat b .a = true ∧ (prt b .a).rx = .stream hS [1, 2] 2 0 false ∧ cmdFree b (prt b .a) < 2 := by
  and_intros <;> first
    | exact ready_row (by decide +kernel)
    | exact ready_packet (by decide +kernel)
    | exact ready_head (by decide +kernel)
    | exact ready_serve (by decide +kernel)
    | exact taps_free (by decide +kernel)
    | decide +kernel

/-- Port A is a daisy port of sixteen outputs from channel 8 on, in its select. -/
def dzS (f : PortSt → PortSt) (dc dm : Word) (s : State) : State :=
  cfgSet (.portDcfg .a) dc (cfgSet (.portDmap .a) dm (modPort .a (fun x => f { x with
    daisy := true, dcfg := dc, dmap := dm, timerOff := false, lastAccept := 4999000, outImage := 0x50 }) s))
def dzSel (dm : Word) (s : State) : State := dzS (fun x => { x with selected := true }) 15 dm s

theorem witness_DaisyFrames :
    (prt (dzS id 15 1032 runS) .a).daisy = true ∧ portOpen (dzS id 15 1032 runS) = true ∧ (prt (dzS id 15 1032 runS) .a).selected = false
      ∧ (prt (dzSel 1032 runS) .a).daisy = true ∧ portOpen (dzSel 1032 runS) = true ∧ (prt (dzSel 1032 runS) .a).selected = true
      ∧ (prt (dzSel 1032 runS) .a).ignoring = false ∧ injAt (dzSel 1032 runS) 8 3 = none ∧ daisyLenOk 15 15 = false ∧ daisyLenOk 15 16 = true
      ∧ (decide (daisyW 15 < 12) || imageCrc 15 (0xABC0 &&& BitVec.ofNat 32 (2 ^ daisyW 15 - 1)) == (0xABC0 : BitVec 32).extractLsb' 0 4) = false
      ∧ (decide (daisyW 15 < 12) || imageCrc 15 ((0xABC5 : BitVec 32) &&& BitVec.ofNat 32 (2 ^ daisyW 15 - 1))
          == ((0xABC5 : BitVec 32) &&& BitVec.ofNat 32 (2 ^ daisyW 15 - 1)).extractLsb' 0 4) = true
      ∧ (dzSel 1032 runS).pw.dev = .run ∧ fld (prt (dzSel 1032 runS) .a).dmap 0 6 ≠ 63 ∧ fld (prt (dzSel 1087 runS) .a).dmap 0 6 = 63
      ∧ (dzSel 1032 cfgS).pw.dev ≠ .run ∧ (prt (dzS id 0x100F 1032 runS) .a).timerOff = false ∧ daisyTicks 0x100F ≠ 0
      ∧ (prt (dzS (fun x => { x with timerOff := true }) 15 1032 runS) .a).timerOff = true := by
  and_intros <;> first
    | exact ready_row (by decide +kernel)
    | exact ready_packet (by decide +kernel)
    | exact ready_head (by decide +kernel)
    | exact ready_serve (by decide +kernel)
    | exact taps_free (by decide +kernel)
    | decide +kernel

/-- CYCLE_SYNC on a wheel of 60 teeth at about 60 revolutions a second, tooth 10 just met. -/
def sync (s : State) : State :=
  let s := cfgSet .trkCfg 0x1011 (cfgSet .wheel (60 + 2 * 2048) s)
  let s := modTrk (fun t => { t with
    st := .cycleSync, predOk := true, tk := 4990000, tooth := 10, pace := 5000000 * 2 ^ 58 / 2 ^ 32, edges := 60, lastA := some 4990000
    prevTk := 4906667, prevOk := true, cyc := 7, uCyc := 7, row := 3 }) s
  modTrk (fun t => { t with uk := toothAngle s 10 false, prevUk := toothAngle s 9 false }) s

/-- An entry's second word: action, target, argument. -/
def ent (a t arg : Nat) : Word := BitVec.ofNat 20 (a * 32768 + t * 512 + arg)
/-- ON and OFF of channel 8, a NOP, a MARK, an open and a close of pan 2 of group 1. -/
def bankW : List Word :=
  [100, ent 1 8 0, 0, 500, ent 2 8 0, 0, 500, ent 0 0 0, 0, 100000, ent 11 0 3, 0, 200000, ent 9 49 2, 0x00010, 300000, ent 8 50 3, 0]
def tlS (w : Word) (s : State) : State := put Op.trellisLoad (msg (w :: bankW)) s
def bankSt (b : Fin 2) (st : BankState) (s : State) : State := modBank b (fun k => { k with st := st }) s
/-- The bank is loaded and its channels have their modes. -/
def ldS : State :=
  let s := modGov (fun g => { g with budget := 4000 }) (cfgSet (.ch 8 .cfg) 3 (cfgSet (.ch 16 .cfg) 5 (cfgSet (.ch 17 .cfg) 5 (sync runS))))
  { modBank 0 (fun k => { k with loaded := true }) (cfgSet (.bankCfg 0) 6 s) with
    mems := s.mems.set 0 (((List.range 18).zip (bankW.map encWord)).filter fun x => x.2 != 0) }
def taS (w : Word) (s : State) : State := put Op.trellisArm (msg [w]) s

theorem witness_BanksAreLoadedAndArmed :
    let u (w : Word) (s : State) := takenUp Op.trellisLoad (msg (w :: bankW)) (tlS w s)
    PacketReady Op.trellisLoad (msg (2048 :: bankW)) (tlS 2048 runS) ∧ (msg (2048 :: bankW)).words.length ≤ 2046
      ∧ replaying (u 2048 runS) = false ∧ bankArmed (tlS 2048 runS) (bankOf 2048) = false ∧ bankW.length % 3 = 0 ∧ fld (2048 : Word) 12 8 = 0
      ∧ fld (2048 : Word) 1 10 + bankW.length / 3 ≤ 1024 ∧ tapHeld (tlS 2048 runS) .a 0 = false ∧ 2 ≤ portVintage (tlS 2048 runS) .a
      ∧ (bnk (tlS 2048 runS) (bankOf 2048)).lineChk = false ∧ (tlS 2048 runS).mi.fArmed = false ∧ (tlS 2048 runS).canonical = true
      ∧ PacketReady Op.trellisLoad (msg (2037 :: bankW)) (tlS 2037 runS) ∧ fld (2037 : Word) 1 10 + bankW.length / 3 = 1024
      ∧ PacketReady Op.trellisLoad (msg (1 :: bankW)) (tlS 1 (bankSt 1 .waiting runS))
      ∧ bankArmed (tlS 1 (bankSt 1 .waiting runS)) (bankOf 1) = true ∧ replaying (u 1 (bankSt 1 .waiting runS)) = false := by
  and_intros <;> first
    | exact ready_row (by decide +kernel)
    | exact ready_packet (by decide +kernel)
    | exact ready_head (by decide +kernel)
    | exact ready_serve (by decide +kernel)
    | exact taps_free (by decide +kernel)
    | decide +kernel

theorem witness_BanksAreLoadedAndArmed_arm :
    let v (s : State) := (validate (takenUp Op.trellisArm (msg [0]) (taS 0 s)) 0).1.reason
    PacketReady Op.trellisArm (msg [0]) (taS 0 ldS) ∧ fld (0 : Word) 3 17 = 0 ∧ tapHeld (taS 0 ldS) .a 0 = false
      ∧ replaying (takenUp Op.trellisArm (msg [0]) (taS 0 ldS)) = false ∧ fld (0 : Word) 1 2 = 0 ∧ (bnk (taS 0 ldS) (bankOf 0)).st ≠ .active
      ∧ v ldS = 0 ∧ v (cfgSet (.ch 8 .cfg) 0 ldS) ≠ 0
      ∧ PacketReady Op.trellisArm (msg [2]) (taS 2 ldS) ∧ fld (2 : Word) 3 17 = 0 ∧ fld (2 : Word) 1 2 = 1
      ∧ PacketReady Op.trellisArm (msg [4]) (taS 4 ldS) ∧ fld (4 : Word) 3 17 = 0 ∧ fld (4 : Word) 1 2 = 2
      ∧ (lnk (taS 4 ldS) 3).st = .up := by
  and_intros <;> first
    | exact ready_row (by decide +kernel)
    | exact ready_packet (by decide +kernel)
    | exact ready_head (by decide +kernel)
    | exact ready_serve (by decide +kernel)
    | exact taps_free (by decide +kernel)
    | decide +kernel

/-- Bank 0 is armed; its first cycle is decided; it walks. -/
def walkS (n : BitVec 10) : State :=
  modSeq (fun q => { q with walking := true, left := 6 - n.toNat, next := n, walkCyc := 8, decided := some (some false) }) (bankSt 0 .active ldS)
def armedS : State := modBank 0 (fun k => { k with st := .waiting, valid := true }) ldS
def actS : State := walkS 0
/-- Bank 0 is a time bank of period 0x80. -/
def timeS (st : BankState) : State :=
  cfgSet (.bankPeriod 0) 0x80 (cfgSet (.bankCfg 0) (cfgGet ldS (.bankCfg 0) ||| 0x2000) (bankSt 0 st ldS))

theorem witness_BanksTakeTheirCycles :
    let e : State := { actS with seq := { actS.seq with left := 0, decided := none } }
    let d (x : Option (Option Bool)) : State := { actS with seq := { actS.seq with left := 0, decided := x } }
    armedS.seq.left = 0 ∧ decides armedS = true ∧ takerBank armedS = some 0
      ∧ e.seq.left = 0 ∧ decides e = true ∧ takerBank e = none ∧ activeBank e = some 0 ∧ bankTime e 0 = false
      ∧ (d (some none)).trk.st = .cycleSync ∧ (d (some none)).trk.predOk = true ∧ decides (d (some none)) = false
      ∧ (d (some none)).seq.decided = some none ∧ activeBank (d (some none)) = some 0
      ∧ (d (some (some false))).seq.decided ≠ some none ∧ decides (d (some (some false))) = false
      ∧ (timeS .waiting).seq.left = 0 ∧ walks (timeS .waiting) = true ∧ timeTaker (timeS .waiting) = some 0 ∧ activeBank (timeS .waiting) = none
      ∧ walks (timeS .active) = true ∧ timeTaker (timeS .active) = none ∧ activeBank (timeS .active) = some 0 ∧ bankTime (timeS .active) 0 = true
      ∧ (bnk (timeS .active) 0).stopPend = false ∧ (bnk (modBank 0 (fun k => { k with stopPend := true }) (timeS .active)) 0).stopPend = true := by
  and_intros <;> first
    | exact ready_row (by decide +kernel)
    | exact ready_packet (by decide +kernel)
    | exact ready_head (by decide +kernel)
    | exact ready_serve (by decide +kernel)
    | exact taps_free (by decide +kernel)
    | decide +kernel

/-- The words of the next entry as the sequencer reads them. -/
def nextWords (s : State) : (List Word × Bool) × State :=
  memReads .sequencer (bankIx 0) (3 * s.seq.next.toNat) 3 { s with now := max s.now (tickOf s ((nextInstant s 0).getD 0 - lookTicks s).toNat) }
def act2 : State := walkS 2

theorem witness_EntriesBecomeActions :
    activeBank actS = some 0 ∧ (nextInstant actS 0).isSome = true ∧ walks actS = true ∧ mayPlace actS 0 = true ∧ actS.cask.st ≠ .replaying
      ∧ (nextWords actS).1 = ([100, ent 1 8 0, 0], false) ∧ (nextWords actS).2.cask.st ≠ .replaying ∧ entAction (ent 1 8 0) ≠ aNop
      ∧ activeBank act2 = some 0 ∧ (nextInstant act2 0).isSome = true ∧ walks act2 = true ∧ mayPlace act2 0 = true ∧ act2.cask.st ≠ .replaying
      ∧ (nextWords act2).1 = ([500, ent 0 0 0, 0], false) ∧ entAction (ent 0 0 0) = aNop := by
  and_intros <;> first
    | exact ready_row (by decide +kernel)
    | exact ready_packet (by decide +kernel)
    | exact ready_head (by decide +kernel)
    | exact ready_serve (by decide +kernel)
    | exact taps_free (by decide +kernel)
    | decide +kernel

/-- One action at its stamp. -/
def oneAct (a : Act) : State := { sync runS with seq := { runS.seq with acts := [a] } }
def judged (x : Act) : Option Nat := if x.committed ∧ !x.checked then some x.stamp else none
def marked (x : Act) : Option Nat := if x.committed ∧ entAction x.w1 = aMark ∧ !x.endCommitted then some x.stamp else none

theorem witness_EntriesBecomeActions_events :
    let c : Act := { act0 with committed := true, endStamp := some 6000500, w1 := ent 3 8 0, w2 := 3 }
    let k : Act := { act0 with committed := true, cyc := 7, w0 := 600000 }
    let o : Act := { act0 with w1 := ent 9 49 2 }
    let m : Act := { act0 with committed := true, checked := true, w1 := ent 11 0 3 }
    (oneAct act0).cask.st ≠ .replaying ∧ firstAct (oneAct c).seq.acts horizonOf = some (c, 6000500) ∧ c.committed = true
      ∧ firstAct (oneAct act0).seq.acts horizonOf = some (act0, 6000000) ∧ act0.committed = false ∧ entAction act0.w1 ≠ aPanOpen
      ∧ entAction act0.w1 ≠ aPanClose ∧ firstAct (oneAct o).seq.acts horizonOf = some (o, 6000000) ∧ entAction o.w1 = aPanOpen
      ∧ firstAct (oneAct k).seq.acts judged = some (k, 6000000) ∧ predicts (oneAct k) = true ∧ injStim (oneAct k) 6 5 = none
      ∧ (0 ≤ distCyc (oneAct k) k.cyc k.w0 ∨ (oneAct k).trk.prevOk = true)
      ∧ firstAct (oneAct m).seq.acts marked = some (m, 6000000) := by
  and_intros <;> first
    | exact ready_row (by decide +kernel)
    | exact ready_packet (by decide +kernel)
    | exact ready_head (by decide +kernel)
    | exact ready_serve (by decide +kernel)
    | exact taps_free (by decide +kernel)
    | decide +kernel

def ed (i : AngIn) (lv : Bool) (st : Nat) : Edge := { inp := i, level := lv, stamp := st, lostQ := false, usable := 5078000 }
def queued (l : List Edge) (s : State) : State := modTrk (fun t => { t with queue := l }) s
/-- HOLD_MAX in TRK_CFG. -/
def holdMax (v : Nat) (s : State) : State := cfgSet .trkCfg ((cfgGet s .trkCfg &&& ~~~0x780#20) ||| BitVec.ofNat 20 (v * 128)) s
def trkIn (st : TrkState) : State := modTrk (fun t => { t with st := st }) (sync runS)

theorem witness_EdgesAndTheirAbsence :
    let s := sync runS
    let e := ed .anga (!cfgBit s .angIn 1) 5073333
    let q := queued [e] s
    let z := cfgSet .wheel (60 + 2 * 2048 + 0x8000) s
    let f := cfgSet .trkCfg 0x1011 (cfgSet .wheel (60 + 2 * 2048) runS)
    (fdie s 0).powered = true ∧ (lnk s 0).st = .up ∧ q.trk.queue = [e] ∧ (lnk q 0).badUp = [] ∧ isLive q = true ∧ q.cask.st = .idle
      ∧ (modCask (fun k => { k with st := .replaying }) q).cask.st = .replaying ∧ (ed .angb true 5).lostQ = false ∧ (ed .angb true 5).inp = .angb
      ∧ trkRuns z = true ∧ wheelZ z = true ∧ (ed .angz (!cfgBit z .angIn 2) 5).level ≠ cfgBit z .angIn 2
      ∧ trkRuns s = true ∧ { e with lostQ := true }.lostQ = true ∧ s.trk.st = .cycleSync
      ∧ e.lostQ = false ∧ e.inp = .anga ∧ e.level ≠ cfgBit s .angIn 1
      ∧ trkRuns f = true ∧ f.trk.st = .stopped ∧ f.trk.posHeld = false ∧ f.trk.zPend = false ∧ wheelB f = 0 ∧ cfgBit f .trkCfg 2 = f.trk.rev
      ∧ s.trk.predOk = true ∧ wheelB s ≠ 2 ∧ rotationAt s e.stamp = s.trk.rev
      ∧ (stepsAhead s 5 (lastTooth s)).find? (fun x => inWindow s e.stamp (distTo s (toothAngle s x.1 x.2))) = some (11, false)
      ∧ isTooth s 11 = true := by
  and_intros <;> first
    | exact ready_row (by decide +kernel)
    | exact ready_packet (by decide +kernel)
    | exact ready_head (by decide +kernel)
    | exact ready_serve (by decide +kernel)
    | exact taps_free (by decide +kernel)
    | decide +kernel

theorem witness_EdgesAndTheirAbsence_missing :
    let s := sync runS
    let at_ := (windowEnd s).toNat + 589 + 10 * cfgFld s .angIn 3 4
    s.trk.predOk = true ∧ (lnk s 0).badUp = [] ∧ edgeComing s (windowEnd s) = false ∧ s.trk.lastA = some 4990000 ∧ at_ < 4990000 + stopTicks s
      ∧ (trkIn .revSync).trk.st = .revSync ∧ trkRuns (trkIn .revSync) = true ∧ edgeComing (trkIn .revSync) (windowEnd (trkIn .revSync)) = false
      ∧ s.trk.st = .cycleSync ∧ cfgFld (holdMax 3 s) .trkCfg 7 4 ≠ 0 ∧ trkRuns (holdMax 3 s) = true ∧ cfgFld (holdMax 0 s) .trkCfg 7 4 = 0
      ∧ belowMin (holdMax 0 s) = false ∧ (trkIn .holdover).trk.st = .holdover ∧ trkRuns (trkIn .holdover) = true
      ∧ edgeComing (trkIn .holdover) (windowEnd (trkIn .holdover)) = false ∧ s.trk.st ≠ .stopped := by
  and_intros <;> first
    | exact ready_row (by decide +kernel)
    | exact ready_packet (by decide +kernel)
    | exact ready_head (by decide +kernel)
    | exact ready_serve (by decide +kernel)
    | exact taps_free (by decide +kernel)
    | decide +kernel

/-- A register value that a field die has accepted. -/
def dieSet (n : Chan) (r : ChReg) (w : Word) (s : State) : State :=
  modField (chanGrp n) (fun d => { d with cfg := insertKey (Reg.ch n r).addr w (w != 0) d.cfg }) s
/-- Group 1: channel 8 DO, 9 AO_I, 10 DI, 11 DO_PWM, 12 AI. -/
def dieS : State := dieSet 8 .cfg 3 (dieSet 9 .cfg 7 (dieSet 10 .cfg 1 (dieSet 11 .cfg 4 (dieSet 12 .cfg 5 runS))))
def act (a : BitVec 5) (t : BitVec 6) (id : Nat) : SchedMsg :=
  { sm0 with id := id, action := a, target := t, arg := 777, stamp := 5000100, endStamp := some 5000900, slot := 1 }
def sliceS (n : Chan) (f : Slice → Slice) (s : State) : State := modSlice n f s

theorem witness_ActionsExecute :
    let h := modField 1 (fun d => { d with slots := [act 1 8 1, act 7 9 2, act 12 10 3] }) dieS
    let e := sliceS 8 (fun x => { x with holdEnd := some 6000000, safe := true, cmd := true, out := true }) dieS
    (fdie h 1).powered = true ∧ (nextDue (fdie h 1)).isSome = true ∧ (fdie h 1).staged = [] ∧ nextDue (fdie dieS 1) = none
      ∧ (act 1 8 1).running = false ∧ chanGrp 8 = 1 ∧ (act 1 8 1).target.toNat = (8 : Chan).val ∧ safeBars dieS 8 (act 1 8 1).bank = false
      ∧ (act 1 8 1).action = 1 ∧ (act 3 8 1).action = 3 ∧ (act 2 8 1).action = 2 ∧ dieMode dieS 8 = mDo ∧ mayConduct (slc dieS 8) = true
      ∧ (act 7 9 2).target.toNat = (9 : Chan).val ∧ safeBars dieS 9 false = false ∧ (act 7 9 2).action = 7 ∧ dieMode dieS 9 = mAoI
      ∧ (act 12 10 3).target.toNat = (10 : Chan).val ∧ safeBars dieS 10 false = false ∧ (act 12 10 3).action = 12 ∧ isDigIn (dieMode dieS 10) = true
      ∧ (act 12 10 3).action ≠ 3 ∧ (act 12 10 3).action ≠ 4
      ∧ (slc e 8).holdEnd = some 6000000 ∧ dieMode e 8 = mDo ∧ (fdie e 1).powered = true ∧ dieMode dieS 11 = mDoPwm := by
  and_intros <;> first
    | exact ready_row (by decide +kernel)
    | exact ready_packet (by decide +kernel)
    | exact ready_head (by decide +kernel)
    | exact ready_serve (by decide +kernel)
    | exact taps_free (by decide +kernel)
    | decide +kernel

theorem witness_LinksAndSupervision :
    let r := modLink 1 (fun l => { l with st := .ranging, rangingAt := 4900000 }) runS
    let b := modLink 1 (fun l => { l with st := .down, cause := 2, beacon := some 4000000 }) runS
    linksRun r = true ∧ (lnk r 1).st = .ranging ∧ (lnk r 1).wantUp = false ∧ (fdie r 1).powered = true ∧ r.now ≤ (lnk r 1).rangingAt + 1250000
      ∧ r.pw.resetSeq = none ∧ 3 ≤ (3 : BitVec 4).toNat ∧ (2 : BitVec 4).toNat < 3 ∧ linksRun runS = true ∧ (lnk runS 1).st = .up
      ∧ linksRun b = true ∧ (lnk b 1).beacon = some 4000000 ∧ (lnk b 1).st = .down ∧ (lnk b 1).cause = 2 := by
  and_intros <;> first
    | exact ready_row (by decide +kernel)
    | exact ready_packet (by decide +kernel)
    | exact ready_head (by decide +kernel)
    | exact ready_serve (by decide +kernel)
    | exact taps_free (by decide +kernel)
    | decide +kernel

theorem witness_LinksAndSupervision_die :
    let h := dieSet 8 .safe 1 dieS
    let v := dieSet 9 .safe 2 dieS
    let x := sliceS 8 (fun x => { x with safe := true }) dieS
    let q := modField 1 (fun d => { d with linked := false, supply := .low }) dieS
    let o := modField 1 (fun d => { d with powered := false }) dieS
    let a := modField 1 (fun d => { d with wdArmed := true }) dieS
    chanGrp 8 = 1 ∧ (fdie dieS 1).powered = true ∧ (fdie dieS 1).linked = true ∧ (slc dieS 8).pulses = [] ∧ (fdie a 1).wdArmed = true
      ∧ dieMode dieS 8 = mDo ∧ (slc dieS 8).safe = false ∧ fld (dieCh dieS 8 .safe) 0 2 = 0 ∧ fld (dieCh h 8 .safe) 0 2 = 1
      ∧ dieMode v 9 = mAoI ∧ (slc v 9).safe = false ∧ fld (dieCh v 9 .safe) 0 2 = 2 ∧ (slc v 9).pulses = [] ∧ (slc x 8).safe = true
      ∧ (fdie q 1).powered = true ∧ (fdie q 1).linked = false ∧ (fdie q 1).parked = false ∧ (fdie (inSt .run) 1).powered = true
      ∧ (fdie q 1).supply = .low ∧ injRuns q 12 1 (1 : Grp).val = false ∧ (fdie o 1).powered = false
      ∧ (fdie (modField 1 (fun d => { d with supply := .good }) dieS) 1).supply = .good := by
  and_intros <;> first
    | exact ready_row (by decide +kernel)
    | exact ready_packet (by decide +kernel)
    | exact ready_head (by decide +kernel)
    | exact ready_serve (by decide +kernel)
    | exact taps_free (by decide +kernel)
    | decide +kernel

def dframe : DownFrame :=
  { seq := 40, typ := .safe, start := 5000000, sched := [], conf := [], withdraw := none, lastUp := none, badUp := [] }
def uframe : UpFrame :=
  { seq := 50, start := 5000100, beacon := false, supply := .good, samples := [], edges := [], reports := [], chan := none
    grp := { vfg := 33, lock := true, phase := 3, hrStat := 1, hrDrv := 2 }, lastDown := some 3, badDown := [], mark := [] }
def linkS (f : Link → Link) (s : State) : State := modLink 1 (fun l => f { l with down := [dframe], up := [uframe] }) s

theorem witness_FramesCarryMessages :
    let b := linkS (fun l => { l with st := .down, beacon := some 4999990, beaconLast := 4999900, up := [{ uframe with beacon := true }] }) dieS
    let n := linkS (fun l => { l with safeLeft := 2 }) dieS
    let s := linkS id dieS
    let u := modField 1 (fun d => { d with linked := false }) dieS
    linksRun s = true ∧ (lnk s 1).st ≠ .down ∧ sendsSafe n (lnk n 1) = true ∧ sendsSafe s (lnk s 1) = false ∧ (lnk s 1).st = .up
      ∧ (lnk b 1).st = .down ∧ (lnk s 1).down = [dframe] ∧ (fdie s 1).powered = true ∧ s.inj.armed = none ∧ dframe.typ = .safe
      ∧ dframe.conf = [] ∧ dframe.sched = [] ∧ dframe.withdraw = none ∧ (fdie s 1).linked = true ∧ (fdie s 1).badRun < 3
      ∧ (fdie u 1).linked = false ∧ (fdie s 1).again = [] ∧ (lnk s 1).up = [uframe] ∧ uframe.beacon = false ∧ uframe.reports = []
      ∧ uframe.badDown = [] ∧ uframe.chan = none ∧ (lnk s 1).badRun < 3 ∧ 3 ≤ (lnk (linkS (fun l => { l with badRun := 3 }) dieS) 1).badRun
      ∧ linksRun b = true ∧ (lnk b 1).up = [{ uframe with beacon := true }] ∧ uframe.supply = .good
      ∧ isOutput (dieMode s 8) = true ∧ chanGrp 8 = 1 := by
  and_intros <;> first
    | exact ready_row (by decide +kernel)
    | exact ready_packet (by decide +kernel)
    | exact ready_head (by decide +kernel)
    | exact ready_serve (by decide +kernel)
    | exact taps_free (by decide +kernel)
    | decide +kernel

def trg (l : Lidx) (k : Nat) : Trig := { l := l, stamp := k, src := 3 }
def trgS (l : List Trig) (s : State) : State := modField 1 (fun d => { d with trigs := l }) s

theorem witness_ConversionsAreMade :
    let t := cfgSet .smpTimer 500 (cfgSet (.smpCfg 8) 68 runS)
    let s := trgS [trg 4 5000600, trg 4 5000500, trg 5 5] dieS
    let c := sliceS 12 (fun x => { x with lastConv := some 5000400 }) s
    timerTicks t ≠ 0 ∧ trigState t = true ∧ t.pw.tb0.isSome = true ∧ (lnk t 1).st = .up ∧ cfgFld t (.smpCfg (chanOf 1 0)) 5 8 ≠ 0
      ∧ (tbNow t / timerTicks t + 1) % cfgFld t (.smpCfg (chanOf 1 0)) 5 8 = 0
      ∧ (fdie s (chanGrp 12)).powered = true
      ∧ firstTrig ((fdie s (chanGrp 12)).trigs.filter fun y => decide (y.l = chanLidx 12)) = some (trg 4 5000500)
      ∧ converts (dieMode s 12) 12 = true ∧ (slc s 12).lastConv = none ∧ (slc c 12).lastConv = some 5000400 ∧ (trg 4 5000500).stamp - 5000400 < 250
      ∧ firstTrig ((fdie s (chanGrp 13)).trigs.filter fun y => decide (y.l = chanLidx 13)) = some (trg 5 5) ∧ converts (dieMode s 13) 13 = false := by
  and_intros <;> first
    | exact ready_row (by decide +kernel)
    | exact ready_packet (by decide +kernel)
    | exact ready_head (by decide +kernel)
    | exact ready_serve (by decide +kernel)
    | exact taps_free (by decide +kernel)
    | decide +kernel

def pev (o : Bool) : PanEv :=
  { g := 1, pan := 2, opens := o, stamp := 5000300, origin := 0, decim := 0x10, cycle := 3, angle := 4, entry := 5 }
def panS (l : List PanEv) : State :=
  cfgSet (.panCfg 1 2) 0x8FFF (cfgSet (.panRegion 1 2) 0x00C03 { runS with smp := { runS.smp with evs := l } })
def panO (c : Option (Nat × BitVec 3)) (s : State) : State := modPan 1 2 (fun k => { k with st := .opened, tClose := c }) s

theorem witness_PansOpenAndClose :
    let a := panS [pev true]
    let z := panO (some (5000700, 1)) (panS [])
    panAlt a 1 2 = false ∧ a.cask.st ≠ .replaying ∧ firstPanEv a 1 2 = some (pev true) ∧ (pev true).opens = true
      ∧ bit (panCfgOf (cfgSet (.panCfg 1 2) 0 a) 1 2) 11 = false ∧ (pan (panO none a) 1 2).st = .opened ∧ (pan (panO none a) 1 2).tClose = none
      ∧ firstPanEv (panO none a) 1 2 = some (pev true)
      ∧ bit (panCfgOf a 1 2) 11 = true ∧ (pan a 1 2).st = .idle ∧ a.mi.fArmed = false ∧ a.canonical = true ∧ (pev true).g = 1 ∧ (pev true).pan = 2
      ∧ firstPanEv (panO none (panS [pev false])) 1 2 = some (pev false) ∧ (pev false).opens = false
      ∧ (pan (panO none (panS [pev false])) 1 2).tClose = none
      ∧ (pan z 1 2).st = .opened ∧ (pan z 1 2).tClose = some (5000700, 1) ∧ z.smp.expect = [] ∧ bit (pan z 1 2).decim 16 = false
      ∧ (pan z 1 2).part = [] ∧ z.canonical = true ∧ panAlt z 1 2 = false ∧ bit (panCfgOf z 1 2) 15 = true ∧ isLive z = true := by
  and_intros <;> first
    | exact ready_row (by decide +kernel)
    | exact ready_packet (by decide +kernel)
    | exact ready_head (by decide +kernel)
    | exact ready_serve (by decide +kernel)
    | exact taps_free (by decide +kernel)
    | decide +kernel

theorem witness_DigitalInputsAct :
    let c := sliceS 10 (fun x => { x with fStart := some 77 }) (dieSet 10 .cntcfg 0xFFFFF (dieSet 10 .cfg 2 dieS))
    let w := dieSet 10 .dicfg 0xFFFFF dieS
    let o := dieSet 8 .docfg 0xFFFFF (sliceS 8 (fun x => { x with shorted := true }) dieS)
    (fdie dieS (chanGrp 10)).powered = true ∧ isDigIn (dieMode dieS 10) = true ∧ (slc dieS 10).inp = !true ∧ (slc dieS 10).comp = !true
      ∧ dieS.cask.st ≠ .replaying ∧ gateTicks dieS 10 = 0 ∧ dieMode c 10 = mDiCount ∧ gateTicks c 10 ≠ 0 ∧ (slc c 10).fStart = some 77
      ∧ bit (dieCh w 10 .dicfg) 11 = true ∧ bit (dieCh w 10 .dicfg) 12 = true ∧ diagHeld w 10 .wireBreak = false
      ∧ diagJudged w 10 .wireBreak = true ∧ diagFlag (slc w 10) .wireBreak = false ∧ diagHeld o 8 .shortVf = false
      ∧ diagFlag (slc o 8) .shortVf = true := by
  and_intros <;> first
    | exact ready_row (by decide +kernel)
    | exact ready_packet (by decide +kernel)
    | exact ready_head (by decide +kernel)
    | exact ready_serve (by decide +kernel)
    | exact taps_free (by decide +kernel)
    | decide +kernel

def on8 (f : Slice → Slice) : State := sliceS 8 (fun x => f { x with out := true, cmd := true }) dieS
def curr : Vector Nat 8 := #v[5000, 200, 300, 4000, 0, 0, 0, 0]

theorem witness_SwitchesAndPatterns :
    let t := on8 (fun x => { x with therm := true, retry := .pause, pauseEnd := some 6000000, out := false })
    let n := on8 (fun x => { x with therm := true, out := false })
    let g := modField 1 (fun d => { d with guard := 100 }) (sliceS 11 (fun x => { x with out := true }) (on8 id))
    (fdie (on8 id) (chanGrp 8)).powered = true ∧ chanGrp 8 = 1 ∧ isSwitch (dieMode (on8 id) 8) = true ∧ (slc (on8 id) 8).out = true
      ∧ (slc (on8 id) 8).inrushEnd = none ∧ (slc (on8 id) 8).r.toNat ≠ fld (dieCh (dieSet 8 .retry 0x40 (on8 id)) 8 .retry) 6 4
      ∧ (slc (on8 id) 8).r.toNat = fld (dieCh (on8 id) 8 .retry) 6 4
      ∧ injRuns g 12 6 (1 : Grp).val = false
      ∧ 8000 < ((guarded g 1).map fun k => curr[chanLidx k]).foldl (· + ·) 0 ∧ 100 ≤ (fdie g 1).guard
      ∧ highest (takeCurrents 1 curr g) (guarded (takeCurrents 1 curr g) 1) = some 8
      ∧ ((guarded (on8 id) 1).map fun k => (Vector.replicate 8 100 : Vector Nat 8)[chanLidx k]).foldl (· + ·) 0 ≤ 8000 ∧ (fdie (on8 id) 1).guard < 100
      ∧ (slc (on8 id) 8).therm = false ∧ (slc t 8).therm = true ∧ injRuns t 12 5 (8 : Chan).val = false ∧ (slc t 8).retry = .pause
      ∧ (slc n 8).retry = .normal ∧ (slc n 8).cmd = true ∧ dieMode n 8 = mDo ∧ (slc t 8).pauseEnd = some 6000000
      ∧ (slc (sliceS 8 (fun x => { x with inrushEnd := some 5000100 }) dieS) 8).inrushEnd = some 5000100 := by
  and_intros <;> first
    | exact ready_row (by decide +kernel)
    | exact ready_packet (by decide +kernel)
    | exact ready_head (by decide +kernel)
    | exact ready_serve (by decide +kernel)
    | exact taps_free (by decide +kernel)
    | decide +kernel

def pwmS (f : Slice → Slice) : State :=
  dieSet 11 .pwmper 1000 (dieSet 11 .pwmduty 300 (dieSet 11 .pwmcfg 1
    (sliceS 11 (fun x => f { x with pwm := true, cmd := true, duty := 50000, out := true }) dieS)))

theorem witness_SwitchesAndPatterns_pwm :
    let a := pwmS (fun x => { x with pwmOn := true })
    let h := pwmS (fun x => { x with hitEnd := some 6000000 })
    (fdie a (chanGrp 11)).powered = true ∧ dieMode a 11 = mDoPwm ∧ (slc a 11).pwm = true ∧ (slc a 11).hitEnd = none ∧ pwmPer a 11 ≠ 0
      ∧ (slc a 11).pwmOn = true ∧ (slc a 11).duty < pwmPer a 11 ∧ (slc (pwmS id) 11).pwmOn = false ∧ dieMode (pwmS id) 11 = mDoPwm
      ∧ pwmPer (pwmS id) 11 ≠ 0 ∧ (slc h 11).hitEnd = some 6000000 ∧ dieMode h 11 = mDoPwm ∧ (slc h 11).pwm = true := by
  and_intros <;> first
    | exact ready_row (by decide +kernel)
    | exact ready_packet (by decide +kernel)
    | exact ready_head (by decide +kernel)
    | exact ready_serve (by decide +kernel)
    | exact taps_free (by decide +kernel)
    | decide +kernel

theorem witness_AnalogEvents :
    let h := modField 1 (fun d => { d with cfg := insertKey (Reg.grp 1 .hrcfg).addr (1 + 2 * 60 + 512 * 90 : Word) true d.cfg }) dieS
    let c := dieSet 9 .acfg 0xFFFFF (sliceS 9 (fun x => { x with code := 1000000, vpin := 70 }) h)
    (fdie dieS (chanGrp 9)).powered = true ∧ chanGrp 9 = 1 ∧ isAnalog (dieMode dieS 9) 9 = true ∧ isDigIn (dieMode dieS 10) = true
      ∧ dieS.inj.armed = none ∧ c.inj.armed = none ∧ anaJudged c 9 .opened = true ∧ anaFlag (slc c 9) .opened = false
      ∧ anaFlag (slc (sliceS 9 (fun x => { x with aShort := true }) dieS) 9) .shorted = true
      ∧ dieMode dieS 9 = mAoI ∧ (slc dieS 9).compl = !true ∧ hrOn h 1 = true ∧ hrOn dieS 1 = false ∧ (fdie h 1).hrErr = !true := by
  and_intros <;> first
    | exact ready_row (by decide +kernel)
    | exact ready_packet (by decide +kernel)
    | exact ready_head (by decide +kernel)
    | exact ready_serve (by decide +kernel)
    | exact taps_free (by decide +kernel)
    | decide +kernel

def start8 : Start := { n := 8, op := .on, counted := 0, since := 4900000 }
def govS (f : Gov → Gov) : State :=
  modGov (fun x => f { x with waiting := [start8], budget := 4000 }) (cfgSet .govCfg 0x50 (cfgSet (.ch 8 .cfg) 3 runS))

theorem witness_GovernorActs :
    let o := modGov (fun x => { x with overAt := some 4000000, overNext := 6000000 }) runS
    let h := modMir 8 (fun m => { m with rep := { m.rep with curMa := 5000, mode := 3 } }) runS
    let s := cfgSet .govCfg 0xFFFFF (govS (fun x => { x with lastRel := x.lastRel.set 1 (some 5000000) }))
    let now (s : State) : State := { s with now := max s.now (tickOf s ((tbNow s / 2500 + 1) * 2500)) }
    govRuns runS = true ∧ runS.inj.armed = none ∧ (640 < (700 : Int)) ∧ isLive runS = true
      ∧ budgetUw (run (.govTempStep 1200) h) < estModule (run (.govTempStep 1200) h) ∧ h.gov.overAt = none
      ∧ estModule (run (.govTempStep 300) runS) ≤ budgetUw (run (.govTempStep 300) runS)
      ∧ o.gov.overAt = some 4000000 ∧ (fdie runS 1).powered = true ∧ (fdie runS 1).tempArmed = true
      ∧ (govS id).pw.dev = .run ∧ (govS id).pw.resetSeq = none ∧ (govS id).pw.tb0.isSome = true ∧ (govS id).gov.waiting = [start8]
      ∧ (govS id).gov.lastRel[chanGrp 8] = none ∧ startFits (now (govS id)) start8 = true ∧ start8.op = .on ∧ (lnk (govS id) (chanGrp 8)).st = .up
      ∧ startFits (now (govS (fun x => { x with budget := 0 }))) start8 = false
      ∧ s.gov.lastRel[chanGrp 8] = some 5000000 ∧ ¬ 5000000 + staggerTicks s ≤ (now s).now ∧ startFits (now s) start8 = true
      ∧ (govS id).gov.waiting.find? (fun x => decide (x.n = start8.n)) = some start8 ∧ cfgFld (govS id) .govCfg 6 4 ≠ 0 := by
  and_intros <;> first
    | exact ready_row (by decide +kernel)
    | exact ready_packet (by decide +kernel)
    | exact ready_head (by decide +kernel)
    | exact ready_serve (by decide +kernel)
    | exact taps_free (by decide +kernel)
    | decide +kernel

theorem witness_MemoriesAreKept :
    let s := cfgSet .miCfg 1 runS
    let e := memSet 0 0 (encWord 5 ^^^ 4) s
    let l : List Word := [1, 2, 3, 4, 5, 6, 7, 8]
    let r := modSeq (fun q => { q with refetch := some (true, 3) }) (modBank 1 (fun k => { k with lineChk := true, loaded := true })
      (setLineCrc 1 3 (crc16 l) runS))
    cfgBit s .miCfg 0 = true ∧ isLive s = true ∧ s.pw.dev ≠ .lockdown ∧ scrubAt s.mi.scrub memAll = some (0, 0) ∧ underTest s 0 = false
      ∧ lineBank s 0 = none ∧ (decCell (memCell s 0 0)).2 = .ok ∧ scrubAt e.mi.scrub memAll = some (0, 0)
      ∧ decCell (memCell e 0 0) = (encWord 5, .corrected) ∧ e.canonical = true ∧ (0 : Fin 16) ≠ 8 ∧ e.mi.cnt[(0 : Fin 16)].lcorV = false
      ∧ (modMi (fun x => { x with test := some (4000000, 5) }) maintS).mi.test = some (4000000, 5)
      ∧ r.seq.refetch = some (true, 3) ∧ r.mmp.reqs.all (fun q => q.user != .refetch) = true ∧ l.length = 8
      ∧ crc16 l = lineCrcOf r 1 3 ∧ r.canonical = true := by
  and_intros <;> first
    | exact ready_row (by decide +kernel)
    | exact ready_packet (by decide +kernel)
    | exact ready_head (by decide +kernel)
    | exact ready_serve (by decide +kernel)
    | exact taps_free (by decide +kernel)
    | decide +kernel

def rq (write : Bool) (step : Nat) : MmpReq :=
  { mkReq .refetch 0 write 40 8 (if write then List.replicate 24 3 else []) none with step := step }
def mmpS (q : MmpReq) (b : Option (MmpUser × Nat)) : State := modMmp (fun m => { m with reqs := [q], bus := b, lastEnd := 4999999 }) (mmpOn runS)

theorem witness_MemoryMasterPortTransfers :
    let f := { rq false 0 with win := 3 }
    let p := { rq true 2 with polls := 4999500 }
    let w := cfgSet (.mmpWin 0 0) 0x2C0 (mmpS p none)
    let b (q : MmpReq) := mmpS q (some (.refetch, 4999000))
    (rq false 0).user = .refetch ∧ (mmpS (rq false 0) none).mmp.bus = none ∧ mmpNext (mmpS (rq false 0) none) = some (.refetch, rq false 0)
      ∧ mmpCheck (mmpS (rq false 0) none) (rq false 0) = none ∧ mmpNext (mmpS f none) = some (.refetch, f) ∧ f.done = 0 ∧ f.step = 0
      ∧ (mmpCheck (mmpS f none) f).isSome = true ∧ (b (rq false 0)).mmp.bus = some (.refetch, 4999000)
      ∧ mmpHead (b (rq false 0)) .refetch = some (rq false 0) ∧ (mmpShape (b (rq false 0)) (rq false 0)).2 ≤ (List.replicate 30 (1 : BitVec 8)).length
      ∧ mmpHead (b (rq true 0)) .refetch = some (rq true 0) ∧ (rq true 0).write = true ∧ (rq true 0).step = 0
      ∧ mmpHead (b (rq true 1)) .refetch = some (rq true 1) ∧ cfgBit (b (rq true 1)) (.mmpSel (mmpPlace (b (rq true 1)) (rq true 1)).1 2) 17 = true
      ∧ isDtr (cfgSet (.mmpSel 0 0) 0x0003D (cfgSet .mmpCfg 5 (b (rq false 0)))) = true
      ∧ w.mmp.bus = none ∧ mmpPolling w = some (.refetch, p) ∧ w.inj.armed = none ∧ cfgBit w (.mmpWin p.win 0) 9 = true
      ∧ (let k := (mmpPlace w p).1
        let step := (selFld w k 3 12 4 + 1) * 250
        max (p.polls + max 1 ((w.now - p.polls + step - 1) / step) * step) (w.mmp.lastEnd + mckTicks w 2) ≤ pollDeadline w k p
          ∧ bit (0 : BitVec 8) (selFld w k 3 4 3) = cfgBit w (.mmpSel k 3) 7
          ∧ bit (0xFF : BitVec 8) (selFld w k 3 4 3) ≠ cfgBit w (.mmpSel k 3) 7) := by
  and_intros <;> first
    | exact ready_row (by decide +kernel)
    | exact ready_packet (by decide +kernel)
    | exact ready_head (by decide +kernel)
    | exact ready_serve (by decide +kernel)
    | exact taps_free (by decide +kernel)
    | decide +kernel

theorem witness_HalfWordCodeMends : 16 < 17 ∧ 0 < 9 ∧ 9 < 10 ∧ 10 ≤ 13 ∧ 13 < 14 ∧ 14 < 15 ∧ (14 = 10 + 9 % 5 ∧ 16 = 15 + 9 / 5) := by decide

theorem witness_WheelCombinationsRefused :
    (∀ v ∈ [(0x0003C : Word).toNat, 0x0483C, 0x0683C, 0x0080B, 0x00C01],
      inConfMaint cfgS = true ∧ cfgS.cask.st ≠ .replaying ∧ (fld (BitVec.ofNat 20 v) 11 2 = 0 ∧ bit (BitVec.ofNat 20 v) 15 = false
        ∨ fld (BitVec.ofNat 20 v) 13 2 = 2 ∧ bit (BitVec.ofNat 20 v) 17 = false ∨ fld (BitVec.ofNat 20 v) 13 2 = 3 ∨ fld (BitVec.ofNat 20 v) 0 11 < 12
        ∨ 1024 < fld (BitVec.ofNat 20 v) 0 11))
      ∧ RowReady Op.regWrite .a cfgS ∧ PacketReady Op.regWrite (msg [0, whlW, 0x0003C]) (put Op.regWrite (msg [0, whlW, 0x0003C]) cfgS)
      ∧ (msg [0, whlW, 0x0003C]).words = [0, BitVec.ofNat 20 Reg.wheel.addr, 0x0003C] := by
  and_intros <;> first
    | exact ready_row (by decide +kernel)
    | exact ready_packet (by decide +kernel)
    | exact ready_head (by decide +kernel)
    | exact ready_serve (by decide +kernel)
    | exact taps_free (by decide +kernel)
    | decide +kernel

theorem witness_StepKeepsCanonical :
    ({ cfgS with pending := [.lockstepMismatch] } : State).canonical = true
      ∧ (match step { cfgS with pending := [.lockstepMismatch] } with | .next t => resetting t | _ => false) = true := by
  and_intros <;> first
    | exact ready_row (by decide +kernel)
    | exact ready_packet (by decide +kernel)
    | exact ready_head (by decide +kernel)
    | exact ready_serve (by decide +kernel)
    | exact taps_free (by decide +kernel)
    | decide +kernel

/-! ### Single steps with the results of the spec's examples -/

/-- The HELLO exchange (05_packet_protocol, Worked packets): header, check word, reply. -/
theorem test_hello_header : hdrWord1 0x01020 1 = 0x00116 ∧ hdrWord1 0x00008 0 = 0x00067 ∧ hdrWord1 0x00028 4 = 0x004AD := by decide +kernel
theorem test_hello_check_word : checkWord [0x00023] = 0x0D4D0 ∧ checkWord [0x00333, 0x04860, 0x02051, 0x00004] = 0x094DB := by decide +kernel
theorem test_hello_header_beat :
    (prt (run (.headerBeat .a 0x01020 0x00116) (modPort .a (fun x => { x with selected := true }) runS)) .a).rx
      = .payload 0x01020 0x00116 .accept := by decide +kernel
theorem test_hello_reply :
    let s := run (.hello (msg [0x00023])) (put Op.hello (msg [0x00023]) (modPort .b (fun x => { x with vintage := 2 }) (vint 0 runS)))
    (prt s .a).vintage = 3
      ∧ ((prt s .a).replyQ.map fun r => (r.status, r.cells.map cellData)) = [(stOk, [0x00333, 0x04860, fwVer runS, 0x00004])] := by
  decide +kernel
theorem test_packet_bad_check :
    let s := modPort .a (fun x => { x with selected := true, rx := .payload 0x01020 0x00116 .accept }) runS
    ((prt (run (.packetComplete .a [0x00033] 0x0D4D0) s) .a).cmdBuf.map fun x => x.msg.good) = [false] := by decide +kernel

/-- The daisy frame of the ballast skid (04_host_ports): data 0x0A5, word 0x0A54. -/
theorem test_daisy_crc : imageCrc 15 0x0A54 = 4 := by decide +kernel
theorem test_daisy_frame_length :
    (prt (run (.daisyFrame .a 15 0x0A54) (dzSel 1032 cfgS)) .a).lenRej = 1 ∧ (prt (run (.daisyFrame .a 16 0x0A54) (dzSel 1032 cfgS)) .a).outImage = 0x0A54 := by
  decide +kernel

/-- The tokens of the genset's watchdog (15_faults_watchdog). -/
theorem test_wd_tokens :
    nextToken 0x12345 = 0x5B078 ∧ nextToken 0x5B078 = 0xC7277 ∧ nextToken 0xC7277 = 0xE3C72 := by decide
theorem test_wd_config_words :
    let s := run (.wdConfigSet (msg [0x00040, 0x09C40, 0x0EA60, 0x0D6D8])) (put Op.wdConfig (msg [0x00040, 0x09C40, 0x0EA60, 0x0D6D8]) runS)
    s.wd.clk = true ∧ s.wd.pre = 0 ∧ s.wd.close = 40000 ∧ s.wd.timeout = 60000 ∧ s.wd.warn = 55000 := by decide +kernel
theorem test_wd_start :
    let s := modWd (fun w => { w with owner := some .a, clk := true, clkNow := true, close := 40000, timeout := 60000, warn := 55000 }) runS
    let t := run (.wdConfigStart (msg [0x00001, 0x12345])) (put Op.wdConfig (msg [0x00001, 0x12345]) s)
    t.wd.running = true ∧ t.wd.token = 0x12345 ∧ wdCount t = 0 := by decide +kernel
theorem test_wd_serve_early :
    let t := run (.wdServe (msg [tok])) (wdAt 9)
    t.wd.last = 2 ∧ heldAt t 11 = some { cause := 3, unit := 0, promoted := false } ∧ faultN t = true ∧ shows t 83 = true := by decide +kernel

/-- A tap that the other port holds, and its idle timeout (06_registers_taps). -/
theorem test_tap_held :
    let s := modTap 3 (fun t => { t with holder := some .b }) runS
    ((prt (run (.tapTake (msg [3])) (put Op.tapTake (msg [3]) s)) .a).replyQ.map fun r => (r.status, r.cells.map cellData)) = [(stTap, [0x00043])] := by
  decide +kernel
theorem test_tap_take :
    ((prt (run (.tapTake (msg [3])) (put Op.tapTake (msg [3]) runS)) .a).replyQ.map fun r => (r.status, r.cells.map cellData)) = [(stOk, [0x00023])] := by
  decide +kernel
theorem test_tap_idle :
    let t := run (.tapIdleTimeout 3) (cfgSet (.tapCfg 3) 8 (modTap 3 (fun t => { t with holder := some .b, since := 5000000 }) runS))
    t.now = 5000000 + 128 * 250000 ∧ regWord t .a (.tapStat 3) = 0x00008 ∧ shows t 76 = true := by decide +kernel

/-- CHAN_CONFIG of channels 12 to 19 that meets a held tap (05_packet_protocol). -/
theorem test_chan_config_partial :
    let m := msg [0x00000, 0xFF000, 0x00000, 0x00000, 0x00040, 0x00000]
    let s := modTap 3 (fun t => { t with holder := some .b }) cfgS
    ((prt (run (.chanConfig m) (put Op.chanConfig m s)) .a).replyQ.map fun r => (r.status, r.cells.map cellData))
      = [(stPartial, [0x02004, 0x00010, 0x0F000, 0, 0])] := by decide +kernel
theorem test_chan_config_staged :
    let m := msg [0x00001, 0xFF000, 0x00000, 0x00000, 0x00040, 0x00000]
    let s := modTap 3 (fun t => { t with holder := some .b }) cfgS
    ((prt (run (.chanConfig m) (put Op.chanConfig m s)) .a).replyQ.map fun r => (r.status, r.cells.map cellData))
      = [(stTap, [0x02000, 0x00010, 0, 0, 0])] := by decide +kernel

/-- Three flips in pan memory (16_memory_integrity). -/
theorem test_half_word_code : encHalf 0x1A7 = 0x6A#7 ++ 0x1A7#10 := by decide +kernel
theorem test_flip_data : decHalf (encHalf 0x1A7 ^^^ 0x00080) = (encHalf 0x1A7, .corrected) := by decide +kernel
theorem test_flip_two : decHalf (encHalf 0x1A7 ^^^ 0x00180) = (encHalf 0x1A7 ^^^ 0x00180, .bad) ∧ halfData (encHalf 0x1A7 ^^^ 0x00180) = 0x027 := by
  decide +kernel
theorem test_flip_data_and_check : (decHalf (encHalf 0x1A7 ^^^ 0x10080)).2 = .corrected ∧ halfData (decHalf (encHalf 0x1A7 ^^^ 0x10080)).1 = 0x127 := by
  decide +kernel

/-- The qualification sequence (20_fault_injection): a point, and an early serve that escalates in MAINTENANCE. -/
theorem test_inject :
    let m := msg [0x07E12, 0x00013]
    let t := run (.inject m) (put Op.inject m maintS)
    (t.inj.armed.map fun a => (a.dom.toNat, a.cause.toNat, a.unit.toNat)) = some (2, 1, 63) ∧ t.inj.num = 1 := by decide +kernel
theorem test_escalation :
    let t := report 11 3 0 (holdFault 11 3 0 false maintS)
    (frecWords t).take 2 = [0x0803B, 0x02003] ∧ resetting t = true := by decide +kernel

/-- The pressure pans of the genset (09_sampling_pans). -/
theorem test_pan_region : panSize (cfgSet (.panRegion 3 0) 0x14400 cfgS) 3 0 = 5248 ∧ panBase (cfgSet (.panRegion 3 1) 0x14452 cfgS) 3 1 = 5248 := by
  decide +kernel

/-- The positioner loop of the ballast skid (11_channels_analog): 20.0 mA and 22.0 V. -/
theorem test_monitor :
    let s := run (.monitorStep 33 2500 110) (dieSet 33 .cfg 7 runS)
    (slc s 33).imon = 2500 ∧ (slc s 33).vpin = 110 := by decide +kernel

/-- The start bank of the two-stroke (08_trellis_sequencer): what its words mean, and its arming. -/
def startBank : List Word :=
  [0x00000, 0x22000, 0x4AAAB, 0x00000, 0x58000, 0x00000, 0x0E38E, 0x19001, 0x01F40, 0x24925, 0x22C00, 0x6F3CF, 0x32CB3, 0x19C01, 0x01F40,
    0x49249, 0x22200, 0x93CF4, 0x575D7, 0x19201, 0x01F40, 0x6DB6E, 0x22800, 0xB8618] ++
  [0x7BEFC, 0x19801, 0x01F40, 0x92492, 0x22600, 0xDCF3D, 0xA0821, 0x19601, 0x01F40, 0xB6DB7, 0x22400, 0x01862, 0xC5145, 0x19401, 0x01F40,
    0xDB6DB, 0x22A00, 0x26186, 0xE9A6A, 0x19A01, 0x01F40]
theorem test_entry_words :
    entAction 0x22000 = aPulseA ∧ entTarget 0x22000 = 16 ∧ entAction 0x58000 = aMark ∧ entAction 0x19001 = aPulseT ∧ entTarget 0x19001 = 8 := by
  decide
def startS : State :=
  let s := cfgSet .spdMax (110 * 16) (cfgSet .spdMin 160 (cfgSet .trkCfg 0x1010 (cfgSet .wheel (180 + 2 * 2048) (modGov (fun g => { g with budget := 4000 }) runS))))
  let s := [8, 9, 10, 11, 12, 13, 14, 16, 17, 18, 19, 20, 21, 22].foldl (fun s n => cfgSet (.ch n .cfg) 3 s) s
  { modBank 0 (fun k => { k with loaded := true }) (cfgSet (.bankCfg 0) 0x0000F s) with
    mems := s.mems.set 0 (((List.range 45).zip (startBank.map encWord)).filter fun x => x.2 != 0) }
theorem test_start_bank_armed :
    let t := run (.trellisArm (msg [0])) (put Op.trellisArm (msg [0]) startS)
    (bnk t 0).st = .waiting ∧ (bnk t 0).reason = 0 := by decide +kernel

/-- Two flash devices (19_memory_master_port): a page program of 263 clocks, 3 of write enable,
the two clocks between transactions (R538) among them. -/
def flashS : State :=
  let s := [1, 2].foldl (fun s k => cfgSet (.mmpSel k 0) 0x01475 (cfgSet (.mmpSel k 1) 0x0120C (cfgSet (.mmpSel k 2) 0x30506 (cfgSet (.mmpSel k 3) 0x09888 s))))
    (cfgSet .mmpCfg 0x00089 runS)
  cfgSet (.mmpWin 1 2) 0x02AAA (cfgSet (.mmpWin 1 1) 0 (cfgSet (.mmpWin 1 0) 0x000D1 s))
theorem test_flash_program :
    let q := mkReq .rack 1 true (5461 * 4096) 4096 (List.replicate 12288 0) none
    (mmpPlace flashS q).1 = 1 ∧ (mmpShape flashS q).1 + 2 = 3 ∧ (mmpShape flashS { q with step := 1 }).1 + 2 = 263 := by decide +kernel

/-- The short on channel 5 (10_channels_digital): RETRY 0x00087 gives 8 ms and two retries. -/
def shortS (r : BitVec 4) : State :=
  dieSet 5 .retry 0x00087 (dieSet 5 .docfg 0x02294 (dieSet 5 .cfg 3
    (sliceS 5 (fun x => { x with out := true, cmd := true, r := r }) runS)))
theorem test_trip_pauses :
    let t := run (.limitTimerTrip 5) (shortS 0)
    (slc t 5).retry = .pause ∧ (slc t 5).pauseEnd = some (5000000 + 8 * 250000) ∧ (slc t 5).out = false ∧ (slc t 5).cmd = true := by decide +kernel
theorem test_trip_latches :
    let t := run (.limitTimerTrip 5) (shortS 2)
    (slc t 5).retry = .latched ∧ (slc t 5).out = false := by decide +kernel
theorem test_pause_ends :
    let t := run (.retryPauseEnd 5) (run (.limitTimerTrip 5) (shortS 0))
    (slc t 5).retry = .normal ∧ (slc t 5).out = true ∧ (slc t 5).r = 1 ∧ t.now = 5000000 + 8 * 250000 := by decide +kernel

/-- The silent logic die (12_field_links_safe_states): SAFE_HOLD for 500 ms on channel 17, SAFE_VALUE 3.6 mA on channel 21. -/
def silentS : State :=
  modField 2 (fun d => { d with wdArmed := true, lastGood := 5000000, wdTime := 1000 })
    (dieSet 17 .safeT 500 (dieSet 17 .safe 1 (dieSet 17 .cfg 3 (dieSet 21 .safeV 0x23280 (dieSet 21 .safe 2 (dieSet 21 .cfg 7
      (sliceS 17 (fun x => { x with out := true, cmd := true }) (sliceS 21 (fun x => { x with code := 0x75300 }) runS))))))))
theorem test_watchdog_holds :
    let t := run (.linkWatchdogExpiry 2) silentS
    t.now = 5000000 + 250000 ∧ (slc t 17).out = true ∧ (slc t 17).holdEnd = some (t.now + 500 * 250000) ∧ (slc t 21).code = 0x23280 := by
  decide +kernel
theorem test_link_lost_keeps_outputs :
    let t := run (.fieldLinkLost 2) silentS
    (slc t 17).out = true ∧ (slc t 21).code = 0x75300 ∧ (fdie t 2).linked = false := by decide +kernel

/-- The sleeping host (14_interrupts): source 63 goes to the port of the lowest PRIO, and IVECA shows it. -/
theorem test_source_63 :
    let s := cfgSet (.portPrio .a) 2 (cfgSet (.portPrio .b) 5 (cfgSet (.intCfg 63) 0x00038 (cfgSet (.ien 3) 0x00008 runS)))
    let t := raise 63 s
    isActive t .a 63 = true ∧ regWord t .a (.ivec .a) = 0x0043F := by decide +kernel

theorem test_lockstep : (run .lockstepMismatch runS).aon.frec.cause = 7 ∧ resetting (run .lockstepMismatch runS) = true := by decide +kernel
theorem test_reset_takes_hold :
    let t := run .resetTakeHold (run .lockstepMismatch runS)
    t.pw.dev = .boot ∧ t.aon.fatalHeld = true ∧ t.aon.resetCause &&& 0x10 = 0x10 ∧ t.pw.resetSeq = none := by decide +kernel
theorem test_boot_ends_in_safe :
    (run (.bootEnd true true) (modAon (fun a => { a with fatalHeld := true }) (bootTb .groups))).pw.dev = .safe
      ∧ (run (.bootEnd true true) (bootTb .groups)).pw.dev = .config := by decide +kernel
theorem test_safe_n : (run .safeNAssert runS).pw.dev = .safe ∧ (run .safeNAssert State.reset).pw.dev = .boot := by decide +kernel
theorem test_idle_tick : step State.reset = .next { State.reset with now := State.reset.now + 1 } := rfl
theorem test_step_takes_front :
    step { runS with pending := [.stbyNRise, .pllLock] } = exec .stbyNRise { runS with pending := [.pllLock] } := rfl
theorem test_state_req :
    let t := run (.stateReq (msg [3])) (srS 3 cfgS)
    t.pw.dev = .run ∧ ((prt t .a).replyQ.map fun r => (r.status, r.cells.map cellData)) = [(stOk, [devStateWord t])] := by decide +kernel
theorem test_state_req_refused :
    ((prt (run (.stateReq (msg [3])) (srS 3 maintS)) .a).replyQ.map fun r => r.status) = [stState] := by decide +kernel
theorem test_register_write :
    cfgGet (run (.trackerConfigWrite .a .wheel 0x0883C) cfgS) .wheel = 0x0883C
      ∧ cfgGet (run (.trackerConfigWrite .a .wheel 0x0003C) cfgS) .wheel = cfgGet cfgS .wheel := by decide +kernel
theorem test_di_edge :
    let t := run (.diEdge 10 true) (dieSet 10 .cfg 1 runS)
    (slc t 10).inp = true ∧ (fdie t 1).reports.contains (.dig 2 0) = true := by decide +kernel
theorem test_sha256_abc :
    sha256Bytes [0x61, 0x62, 0x63] = 0xba7816bf8f01cfea414140de5dae2223b00361a396177a9cb410ff61f20015ad := by decide +kernel
theorem test_generator_on_curve : onCurve p256Gx p256Gy = true ∧ pointMul p256N (some (p256Gx, p256Gy)) = none := by decide +kernel
theorem test_no_bits : decodeTableWord 8 0 = none ∧ runS.withFetchWord 8 0 = runS := ⟨rfl, rfl⟩

end Sys2Proof.Tests
end

section
/-! Every step keeps memories and configuration in canonical form (O60). Each operation of the model has one lemma here,
in the order of the model. An operation that touches neither the protected memories nor the configuration list leaves
`canonical` as it is, an equation; one that may write them keeps it. A command's lemma says the same of its next state.
`simp` goes through the lemmas from the outermost operation inwards (`↓`), so that an operation is never unfolded outside
its own lemma. -/

namespace Sys2Proof.Machine

-- One proof after the other: hundreds of them elaborated at once would each hold a thread's stack.
set_option Elab.async false

variable {s : State}

/-! ### What the canonical form says, and folds and choices of states -/

/-- The next state of an outcome, if it has one, is canonical. -/
def nextCanonical (r : Res) : Bool :=
  match r with
  | .next t => t.canonical
  | _ => true

theorem canonical_iff : s.canonical ↔ s.memsWf ∧ rising s.cfg := by
  simp [State.canonical]

/-- A step that leaves memories and configuration list alone leaves the canonical form alone. -/
theorem canonical_congr {t : State} (hm : t.mems = s.mems) (hc : t.cfg = s.cfg) : t.canonical = s.canonical := by
  simp only [State.canonical, State.memsWf, hm, hc]

@[simp ↓] theorem nextCanonical_next : nextCanonical (.next s) = s.canonical := rfl

@[simp ↓] theorem nextCanonical_ite {c : Prop} [Decidable c] {a b : Res} :
    nextCanonical (if c then a else b) = if c then nextCanonical a else nextCanonical b := apply_ite ..

@[simp ↓] theorem canonical_ite {c : Prop} [Decidable c] {t : State} :
    (if c then s else t).canonical = if c then s.canonical else t.canonical := apply_ite ..

@[simp ↓] theorem canonical_snd_ite {α : Type} {c : Prop} [Decidable c] {a b : α × State} :
    (if c then a else b).2.canonical = if c then a.2.canonical else b.2.canonical := by
  split <;> rfl

@[simp ↓] theorem whenSt_canonical (b f) :
    (whenSt b f s).canonical = if b then (f s).canonical else s.canonical := canonical_ite

/-- A fold of steps that leave the stores alone leaves them alone. -/
@[simp ↓] theorem foldSt_canonical_eq {α : Type} {l : List α} {f : α → State → State}
    (hf : ∀ a t, (f a t).canonical = t.canonical) : (foldSt l f s).canonical = s.canonical :=
  foldSt_keeps State.canonical l f hf s

/-- A fold of steps that keep the canonical form keeps it. -/
theorem foldSt_canonical {α : Type} {l : List α} {f : α → State → State} (h : s.canonical)
    (hf : ∀ a t, t.canonical → (f a t).canonical) : (foldSt l f s).canonical :=
  List.foldlRecOn (motive := fun t => t.canonical = true) l _ h fun t ht a _ => hf a t ht

theorem canonical_ite_imp {c : Prop} [Decidable c] {t : State} (hs : s.canonical) (ht : s.canonical → t.canonical) :
    (if c then s else t).canonical := by
  simp [hs, ht]

theorem canonical_of_snd {α : Type} {p : α × State} {a : α} {t : State} (e : p = (a, t)) (hp : p.2.canonical) :
    t.canonical := by
  rwa [e] at hp

/-- A fold that carries a state beside a result keeps the canonical form when its steps do. -/
theorem foldl_snd_canonical {α β : Type} {l : List β} {f : α × State → β → α × State} {p : α × State} (hp : p.2.canonical)
    (hf : ∀ (p : α × State) (b : β), p.2.canonical → (f p b).2.canonical) : (l.foldl f p).2.canonical :=
  List.foldlRecOn (motive := fun p : α × State => p.2.canonical = true) l _ hp fun p hp b _ => hf p b hp

theorem reset_canonical : State.reset.canonical := by decide

/-! ### Writes of one part of the state -/

@[simp ↓] theorem reach_canonical (t) : (reach t s).canonical = s.canonical := canonical_congr rfl rfl
@[simp ↓] theorem modPw_canonical (f) : (modPw f s).canonical = s.canonical := canonical_congr rfl rfl
@[simp ↓] theorem modSec_canonical (f) : (modSec f s).canonical = s.canonical := canonical_congr rfl rfl
@[simp ↓] theorem modAon_canonical (f) : (modAon f s).canonical = s.canonical := canonical_congr rfl rfl
@[simp ↓] theorem modCal_canonical (f) : (modCal f s).canonical = s.canonical := canonical_congr rfl rfl
@[simp ↓] theorem modMmp_canonical (f) : (modMmp f s).canonical = s.canonical := canonical_congr rfl rfl
@[simp ↓] theorem modGov_canonical (f) : (modGov f s).canonical = s.canonical := canonical_congr rfl rfl
@[simp ↓] theorem modInj_canonical (f) : (modInj f s).canonical = s.canonical := canonical_congr rfl rfl
@[simp ↓] theorem modMi_canonical (f) : (modMi f s).canonical = s.canonical := canonical_congr rfl rfl
@[simp ↓] theorem modFlt_canonical (f) : (modFlt f s).canonical = s.canonical := canonical_congr rfl rfl
@[simp ↓] theorem modCask_canonical (f) : (modCask f s).canonical = s.canonical := canonical_congr rfl rfl
@[simp ↓] theorem modSeq_canonical (f) : (modSeq f s).canonical = s.canonical := canonical_congr rfl rfl
@[simp ↓] theorem modTrk_canonical (f) : (modTrk f s).canonical = s.canonical := canonical_congr rfl rfl
@[simp ↓] theorem modSmp_canonical (f) : (modSmp f s).canonical = s.canonical := canonical_congr rfl rfl
@[simp ↓] theorem modWd_canonical (f) : (modWd f s).canonical = s.canonical := canonical_congr rfl rfl
@[simp ↓] theorem modIrq_canonical (f) : (modIrq f s).canonical = s.canonical := canonical_congr rfl rfl
@[simp ↓] theorem modPorts_canonical (f) : (modPorts f s).canonical = s.canonical := canonical_congr rfl rfl
@[simp ↓] theorem modLinks_canonical (f) : (modLinks f s).canonical = s.canonical := canonical_congr rfl rfl
@[simp ↓] theorem modTaps_canonical (f) : (modTaps f s).canonical = s.canonical := canonical_congr rfl rfl
@[simp ↓] theorem modTap_canonical (k f) : (modTap k f s).canonical = s.canonical := canonical_congr rfl rfl
@[simp ↓] theorem modDeferred_canonical (f) : (modDeferred f s).canonical = s.canonical := canonical_congr rfl rfl
@[simp ↓] theorem setTurn_canonical (p) : (setTurn p s).canonical = s.canonical := canonical_congr rfl rfl
@[simp ↓] theorem setGrpJob_canonical (j) : (setGrpJob j s).canonical = s.canonical := canonical_congr rfl rfl
@[simp ↓] theorem modGrpJob_canonical (f) : (modGrpJob f s).canonical = s.canonical := canonical_congr rfl rfl
@[simp ↓] theorem setRegJob_canonical (j) : (setRegJob j s).canonical = s.canonical := canonical_congr rfl rfl
@[simp ↓] theorem setCfgJob_canonical (j) : (setCfgJob j s).canonical = s.canonical := canonical_congr rfl rfl
@[simp ↓] theorem setNvList_canonical (l) : (setNvList l s).canonical = s.canonical := canonical_congr rfl rfl
@[simp ↓] theorem modPort_canonical (p f) : (modPort p f s).canonical = s.canonical := canonical_congr rfl rfl
@[simp ↓] theorem modLink_canonical (g f) : (modLink g f s).canonical = s.canonical := canonical_congr rfl rfl
@[simp ↓] theorem modField_canonical (g f) : (modField g f s).canonical = s.canonical := canonical_congr rfl rfl
@[simp ↓] theorem modSlice_canonical (n f) : (modSlice n f s).canonical = s.canonical := canonical_congr rfl rfl
@[simp ↓] theorem modMir_canonical (n f) : (modMir n f s).canonical = s.canonical := canonical_congr rfl rfl
@[simp ↓] theorem modBank_canonical (b f) : (modBank b f s).canonical = s.canonical := canonical_congr rfl rfl
@[simp ↓] theorem modPan_canonical (g p f) : (modPan g p f s).canonical = s.canonical := canonical_congr rfl rfl
@[simp ↓] theorem nextFree_canonical : (nextFree s).canonical = s.canonical := canonical_congr rfl rfl
@[simp ↓] theorem drawWord_canonical : (drawWord s).2.canonical = s.canonical := canonical_congr rfl rfl

/-- A configuration register is put at the place of its address. -/
@[simp ↓] theorem cfgSet_canonical (h : s.canonical) (r w) : (cfgSet r w s).canonical := by
  obtain ⟨hm, hc⟩ := canonical_iff.1 h
  exact canonical_iff.2 ⟨hm, insertKey_rising _ _ _ _ hc⟩

/-! ### Interrupts -/

theorem IrqOnly.canonical {f : State → State} (hf : IrqOnly f) : (f s).canonical = s.canonical := by
  rw [hf s]
  rfl

@[simp ↓] theorem setPend_canonical (n b) : (setPend n b s).canonical = s.canonical := canonical_congr rfl rfl

@[simp ↓] theorem setReleased_canonical (n b) : (setReleased n b s).canonical = s.canonical :=
  (setReleased_only n b).canonical

@[simp ↓] theorem setActive_canonical (p n b) : (setActive p n b s).canonical = s.canonical :=
  (setActive_only p n b).canonical

@[simp ↓] theorem deliver_canonical : (deliver s).canonical = s.canonical :=
  (deliver_only).canonical

@[simp ↓] theorem fireMod_canonical (m) : (fireMod m s).canonical = s.canonical :=
  (fireMod_only m).canonical

@[simp ↓] theorem syncMods_canonical : (syncMods s).canonical = s.canonical :=
  (syncMods_only).canonical

@[simp ↓] theorem raise_canonical (n) : (raise n s).canonical = s.canonical :=
  (raise_only n).canonical

@[simp ↓] theorem raiseNat_canonical (n) : (raiseNat n s).canonical = s.canonical :=
  (raiseNat_only n).canonical

@[simp ↓] theorem serviceDone_canonical (p n) : (serviceDone p n s).canonical = s.canonical :=
  (serviceDone_only p n).canonical

@[simp ↓] theorem present_canonical (l n) : (present l n s).canonical = s.canonical :=
  (present_only l n).canonical

@[simp ↓] theorem sleepPort_canonical (p) : (sleepPort p s).canonical = s.canonical := by
  simp [sleepPort]

@[simp ↓] theorem wakePort_canonical (p) : (wakePort p s).canonical = s.canonical := by
  simp [wakePort]

@[simp ↓] theorem reroute_canonical (n old) : (reroute n old s).canonical = s.canonical :=
  (reroute_only n old).canonical

/-! ### Protected memories -/

/-- A step that leaves the configuration list alone keeps the canonical form when it keeps that of the memories. -/
theorem canonical_of_memsWf {t : State} (h : s.canonical) (hc : t.cfg = s.cfg) (hm : s.memsWf → t.memsWf) :
    t.canonical := by
  rw [canonical_iff] at h ⊢
  exact ⟨hm h.1, hc ▸ h.2⟩

@[simp ↓] theorem memSet_canonical (h : s.canonical) (m a c) : (memSet m a c s).canonical :=
  canonical_of_memsWf h rfl (memSet_wf m a c s)

@[simp ↓] theorem memClear_canonical (h : s.canonical) (m) : (memClear m s).canonical :=
  canonical_of_memsWf h rfl (memClear_wf m s)

@[simp ↓] theorem memClearRange_canonical (h : s.canonical) (m a n) : (memClearRange m a n s).canonical :=
  canonical_of_memsWf h rfl (memClearRange_wf m a n s)

@[simp ↓] theorem setLineCrc_canonical (b line c) :
    (setLineCrc b line c s).canonical = s.canonical := canonical_congr rfl rfl

@[simp ↓] theorem memPut_canonical (h : s.canonical) (m a w) : (memPut m a w s).canonical := by
  unfold memPut
  cases lineBank s m <;> simp [h]

@[simp ↓] theorem memPuts_canonical (h : s.canonical) (m a ws) : (memPuts m a ws s).canonical :=
  List.foldlRecOn (motive := fun t : State => t.canonical = true) _ _ h fun _ ht _ _ => memPut_canonical ht ..

/-! ### Signatures -/

@[simp ↓] theorem devSign_canonical (msg) : (devSign msg s).2.canonical = s.canonical := canonical_congr rfl rfl

/-! ### The configuration hash -/

@[simp ↓] theorem wdStop_canonical : (wdStop s).canonical = s.canonical := canonical_congr rfl rfl

/-! ### The recorder -/

theorem RecStep.canonical {t : State} (k : RecStep s t) (h : s.canonical) : t.canonical :=
  canonical_of_memsWf h (by rw [k.1]) k.2.1

@[simp ↓] theorem segOpen_canonical (h : s.canonical) (first last) : (segOpen first last s).canonical :=
  ((RecStep.refl s).segOpen ..).canonical h

@[simp ↓] theorem hashHead_canonical (h : s.canonical) : (hashHead s).canonical :=
  ((RecStep.refl s).hashHead).canonical h

@[simp ↓] theorem hashBefore_canonical (h : s.canonical) (slot n) : (hashBefore slot n s).canonical :=
  (RecStep.hashBefore slot n (.refl s)).canonical h

@[simp ↓] theorem autoKick_canonical (h : s.canonical) : (autoKick s).canonical :=
  ((RecStep.refl s).autoKick).canonical h

@[simp ↓] theorem segClose_canonical (h : s.canonical) (code last) : (segClose code last s).canonical :=
  ((RecStep.refl s).segClose ..).canonical h

@[simp ↓] theorem recHeld_canonical (h : s.canonical) : (recHeld s).canonical :=
  ((RecStep.refl s).recHeld).canonical h

@[simp ↓] theorem segNext_canonical (h : s.canonical) : (segNext s).canonical :=
  ((RecStep.refl s).segNext).canonical h

@[simp ↓] theorem slotFreed_canonical (h : s.canonical) (slot) : (slotFreed slot s).canonical :=
  ((RecStep.refl s).slotFreed ..).canonical h

@[simp ↓] theorem sessionEnding_canonical (h : s.canonical) (code) : (sessionEnding code s).canonical :=
  ((RecStep.refl s).sessionEnding ..).canonical h

@[simp ↓] theorem segRoll_canonical (h : s.canonical) (code) : (segRoll code s).canonical :=
  ((RecStep.refl s).segRoll ..).canonical h

@[simp ↓] theorem recOffer_canonical (h : s.canonical) (type arg stamp ws) : (recOffer type arg stamp ws s).canonical :=
  ((RecStep.refl s).recOffer ..).canonical h

@[simp ↓] theorem recNow_canonical (h : s.canonical) (type arg ws) : (recNow type arg ws s).canonical :=
  ((RecStep.refl s).recNow ..).canonical h

@[simp ↓] theorem recState_canonical (h : s.canonical) : (recState s).canonical :=
  ((RecStep.refl s).recState).canonical h

@[simp ↓] theorem caskFreezeGo_canonical (post) :
    (caskFreezeGo post s).canonical = s.canonical := canonical_congr rfl rfl

@[simp ↓] theorem caskBegin_canonical (h : s.canonical) : (caskBegin s).canonical := by
  simp [caskBegin, h]

@[simp ↓] theorem shadowRoll_canonical (h : s.canonical) (code) : (shadowRoll code s).canonical :=
  ((RecStep.refl s).shadowRoll ..).canonical h

@[simp ↓] theorem recShadow_canonical (h : s.canonical) (type arg stamp ws) :
    (recShadow type arg stamp ws s).canonical :=
  ((RecStep.refl s).recShadow ..).canonical h

/-! ### Replies and deferred commands -/

@[simp ↓] theorem encCells_canonical (m ws) : (encCells m ws s).2.canonical = s.canonical := by
  simp [encCells]

@[simp ↓] theorem queueReply_canonical (p status tag wake ws) :
    (queueReply p status tag wake ws s).canonical = s.canonical := by
  simp [queueReply]

@[simp ↓] theorem admitWaiting_canonical (p) : (admitWaiting p s).canonical = s.canonical := by
  unfold admitWaiting
  split <;> simp

@[simp ↓] theorem completeDeferred_canonical (d status ws) :
    (completeDeferred d status ws s).canonical = s.canonical := by
  simp [completeDeferred]

@[simp ↓] theorem addDeferred_canonical (d) : (addDeferred d s).canonical = s.canonical := canonical_congr rfl rfl

/-! ### Banks and planned actions -/

@[simp ↓] theorem dropActs_canonical (e) : (dropActs e s).canonical = s.canonical := by
  simp [dropActs]

@[simp ↓] theorem panCloseAt_canonical (g p t reason) : (panCloseAt g p t reason s).canonical = s.canonical := by
  simp [panCloseAt]

@[simp ↓] theorem closePans_canonical (g t reason which) : (closePans g t reason which s).canonical = s.canonical := by
  simp [closePans]

@[simp ↓] theorem replayClose_canonical (reason which) : (replayClose reason which s).canonical = s.canonical := by
  simp [replayClose]

@[simp ↓] theorem withdraw_canonical (e) : (withdraw e s).canonical = s.canonical := by
  simp [withdraw]

@[simp ↓] theorem setBank_canonical (b st) : (setBank b st s).canonical = s.canonical := canonical_congr rfl rfl
@[simp ↓] theorem stopWalk_canonical : (stopWalk s).canonical = s.canonical := canonical_congr rfl rfl

@[simp ↓] theorem parkActive_canonical : (parkActive s).canonical = s.canonical := by
  unfold parkActive
  split <;> simp

@[simp ↓] theorem haltBanks_canonical : (haltBanks s).canonical = s.canonical := by
  simp [haltBanks]

@[simp ↓] theorem syncWait_canonical : (syncWait s).canonical = s.canonical := canonical_congr rfl rfl

@[simp ↓] theorem raiseTrk_canonical (n) : (raiseTrk n s).canonical = s.canonical := by
  simp [raiseTrk]

@[simp ↓] theorem trkValid_canonical (was) : (trkValid was s).canonical = s.canonical := by
  simp [trkValid]

@[simp ↓] theorem trkLeave_canonical (fell stopped) : (trkLeave fell stopped s).canonical = s.canonical := by
  simp [trkLeave]

@[simp ↓] theorem trkShadow_canonical (h : s.canonical) : (trkShadow s).canonical := by
  simp [trkShadow, h]

@[simp ↓] theorem trkEnter_canonical (h : s.canonical) (st posHeld) : (trkEnter st posHeld s).canonical := by
  simp [trkEnter, h]

@[simp ↓] theorem estReset_canonical : (estReset s).canonical = s.canonical := canonical_congr rfl rfl

@[simp ↓] theorem trkRestart_canonical (h : s.canonical) : (trkRestart s).canonical := by
  simp [trkRestart, h]

/-! ### Device states -/

@[simp ↓] theorem sendConf_canonical (g m) : (sendConf g m s).canonical = s.canonical := by
  simp [sendConf]

@[simp ↓] theorem putReg_canonical (h : s.canonical) (r w) : (putReg r w s).canonical := by
  simp [putReg, h]

@[simp ↓] theorem sendAllConf_canonical (g) : (sendAllConf g s).canonical = s.canonical := by
  simp [sendAllConf]

@[simp ↓] theorem bundleApply_canonical (h : s.canonical) (b) : (bundleApply b s).canonical := by
  unfold bundleApply
  refine canonical_ite_imp ?_ trkRestart_canonical
  rw [modSec_canonical]
  refine foldSt_canonical h fun r t ht => ?_
  split <;> simp [ht]

@[simp ↓] theorem sendSafe_canonical (g) : (sendSafe g s).canonical = s.canonical := by
  simp [sendSafe]

@[simp ↓] theorem sendSafe3_canonical : (sendSafe3 s).canonical = s.canonical := by
  simp [sendSafe3]

@[simp ↓] theorem leaveRun_canonical : (leaveRun s).canonical = s.canonical := by
  simp [leaveRun]

@[simp ↓] theorem closeSession_canonical (last) : (closeSession last s).canonical = s.canonical := by
  unfold closeSession
  split <;> simp

@[simp ↓] theorem injCancel_canonical : (injCancel s).canonical = s.canonical := by
  unfold injCancel
  split <;> simp

@[simp ↓] theorem replayRelease_canonical (h : s.canonical) : (replayRelease s).canonical := by
  simp [replayRelease, h]

@[simp ↓] theorem dropJob_canonical (h : s.canonical) (op) : (dropJob op s).canonical := by
  simp [dropJob, h]

@[simp ↓] theorem dropSecJob_canonical (d) : (dropSecJob d s).canonical = s.canonical := by
  simp [dropSecJob]

@[simp ↓] theorem completeAll_canonical (h : s.canonical) (status which) : (completeAll status which s).canonical :=
  foldSt_canonical h fun _ _ ht => by simp [ht]

@[simp ↓] theorem changeState_canonical (h : s.canonical) (new) : (changeState new s).canonical := by
  unfold changeState
  extract_lets old s1 s2 s3 s4 s5 s6 wait s7 s8
  have h1 : s1.canonical := by simp [s1, h]
  have h2 : s2.canonical := by simp [s2, h1]
  have h3 : s3.canonical := by simp [s3, h2]
  have h4 : s4.canonical := by simp [s4, h3]
  have h5 : s5.canonical := by simp [s5, h4]
  have h6 : s6.canonical := by simp [s6, h5]
  have h7 : s7.canonical := by simp [s7, h6]
  have h8 : s8.canonical := by
    unfold s8
    split <;> simp [h7]
  simp [h, h8]

@[simp ↓] theorem enterLockdown_canonical (h : s.canonical) : (enterLockdown s).canonical := by
  unfold enterLockdown
  extract_lets s1 s2 s3 s4 s5
  have h1 : s1.canonical := by simp [s1, h]
  have h2 : s2.canonical := by simp [s2, h1]
  have h3 : s3.canonical := by simp [s3, h2]
  have h4 : s4.canonical := by simp [s4, h3]
  have h5 : s5.canonical := by simp [s5, h4]
  simp [h, h5]

/-! ### The fault collector -/

@[simp ↓] theorem setFltCnt_canonical (d c x) : (setFltCnt d c x s).canonical = s.canonical := canonical_congr rfl rfl

@[simp ↓] theorem logAdd_canonical (d c cls promoted unit) :
    (logAdd d c cls promoted unit s).canonical = s.canonical := by
  simp [logAdd]

@[simp ↓] theorem recFault_canonical (h : s.canonical) (d c cls promoted unit) :
    (recFault d c cls promoted unit s).canonical := by
  simp [recFault, h]

@[simp ↓] theorem startReset_canonical (cause fatal) : (startReset cause fatal s).canonical = s.canonical := by
  simp [startReset]

@[simp ↓] theorem writeFrec_canonical (d c unit esc pc pu) :
    (writeFrec d c unit esc pc pu s).canonical = s.canonical := by
  simp [writeFrec]

@[simp ↓] theorem holdFault_canonical (d c unit promoted) :
    (holdFault d c unit promoted s).canonical = s.canonical := by
  unfold holdFault
  split <;> simp

@[simp ↓] theorem fatal_canonical (h : s.canonical) (d c unit esc pc pu) : (fatal d c unit esc pc pu s).canonical := by
  simp [fatal, h]

@[simp ↓] theorem freezeOnFault_canonical : (freezeOnFault s).canonical = s.canonical := by
  simp [freezeOnFault]

@[simp ↓] theorem securityEvent_canonical (h : s.canonical) (d c cls) : (securityEvent d c cls s).canonical := by
  simp [securityEvent, h]

@[simp ↓] theorem contain_canonical (h : s.canonical) (d c unit promoted) :
    (contain d c unit promoted s).canonical := by
  unfold contain
  split <;> simp [h]

@[simp ↓] theorem countCorrected_canonical (d c) : (countCorrected d c s).canonical = s.canonical := by
  simp [countCorrected]

@[simp ↓] theorem report_canonical (h : s.canonical) (d c unit) : (report d c unit s).canonical := by
  unfold report
  split
  · exact h
  · extract_lets s1 s2 s3 s4 s5
    have h1 : s1.canonical := by simp [s1, h]
    have h2 : s2.canonical := by simp [s2, h1]
    have h3 : s3.canonical := by simp [s3, h2]
    have h4 : s4.canonical := by simp [s4, h3]
    have h5 : s5.canonical := by simp [s5, h4]
    simp [h5]
  · simp [h]
  · simp [h]

@[simp ↓] theorem fatalInBoot_canonical (d c unit) : (fatalInBoot d c unit s).canonical = s.canonical := by
  simp [fatalInBoot]

@[simp ↓] theorem injApplied_canonical : (injApplied s).canonical = s.canonical := by
  unfold injApplied
  split <;> simp

@[simp ↓] theorem injGiven_canonical : (injGiven s).canonical = s.canonical := canonical_congr rfl rfl

@[simp ↓] theorem injCame_canonical (d c) : (injCame d c s).canonical = s.canonical := by
  unfold injCame
  split <;> simp

theorem injReport_canonical (h : s.canonical) {f : State → State} (hf : ∀ t : State, t.canonical → (f t).canonical) (d c) :
    (injReport d c f s).canonical := by
  unfold injReport
  split <;> simp [hf s h]

/-! ### Memory reads and lines -/

@[simp ↓] theorem modCnt_canonical (m f) : (modCnt m f s).canonical = s.canonical := canonical_congr rfl rfl

@[simp ↓] theorem noteCorrected_canonical (h : s.canonical) (m a) : (noteCorrected m a s).canonical := by
  simp [noteCorrected, h]

@[simp ↓] theorem bankSpoiled_canonical (b) : (bankSpoiled b s).canonical = s.canonical := by
  unfold bankSpoiled
  split <;> simp

@[simp ↓] theorem badReaction_canonical (h : s.canonical) (who m a) : (badReaction who m a s).canonical := by
  unfold badReaction
  repeat' split
  all_goals simp [h]

@[simp ↓] theorem noteBad_canonical (h : s.canonical) (who m a) : (noteBad who m a s).canonical := by
  simp [noteBad, h]

@[simp ↓] theorem noteLine_canonical (h : s.canonical) (b line) : (noteLine b line s).canonical := by
  unfold noteLine
  repeat' split
  all_goals simp [h]

@[simp ↓] theorem memRead_canonical (h : s.canonical) (who m a) : (memRead who m a s).2.canonical := by
  unfold memRead
  dsimp only
  repeat' split
  all_goals simp [h]

@[simp ↓] theorem memReads_canonical (h : s.canonical) (who m a n) : (memReads who m a n s).2.canonical :=
  foldl_snd_canonical h fun _ _ hp => memRead_canonical hp ..

@[simp ↓] theorem cellsRead_canonical (h : s.canonical) (m cs) : (cellsRead m cs s).2.canonical := by
  refine foldl_snd_canonical h fun p c hp => ?_
  split <;> simp [hp]

/-! ### Channel slices -/

@[simp ↓] theorem addReport_canonical (g r) : (addReport g r s).canonical = s.canonical := canonical_congr rfl rfl
@[simp ↓] theorem digEvt_canonical (n b) : (digEvt n b s).canonical = s.canonical := canonical_congr rfl rfl
@[simp ↓] theorem anaEvt_canonical (n b) : (anaEvt n b s).canonical = s.canonical := canonical_congr rfl rfl

@[simp ↓] theorem switchOn_canonical (n inrush) : (switchOn n inrush s).canonical = s.canonical := by
  simp [switchOn]

@[simp ↓] theorem switchOff_canonical (n) : (switchOff n s).canonical = s.canonical := by
  simp [switchOff]

@[simp ↓] theorem switchGap_canonical (n) : (switchGap n s).canonical = s.canonical := by
  simp [switchGap]

@[simp ↓] theorem tripSwitch_canonical (n) : (tripSwitch n s).canonical = s.canonical := by
  simp [tripSwitch]

@[simp ↓] theorem doCmd_canonical (n on) : (doCmd n on s).canonical = s.canonical := by
  simp [doCmd]

@[simp ↓] theorem pwmPhase_canonical (n) : (pwmPhase n s).canonical = s.canonical := by
  simp [pwmPhase]

@[simp ↓] theorem pwmStart_canonical (n) : (pwmStart n s).canonical = s.canonical := by
  simp [pwmStart]

@[simp ↓] theorem pwmCmd_canonical (n on shift) : (pwmCmd n on shift s).canonical = s.canonical := by
  simp [pwmCmd]

@[simp ↓] theorem reStart_canonical (n retry) : (reStart n retry s).canonical = s.canonical := by
  simp [reStart]

@[simp ↓] theorem pauseOver_canonical (n) : (pauseOver n s).canonical = s.canonical := by
  simp [pauseOver]

@[simp ↓] theorem clrLatch_canonical (n) : (clrLatch n s).canonical = s.canonical := by
  simp [clrLatch]

@[simp ↓] theorem setCode_canonical (n c) : (setCode n c s).canonical = s.canonical := canonical_congr rfl rfl

@[simp ↓] theorem outputOff_canonical (n) : (outputOff n s).canonical = s.canonical := by
  simp [outputOff]

@[simp ↓] theorem endPulses_canonical (n) : (endPulses n s).canonical = s.canonical := by
  simp [endPulses]

@[simp ↓] theorem safeChan_canonical (n) : (safeChan n s).canonical = s.canonical := by
  simp [safeChan]

@[simp ↓] theorem endSafe_canonical (n) : (endSafe n s).canonical = s.canonical := canonical_congr rfl rfl
@[simp ↓] theorem clearAnalog_canonical (n) : (clearAnalog n s).canonical = s.canonical := canonical_congr rfl rfl

@[simp ↓] theorem modeChanged_canonical (n) : (modeChanged n s).canonical = s.canonical := by
  simp [modeChanged]

/-! ### Digital channels -/

@[simp ↓] theorem onDie_canonical (g b f) :
    nextCanonical (onDie g b f s) = if (fdie s g).powered && b then (f s).canonical else s.canonical := canonical_ite

@[simp ↓] theorem onSlice_canonical (n b f) :
    nextCanonical (onSlice n b f s) =
      if (fdie s (chanGrp n)).powered && b then (f s).canonical else s.canonical := canonical_ite

@[simp ↓] theorem freqEdge_canonical (n) : (freqEdge n s).canonical = s.canonical := by
  unfold freqEdge
  dsimp only
  repeat' split
  all_goals simp

@[simp ↓] theorem diEdge_canonical (n level) : (diEdge n level s).canonical = s.canonical := by
  simp [diEdge]

@[simp ↓] theorem execDiEdge_canonical (h : s.canonical) (n level) : nextCanonical (execDiEdge n level s) := by
  simp [execDiEdge, h]

@[simp ↓] theorem execRawDiTransition_canonical (h : s.canonical) (n level) :
    nextCanonical (execRawDiTransition n level s) := by
  simp [execRawDiTransition, h]

@[simp ↓] theorem execFreqTimeout_canonical (h : s.canonical) (n) : nextCanonical (execFreqTimeout n s) := by
  unfold execFreqTimeout
  split <;> simp [h]

@[simp ↓] theorem diagFound_canonical (n c) : (diagFound n c s).canonical = s.canonical := by
  unfold diagFound
  split <;> simp

@[simp ↓] theorem diagGiven_canonical (c held) : (diagGiven c held s).canonical = s.canonical := by
  simp [diagGiven]

@[simp ↓] theorem execDiagTimer_canonical (h : s.canonical) (n c present) :
    nextCanonical (execDiagTimer n c present s) := by
  simp [execDiagTimer, h]

@[simp ↓] theorem execDiagThresholdSwap_canonical (h : s.canonical) (n) :
    nextCanonical (execDiagThresholdSwap n s) := by
  simp [execDiagThresholdSwap, h]

@[simp ↓] theorem execLimitTimerTrip_canonical (h : s.canonical) (n) : nextCanonical (execLimitTimerTrip n s) := by
  simp [execLimitTimerTrip, h]

@[simp ↓] theorem takeCurrents_canonical (g mA) : (takeCurrents g mA s).canonical = s.canonical := by
  simp [takeCurrents]

@[simp ↓] theorem guardStep_canonical (g mA) : (guardStep g mA s).canonical = s.canonical := by
  unfold guardStep
  dsimp only
  repeat' split
  all_goals simp

@[simp ↓] theorem execGuardStep_canonical (h : s.canonical) (g mA) : nextCanonical (execGuardStep g mA s) := by
  simp [execGuardStep, h]

@[simp ↓] theorem thermSet_canonical (n) : (thermSet n s).canonical = s.canonical := by
  simp [thermSet]

@[simp ↓] theorem execThermalLatchSet_canonical (h : s.canonical) (n) : nextCanonical (execThermalLatchSet n s) := by
  simp [execThermalLatchSet, h]

@[simp ↓] theorem thermClear_canonical (n) : (thermClear n s).canonical = s.canonical := by
  unfold thermClear
  dsimp only
  split <;> simp

@[simp ↓] theorem execThermalLatchClear_canonical (h : s.canonical) (n) :
    nextCanonical (execThermalLatchClear n s) := by
  simp [execThermalLatchClear, h]

@[simp ↓] theorem execRetryPauseEnd_canonical (h : s.canonical) (n) : nextCanonical (execRetryPauseEnd n s) := by
  unfold execRetryPauseEnd
  split <;> simp [h]

@[simp ↓] theorem execRetryCountReset_canonical (h : s.canonical) (n) : nextCanonical (execRetryCountReset n s) := by
  simp [execRetryCountReset, h]

@[simp ↓] theorem execInrushWindowEnd_canonical (h : s.canonical) (n) : nextCanonical (execInrushWindowEnd n s) := by
  unfold execInrushWindowEnd
  split <;> simp [h]

@[simp ↓] theorem pwmNext_canonical (n) : (pwmNext n s).canonical = s.canonical := by
  simp [pwmNext]

@[simp ↓] theorem execPwmEdge_canonical (h : s.canonical) (n) : nextCanonical (execPwmEdge n s) := by
  simp [execPwmEdge, h]

@[simp ↓] theorem execPwmHitEnd_canonical (h : s.canonical) (n) : nextCanonical (execPwmHitEnd n s) := by
  unfold execPwmHitEnd
  split <;> simp [h]

@[simp ↓] theorem execSafeHoldEnd_canonical (h : s.canonical) (n) : nextCanonical (execSafeHoldEnd n s) := by
  unfold execSafeHoldEnd
  split <;> simp [h]

/-! ### Analog channels -/

@[simp ↓] theorem execMonitorStep_canonical (h : s.canonical) (n imon vpin) :
    nextCanonical (execMonitorStep n imon vpin s) := by
  simp [execMonitorStep, h]

@[simp ↓] theorem execAnalogDiagTimer_canonical (h : s.canonical) (n c present) :
    nextCanonical (execAnalogDiagTimer n c present s) := by
  simp [execAnalogDiagTimer, h]

@[simp ↓] theorem execComplianceTimer_canonical (h : s.canonical) (n saturated) :
    nextCanonical (execComplianceTimer n saturated s) := by
  simp [execComplianceTimer, h]

@[simp ↓] theorem headroomStep_canonical (g vfg drive) : (headroomStep g vfg drive s).canonical = s.canonical := by
  simp [headroomStep]

@[simp ↓] theorem execHeadroomStep_canonical (h : s.canonical) (g vfg drive) :
    nextCanonical (execHeadroomStep g vfg drive s) := by
  simp [execHeadroomStep, h]

@[simp ↓] theorem execHrErrTimer_canonical (h : s.canonical) (g away) : nextCanonical (execHrErrTimer g away s) := by
  simp [execHrErrTimer, h]

/-! ### Field dies -/

@[simp ↓] theorem dieWrite_canonical (g pairs) : (dieWrite g pairs s).canonical = s.canonical := by
  unfold dieWrite
  split <;> simp

@[simp ↓] theorem hostAct_canonical (n op normal) : (hostAct n op normal s).canonical = s.canonical := by
  unfold hostAct
  split <;> simp

@[simp ↓] theorem dieConf_canonical (g normal m) : (dieConf g normal m s).canonical = s.canonical := by
  unfold dieConf
  split <;> simp

@[simp ↓] theorem dieStaged_canonical (g) : (dieStaged g s).canonical = s.canonical := by
  simp [dieStaged]

@[simp ↓] theorem addTrigs_canonical (g ls stamp src) : (addTrigs g ls stamp src s).canonical = s.canonical := by
  simp [addTrigs]

@[simp ↓] theorem addExpect_canonical (g ls stamp src) : (addExpect g ls stamp src s).canonical = s.canonical := by
  simp [addExpect]

@[simp ↓] theorem trigger_canonical (g ls stamp src) : (trigger g ls stamp src s).canonical = s.canonical := by
  simp [trigger]

@[simp ↓] theorem trellisSets_canonical (n timeBank) : (trellisSets n timeBank s).canonical = s.canonical := by
  simp [trellisSets]

@[simp ↓] theorem diLatch_canonical (n stamp) : (diLatch n stamp s).canonical = s.canonical := by
  simp [diLatch]

@[simp ↓] theorem actOne_canonical (m n) : (actOne m n s).canonical = s.canonical := by
  unfold actOne
  repeat' split
  all_goals simp

@[simp ↓] theorem pulseEnd_canonical (g m) : (pulseEnd g m s).canonical = s.canonical := by
  simp [pulseEnd]

@[simp ↓] theorem freeSlot_canonical (g m) : (freeSlot g m s).canonical = s.canonical := canonical_congr rfl rfl

@[simp ↓] theorem execAct_canonical (g m) : (execAct g m s).canonical = s.canonical := by
  simp [execAct]

@[simp ↓] theorem dropLate_canonical (g m) : (dropLate g m s).canonical = s.canonical := by
  simp [dropLate]

@[simp ↓] theorem judgeLate_canonical (g m) : (judgeLate g m s).canonical = s.canonical := by
  simp [judgeLate]

@[simp ↓] theorem placeFirst_canonical (g m) : (placeFirst g m s).canonical = s.canonical := by
  simp [placeFirst]

@[simp ↓] theorem refine_canonical (g m) : (refine g m s).canonical = s.canonical := by
  simp [refine]

@[simp ↓] theorem dieSched_canonical (g m) : (dieSched g m s).canonical = s.canonical := by
  simp [dieSched]

@[simp ↓] theorem trellisOff_canonical (n) : (trellisOff n s).canonical = s.canonical := by
  simp [trellisOff]

@[simp ↓] theorem dieDiscard_canonical (g e) : (dieDiscard g e s).canonical = s.canonical := by
  simp [dieDiscard]

@[simp ↓] theorem dieWithdraw_canonical (g e) : (dieWithdraw g e s).canonical = s.canonical := by
  refine (foldSt_canonical_eq fun n t => ?_).trans (dieDiscard_canonical g e)
  split <;> simp

@[simp ↓] theorem dieSafe_canonical (g) : (dieSafe g s).canonical = s.canonical := by
  simp [dieSafe]

@[simp ↓] theorem dieLost_canonical (g) : (dieLost g s).canonical = s.canonical := by
  simp [dieLost]

@[simp ↓] theorem runDue_canonical (g t) : (runDue g t s).canonical = s.canonical := by
  simp [runDue]

@[simp ↓] theorem execActionExecute_canonical (h : s.canonical) (g) : nextCanonical (execActionExecute g s) := by
  unfold execActionExecute
  split <;> simp [h]

/-! ### Sampling and pans -/

@[simp ↓] theorem convert_canonical (n t x pinOut) : (convert n t x pinOut s).canonical = s.canonical := by
  simp [convert]

@[simp ↓] theorem serveTrig_canonical (n t x pinOut) : (serveTrig n t x pinOut s).canonical = s.canonical := by
  unfold serveTrig
  dsimp only
  repeat' split
  all_goals simp

@[simp ↓] theorem execConversion_canonical (h : s.canonical) (n x pinOut) :
    nextCanonical (execConversion n x pinOut s) := by
  unfold execConversion
  split <;> simp [h]

@[simp ↓] theorem execSampleTimerInstant_canonical (h : s.canonical) : nextCanonical (execSampleTimerInstant s) := by
  simp [execSampleTimerInstant, h]

@[simp ↓] theorem smpFire_canonical : (smpFire s).canonical = s.canonical := by
  simp [smpFire]

@[simp ↓] theorem writeBlock_canonical (h : s.canonical) (g p l) : (writeBlock g p l s).canonical := by
  simp [writeBlock, h]

@[simp ↓] theorem flushBlocks_canonical (h : s.canonical) (g p n) : (flushBlocks g p n s).canonical := by
  induction n generalizing s with
  | zero => exact h
  | succ n ih =>
    unfold flushBlocks
    dsimp only
    split
    · exact h
    · exact ih (by simp [h])

@[simp ↓] theorem panSet_canonical (h : s.canonical) (g p stamp l) : (panSet g p stamp l s).canonical := by
  simp [panSet, h]

@[simp ↓] theorem panTake_canonical (h : s.canonical) (g p stamp l) : (panTake g p stamp l s).canonical := by
  simp [panTake, h]

@[simp ↓] theorem panOffer_canonical (h : s.canonical) (g stamp ex samples p) :
    (panOffer g stamp ex samples p s).canonical := by
  simp [panOffer, h]

@[simp ↓] theorem recAdc_canonical (h : s.canonical) (g stamp ex samples) :
    (recAdc g stamp ex samples s).canonical := by
  simp [recAdc, h]

@[simp ↓] theorem takeLast_canonical (g x) : (takeLast g x s).canonical = s.canonical := canonical_congr rfl rfl

@[simp ↓] theorem resolveStamp_canonical (h : s.canonical) (g samples stamp) :
    (resolveStamp g samples stamp s).canonical := by
  unfold resolveStamp
  dsimp only
  split
  · simp [h]
  · exact foldSt_canonical (by simp [h]) fun p t ht => by simp [ht]

@[simp ↓] theorem resolveBefore_canonical (h : s.canonical) (g limit samples) :
    (resolveBefore g limit samples s).canonical :=
  foldSt_canonical h fun _ _ ht => resolveStamp_canonical ht ..

@[simp ↓] theorem panFinish_canonical (h : s.canonical) (g p) : (panFinish g p s).canonical := by
  unfold panFinish
  extract_lets k
  split
  · exact h
  · extract_lets s1 l s2 rec_ s3 s4 s5
    have h1 : s1.canonical := by simp [s1, h]
    have h2 : s2.canonical := by simp [s2, h1]
    have h3 : s3.canonical := by simp [s3, h2]
    have h5 : s5.canonical := by simp [s5, s4, h3]
    simp [h5]

@[simp ↓] theorem countSkip_canonical (g) : (countSkip g s).canonical = s.canonical := canonical_congr rfl rfl
@[simp ↓] theorem countOver_canonical (g) : (countOver g s).canonical = s.canonical := canonical_congr rfl rfl

@[simp ↓] theorem panStart_canonical (h : s.canonical) (g p v) : (panStart g p v s).canonical := by
  simp [panStart, h]

@[simp ↓] theorem panOpenAct_canonical (h : s.canonical) (g v) : (panOpenAct g v s).canonical := by
  simp [panOpenAct, h]

@[simp ↓] theorem panCloseAct_canonical (g v) : (panCloseAct g v s).canonical = s.canonical := by
  simp [panCloseAct]

@[simp ↓] theorem dropEv_canonical (v) : (dropEv v s).canonical = s.canonical := canonical_congr rfl rfl

@[simp ↓] theorem execPanOpen_canonical (h : s.canonical) (g p) : nextCanonical (execPanOpen g p s) := by
  unfold execPanOpen
  split <;> simp [h]

@[simp ↓] theorem execPanClose_canonical (h : s.canonical) (g p) : nextCanonical (execPanClose g p s) := by
  unfold execPanClose
  split <;> simp [h]

@[simp ↓] theorem execPanClosed_canonical (h : s.canonical) (g p) : nextCanonical (execPanClosed g p s) := by
  unfold execPanClosed
  split <;> simp [h]

@[simp ↓] theorem panWithdraw_canonical (g e) : (panWithdraw g e s).canonical = s.canonical := by
  simp [panWithdraw]

@[simp ↓] theorem panSafe_canonical (g) : (panSafe g s).canonical = s.canonical := by
  simp [panSafe]

@[simp ↓] theorem panCmdEv_canonical (opens g p) : (panCmdEv opens g p s).canonical = s.canonical := by
  simp [panCmdEv]

@[simp ↓] theorem panRelease_canonical (g p) : (panRelease g p s).canonical = s.canonical := by
  simp [panRelease]

/-! ### The sequencer -/

@[simp ↓] theorem countLate_canonical (h : s.canonical) (unit dropped) : (countLate unit dropped s).canonical := by
  simp [countLate, h]

@[simp ↓] theorem place_canonical (h : s.canonical) (b e cyc w0 w1 w2) : (place b e cyc w0 w1 w2 s).canonical := by
  simp [place, h]

@[simp ↓] theorem startWalk_canonical (b cyc) : (startWalk b cyc s).canonical = s.canonical := by
  simp [startWalk]

@[simp ↓] theorem takeEntry_canonical (h : s.canonical) (b) : (takeEntry b s).canonical := by
  unfold takeEntry
  dsimp only
  repeat' split
  all_goals simp [h]

@[simp ↓] theorem finishWalk_canonical (h : s.canonical) (b n) : (finishWalk b n s).canonical := by
  induction n generalizing s with
  | zero => exact h
  | succ n ih =>
    unfold finishWalk
    split
    · exact h
    · exact ih (takeEntry_canonical h b)

@[simp ↓] theorem reachTb_canonical (t) : (reachTb t s).canonical = s.canonical := canonical_congr rfl rfl

@[simp ↓] theorem execLookaheadEntry_canonical (h : s.canonical) : nextCanonical (execLookaheadEntry s) := by
  unfold execLookaheadEntry
  repeat' split
  all_goals simp [h]

@[simp ↓] theorem takeBank_canonical (b) : (takeBank b s).canonical = s.canonical := by
  simp [takeBank]

@[simp ↓] theorem decide_canonical (h : s.canonical) : (decide_ s).canonical := by
  unfold decide_
  extract_lets s1 cyc s2
  have h1 : s1.canonical := by
    unfold s1
    split <;> simp [h]
  have h2 : s2.canonical := by
    unfold s2
    repeat' split
    all_goals simp [h1]
  simp [h2]

@[simp ↓] theorem execBankDecision_canonical (h : s.canonical) : nextCanonical (execBankDecision s) := by
  simp [execBankDecision, h]

@[simp ↓] theorem stopOwned_canonical : (stopOwned s).canonical = s.canonical := by
  simp [stopOwned]

@[simp ↓] theorem markBoundary_canonical (h : s.canonical) : (markBoundary s).canonical := by
  unfold markBoundary
  extract_lets s1 s2 stop s3 s4
  have h1 : s1.canonical := by simp [s1, h]
  have h3 : s3.canonical := by simp [s3, s2, h1]
  have h4 : s4.canonical := by
    unfold s4
    repeat' split
    all_goals simp [h3]
  simp [h4]

@[simp ↓] theorem execCycleBoundary_canonical (h : s.canonical) : nextCanonical (execCycleBoundary s) := by
  simp [execCycleBoundary, h]

@[simp ↓] theorem timePeriod_canonical (h : s.canonical) (b start) : (timePeriod b start s).canonical := by
  unfold timePeriod
  extract_lets s1 s2 s3
  have h1 : s1.canonical := by simp [s1, h]
  have h2 : s2.canonical := by
    unfold s2
    split <;> simp [h1]
  simp [s3, h2]

@[simp ↓] theorem periodNext_canonical (h : s.canonical) (b) : (periodNext b s).canonical := by
  simp [periodNext, h]

@[simp ↓] theorem execTimeBankPeriod_canonical (h : s.canonical) : nextCanonical (execTimeBankPeriod s) := by
  unfold execTimeBankPeriod
  dsimp only
  repeat' split
  all_goals simp [h]

@[simp ↓] theorem queueRefine_canonical (a) : (queueRefine a s).canonical = s.canonical := by
  simp [queueRefine]

@[simp ↓] theorem setAct_canonical (a) : (setAct a s).canonical = s.canonical := by
  simp [setAct]

@[simp ↓] theorem refineAll_canonical : (refineAll s).canonical = s.canonical := by
  simp [refineAll]

@[simp ↓] theorem reapActs_canonical : (reapActs s).canonical = s.canonical := canonical_congr rfl rfl

@[simp ↓] theorem panEvents_canonical (a) : (panEvents a s).canonical = s.canonical := by
  simp [panEvents]

@[simp ↓] theorem shadowAct_canonical (h : s.canonical) (a skew) : (shadowAct a skew s).canonical := by
  simp [shadowAct, h]

@[simp ↓] theorem commitAct_canonical (h : s.canonical) (a) : (commitAct a s).canonical := by
  simp [commitAct, h]

@[simp ↓] theorem execCommitHorizon_canonical (h : s.canonical) : nextCanonical (execCommitHorizon s) := by
  unfold execCommitHorizon
  split <;> simp [h]

@[simp ↓] theorem judgeSkew_canonical (h : s.canonical) (a) : (judgeSkew a s).canonical := by
  simp [judgeSkew, h]

@[simp ↓] theorem execSkewCheck_canonical (h : s.canonical) : nextCanonical (execSkewCheck s) := by
  unfold execSkewCheck
  split <;> simp [h]

@[simp ↓] theorem markAct_canonical (a) : (markAct a s).canonical = s.canonical := by
  simp [markAct]

@[simp ↓] theorem execMarkExecute_canonical (h : s.canonical) : nextCanonical (execMarkExecute s) := by
  unfold execMarkExecute
  split <;> simp [h]

/-! ### The tracker -/

@[simp ↓] theorem judgeSpeed_canonical : (judgeSpeed s).canonical = s.canonical := by
  simp [judgeSpeed]

@[simp ↓] theorem judgeRow_canonical : (judgeRow s).canonical = s.canonical := by
  unfold judgeRow
  simp

@[simp ↓] theorem estUpdate_canonical (t d) : (estUpdate t d s).canonical = s.canonical := by
  simp [estUpdate]

@[simp ↓] theorem estEdge_canonical (t u d) : (estEdge t u d s).canonical = s.canonical := by
  simp [estEdge]

@[simp ↓] theorem estRebuild_canonical (t u) : (estRebuild t u s).canonical = s.canonical := by
  simp [estRebuild]

@[simp ↓] theorem learn_canonical (h : s.canonical) (k e) : (learn k e s).canonical := by
  simp [learn, h]

@[simp ↓] theorem lose_canonical (h : s.canonical) (cause) : (lose cause s).canonical := by
  simp [lose, h]

@[simp ↓] theorem turn_canonical : (turn s).canonical = s.canonical := by
  simp [turn]

@[simp ↓] theorem reseek_canonical (h : s.canonical) : (reseek s).canonical := by
  simp [reseek, h]

@[simp ↓] theorem setCamFail_canonical (h : s.canonical) : (setCamFail s).canonical := by
  simp [setCamFail, h]

@[simp ↓] theorem countKnown_canonical (h : s.canonical) (t k) : (countKnown t k s).canonical := by
  simp [countKnown, h]

@[simp ↓] theorem withEst_canonical (old) : (seekEdge.withEst old s).canonical = s.canonical := canonical_congr rfl rfl

@[simp ↓] theorem seekEdge_canonical (h : s.canonical) (t) : (seekEdge t s).canonical := by
  unfold seekEdge
  extract_lets close i g p m s1 gap byIndex adv old s2
  have h2 : s2.canonical := by simp [s2, s1, h]
  simp [h2]

@[simp ↓] theorem catchUp_canonical (h : s.canonical) (n) : (catchUp n s).canonical := by
  induction n generalizing s with
  | zero => exact h
  | succ n ih =>
    unfold catchUp
    split
    · exact ih (markBoundary_canonical h)
    · exact h

@[simp ↓] theorem showLast_canonical : (showLast s).canonical = s.canonical := canonical_congr rfl rfl
@[simp ↓] theorem shiftRev_canonical : (shiftRev s).canonical = s.canonical := canonical_congr rfl rfl

@[simp ↓] theorem camSample_canonical (h : s.canonical) (b) : (camSample b s).2.canonical := by
  unfold camSample
  repeat' split
  all_goals simp [h]

@[simp ↓] theorem camLevel_canonical (b first0) : (camLevel b first0 s).2.canonical = s.canonical := by
  unfold camLevel
  split <;> simp

@[simp ↓] theorem indexJudge_canonical (h : s.canonical) (k) : (indexJudge k s).2.canonical := by
  simp [indexJudge, h]

@[simp ↓] theorem indexCheck_canonical (h : s.canonical) (k) : (indexCheck k s).2.canonical := by
  simp [indexCheck, h]

@[simp ↓] theorem acceptTooth_canonical (h : s.canonical) (t k r d acrossGap) :
    (acceptTooth t k r d acrossGap s).canonical := by
  unfold acceptTooth
  extract_lets i close wrong u row0 e cross b s1 s2 s3 first0
  have h3 : s3.canonical := by simp [s3, s2, s1, h]
  split
  rename_i lost5 s4 e4
  have h4 := canonical_of_snd e4 (indexCheck_canonical h3 k)
  split
  rename_i b s5 e5
  have h5 : s5.canonical := canonical_of_snd e5 (by simp [h4])
  extract_lets s6 r
  split
  rename_i lost6 s7 e7
  have h7 : s7.canonical := canonical_of_snd e7 (by simp [r, s6, h5])
  simp [h7]

@[simp ↓] theorem extraEdge_canonical (h : s.canonical) (g) : (extraEdge g s).canonical := by
  unfold extraEdge
  split <;> simp [h]

@[simp ↓] theorem syncEdge_canonical (h : s.canonical) (t) : (syncEdge t s).canonical := by
  unfold syncEdge
  dsimp only
  repeat' split
  all_goals simp [h]

@[simp ↓] theorem acceptHeld_canonical (h : s.canonical) (t k r d gap) :
    (holdEdge.acceptHeld t k r d gap s).canonical := by
  simp [holdEdge.acceptHeld, h]

@[simp ↓] theorem holdEdge_canonical (h : s.canonical) (t) : (holdEdge t s).canonical := by
  unfold holdEdge
  dsimp only
  split <;> simp [h]

@[simp ↓] theorem sameTooth_canonical (h : s.canonical) (t) : (edgeA.sameTooth t s).canonical := by
  simp [edgeA.sameTooth, h]

@[simp ↓] theorem edgeA_canonical (h : s.canonical) (t) : (edgeA t s).canonical := by
  unfold edgeA
  extract_lets rot s1 turned st held s2 s3
  have h2 : s2.canonical := by simp [s2, s1, h]
  have h3 : s3.canonical := by simp [s3, h2]
  clear_value st
  split <;> simp [h2, h3]

@[simp ↓] theorem edgeLost_canonical (h : s.canonical) : (edgeLost s).canonical := by
  unfold edgeLost
  split <;> simp [h]

@[simp ↓] theorem meetEdge_canonical (h : s.canonical) (e) : (meetEdge e s).canonical := by
  unfold meetEdge
  repeat' split
  all_goals simp [h]

@[simp ↓] theorem recEdge_canonical (h : s.canonical) (e) : (recEdge e s).canonical := by
  simp [recEdge, h]

@[simp ↓] theorem execAngleEdge_canonical (h : s.canonical) (i level) : nextCanonical (execAngleEdge i level s) := by
  simp [execAngleEdge, h]

@[simp ↓] theorem execEdgeTakeup_canonical (h : s.canonical) : nextCanonical (execEdgeTakeup s) := by
  unfold execEdgeTakeup
  split <;> simp [h]

@[simp ↓] theorem edgeMissed_canonical (h : s.canonical) : (edgeMissed s).canonical := by
  unfold edgeMissed
  dsimp only
  split <;> simp [h]

@[simp ↓] theorem execEdgeMissing_canonical (h : s.canonical) : nextCanonical (execEdgeMissing s) := by
  simp [execEdgeMissing, h]

@[simp ↓] theorem shaftStopped_canonical (h : s.canonical) : (shaftStopped s).canonical := by
  simp [shaftStopped, h]

@[simp ↓] theorem execTrackerStopTimeout_canonical (h : s.canonical) : nextCanonical (execTrackerStopTimeout s) := by
  unfold execTrackerStopTimeout
  split <;> simp [h]

@[simp ↓] theorem trkCmdReseek_canonical (h : s.canonical) : (trkCmdReseek s).canonical := by
  simp [trkCmdReseek, h]

@[simp ↓] theorem trkCmdPhase_canonical (h : s.canonical) (r) : (trkCmdPhase r s).canonical := by
  simp [trkCmdPhase, h]

@[simp ↓] theorem trkCmdClrLearn_canonical (h : s.canonical) : (trkCmdClrLearn s).canonical := by
  unfold trkCmdClrLearn
  rw [modTrk_canonical]
  exact foldSt_canonical h fun _ _ ht => memPut_canonical ht ..

@[simp ↓] theorem trkCmdClrCnt_canonical : (trkCmdClrCnt s).canonical = s.canonical := canonical_congr rfl rfl

/-! ### Field links -/

@[simp ↓] theorem groupEvent_canonical (g b) : (groupEvent g b s).canonical = s.canonical := by
  simp [groupEvent]

@[simp ↓] theorem recLink_canonical (h : s.canonical) (g what) : (recLink g what s).canonical := by
  simp [recLink, h]

@[simp ↓] theorem dropGrpActs_canonical (g) : (dropGrpActs g s).canonical = s.canonical := by
  simp [dropGrpActs]

@[simp ↓] theorem safeNowGrp_canonical (g) : (safeNowGrp g s).canonical = s.canonical := by
  simp [safeNowGrp]

@[simp ↓] theorem relinkGrp_canonical (g) : (relinkGrp g s).canonical = s.canonical := by
  unfold relinkGrp
  split <;> simp

@[simp ↓] theorem grpClrCnt_canonical (g) : (grpClrCnt g s).canonical = s.canonical := canonical_congr rfl rfl

@[simp ↓] theorem grpFail_canonical (g st) : (grpFail g st s).canonical = s.canonical := by
  simp [grpFail]

@[simp ↓] theorem grpUnit_canonical (g n) : (grpUnit g n s).canonical = s.canonical := by
  induction n generalizing s with
  | zero => rfl
  | succ n ih =>
    unfold grpUnit
    repeat' split
    all_goals simp [ih]

@[simp ↓] theorem grpReply_canonical (j) : (grpReply j s).canonical = s.canonical := by
  simp [grpReply]

@[simp ↓] theorem grpRun_canonical (n) : (grpRun n s).canonical = s.canonical := by
  induction n generalizing s with
  | zero => rfl
  | succ n ih =>
    unfold grpRun
    repeat' split
    all_goals simp [ih]

@[simp ↓] theorem grpResume_canonical (g ok) : (grpResume g ok s).canonical = s.canonical := by
  unfold grpResume
  split <;> simp

@[simp ↓] theorem execSafeNowAck_canonical (h : s.canonical) (g) : nextCanonical (execSafeNowAck g s) := by
  unfold execSafeNowAck
  split <;> simp [h]

@[simp ↓] theorem takeSlot_canonical (g id k) : (takeSlot g id k s).canonical = s.canonical := by
  simp [takeSlot]

@[simp ↓] theorem countDeferred_canonical (id) : (countDeferred id s).canonical = s.canonical := by
  simp [countDeferred]

@[simp ↓] theorem pickSched_canonical (g usable n l) : (pickSched g usable n l s).2.canonical = s.canonical := by
  fun_induction pickSched g usable n l s <;> simp +zetaDelta [*]

@[simp ↓] theorem sendDown_canonical (g) : (sendDown g s).canonical = s.canonical := by
  unfold sendDown
  dsimp only
  split <;> simp

@[simp ↓] theorem execDownstreamFrameSend_canonical (h : s.canonical) (g) :
    nextCanonical (execDownstreamFrameSend g s) := by
  simp [execDownstreamFrameSend, h]

@[simp ↓] theorem dieDiscipline_canonical (g phase) : (dieDiscipline g phase s).canonical = s.canonical := by
  simp [dieDiscipline]

@[simp ↓] theorem dieTakes_canonical (g f phase) : (dieTakes g f phase s).canonical = s.canonical := by
  unfold dieTakes
  dsimp only
  split <;> simp

@[simp ↓] theorem dieDiscards_canonical (g f) : (dieDiscards g f s).canonical = s.canonical := by
  simp [dieDiscards]

@[simp ↓] theorem execDownstreamFrameReceive_canonical (h : s.canonical) (g good phase) :
    nextCanonical (execDownstreamFrameReceive g good phase s) := by
  unfold execDownstreamFrameReceive
  split <;> simp [h]

@[simp ↓] theorem sendUp_canonical (g start) : (sendUp g start s).canonical = s.canonical := by
  simp [sendUp]

@[simp ↓] theorem execUpstreamFrameSend_canonical (h : s.canonical) (g) :
    nextCanonical (execUpstreamFrameSend g s) := by
  simp [execUpstreamFrameSend, h]

@[simp ↓] theorem linkClear_canonical (g) : (linkClear g s).canonical = s.canonical := by
  simp [linkClear]

@[simp ↓] theorem countLost_canonical (g n) : (countLost g n s).canonical = s.canonical := canonical_congr rfl rfl

@[simp ↓] theorem cfgJobLost_canonical (g) : (cfgJobLost g s).canonical = s.canonical := by
  simp [cfgJobLost]

@[simp ↓] theorem linkLost_canonical (h : s.canonical) (g cause) : (linkLost g cause s).canonical := by
  unfold linkLost
  extract_lets last n s1 s2 s3 s4 s5
  have h1 : s1.canonical := by simp [s1, h]
  have h2 : s2.canonical := by simp [s2, h1]
  have h3 : s3.canonical := by simp [s3, h2]
  have h4 : s4.canonical := by simp [s4, h3]
  have h5 : s5.canonical := by simp [s5, h4]
  simp [h5]

@[simp ↓] theorem takeReport_canonical (h : s.canonical) (g r) : (takeReport g r s).canonical := by
  unfold takeReport
  repeat' split
  all_goals simp [h]

@[simp ↓] theorem resendFrame_canonical (h : s.canonical) (g f) : (resendFrame g f s).canonical := by
  simp [resendFrame, h]

@[simp ↓] theorem takeAcks_canonical (h : s.canonical) (g f) : (takeAcks g f s).canonical := by
  unfold takeAcks
  exact foldSt_canonical (by simp [h]) fun _ _ ht => resendFrame_canonical ht ..

@[simp ↓] theorem dropEdge_canonical (l) : (dropEdge l s).2.canonical = s.canonical := by
  simp [dropEdge]

@[simp ↓] theorem takeEdges_canonical (l) : (takeEdges l s).canonical = s.canonical := by
  simp [takeEdges]

@[simp ↓] theorem takeUp_canonical (h : s.canonical) (g f) : (takeUp g f s).canonical := by
  unfold takeUp
  extract_lets s1 s2 s3 s4 s5
  have h3 : s3.canonical := by simp [s3, s2, s1, h]
  have h4 : s4.canonical := by
    unfold s4
    split <;> simp [h3]
  have h5 : s5.canonical := foldSt_canonical h4 fun _ _ ht => takeReport_canonical ht ..
  simp [h5]

@[simp ↓] theorem takeBeacon_canonical (h : s.canonical) (g f) : (takeBeacon g f s).canonical := by
  simp [takeBeacon, h]

@[simp ↓] theorem upDiscarded_canonical (h : s.canonical) (g f) : (upDiscarded g f s).canonical := by
  unfold upDiscarded
  extract_lets s1 s2 s3
  have h1 : s1.canonical := by simp [s1, h]
  have h2 : s2.canonical := by simp [s2, h1]
  have h3 : s3.canonical := by simp [s3, h2]
  simp [h3]

@[simp ↓] theorem execUpstreamFrameReceive_canonical (h : s.canonical) (g good) :
    nextCanonical (execUpstreamFrameReceive g good s) := by
  unfold execUpstreamFrameReceive
  split <;> simp [h]

@[simp ↓] theorem execLinkLost_canonical (h : s.canonical) (g) : nextCanonical (execLinkLost g s) := by
  simp [execLinkLost, h]

@[simp ↓] theorem execFieldLinkLost_canonical (h : s.canonical) (g) : nextCanonical (execFieldLinkLost g s) := by
  simp [execFieldLinkLost, h]

@[simp ↓] theorem execGroupBringUp_canonical (h : s.canonical) (g) : nextCanonical (execGroupBringUp g s) := by
  unfold execGroupBringUp
  split <;> simp [h]

@[simp ↓] theorem execLinkUp_canonical (h : s.canonical) (g vintage) : nextCanonical (execLinkUp g vintage s) := by
  unfold execLinkUp
  simp [h]

@[simp ↓] theorem execLinkLockTimeout_canonical (h : s.canonical) (g) : nextCanonical (execLinkLockTimeout g s) := by
  simp [execLinkLockTimeout, h]

@[simp ↓] theorem execSupplyGoodWaitEnd_canonical (h : s.canonical) (g) :
    nextCanonical (execSupplyGoodWaitEnd g s) := by
  unfold execSupplyGoodWaitEnd
  dsimp only
  split <;> simp [h]

@[simp ↓] theorem execLinkWatchdogExpiry_canonical (h : s.canonical) (g) :
    nextCanonical (execLinkWatchdogExpiry g s) := by
  simp [execLinkWatchdogExpiry, h]

@[simp ↓] theorem execFieldPark_canonical (h : s.canonical) (g) : nextCanonical (execFieldPark g s) := by
  simp [execFieldPark, h]

@[simp ↓] theorem execFieldPowerUp_canonical (h : s.canonical) (g hot) : nextCanonical (execFieldPowerUp g hot s) := by
  simp [execFieldPowerUp, h]

@[simp ↓] theorem execVfgLow_canonical (h : s.canonical) (g) : nextCanonical (execVfgLow g s) := by
  simp [execVfgLow, h]

@[simp ↓] theorem execVfgLowEnd_canonical (h : s.canonical) (g) : nextCanonical (execVfgLowEnd g s) := by
  simp [execVfgLowEnd, h]

@[simp ↓] theorem execVfgMissing_canonical (h : s.canonical) (g) : nextCanonical (execVfgMissing g s) := by
  simp [execVfgMissing, h]

/-! ### The governor -/

@[simp ↓] theorem sensorStep_canonical (h : s.canonical) (raw) : (sensorStep raw s).canonical := by
  unfold sensorStep
  dsimp only
  repeat' split
  all_goals simp [h]

@[simp ↓] theorem highStep_canonical (h : s.canonical) : (highStep s).canonical := by
  simp [highStep, h]

@[simp ↓] theorem overStep_canonical : (overStep s).canonical = s.canonical := by
  unfold overStep
  repeat' split
  all_goals simp

@[simp ↓] theorem nextGrid_canonical (n) : (nextGrid n s).canonical = s.canonical := canonical_congr rfl rfl

@[simp ↓] theorem execGovTempStep_canonical (h : s.canonical) (raw) : nextCanonical (execGovTempStep raw s) := by
  simp [execGovTempStep, h]

@[simp ↓] theorem execGovOverTimer_canonical (h : s.canonical) : nextCanonical (execGovOverTimer s) := by
  unfold execGovOverTimer
  split <;> simp [h]

@[simp ↓] theorem execFieldTempEvent_canonical (h : s.canonical) (g hot) :
    nextCanonical (execFieldTempEvent g hot s) := by
  simp [execFieldTempEvent, h]

@[simp ↓] theorem hostValue_canonical (n op) : (hostValue n op s).canonical = s.canonical := by
  simp [hostValue]

@[simp ↓] theorem releaseStart_canonical (w) : (releaseStart w s).canonical = s.canonical := by
  simp [releaseStart]

@[simp ↓] theorem judgeStart_canonical (w) : (judgeStart w s).canonical = s.canonical := by
  simp [judgeStart]

@[simp ↓] theorem execGovReleaseStep_canonical (h : s.canonical) : nextCanonical (execGovReleaseStep s) := by
  simp [execGovReleaseStep, h]

@[simp ↓] theorem execGovDeferTimeout_canonical (h : s.canonical) (n) : nextCanonical (execGovDeferTimeout n s) := by
  unfold execGovDeferTimeout
  split <;> simp [h]

/-! ### Watchdog and supervisors -/

@[simp ↓] theorem wdZero_canonical : (wdZero s).canonical = s.canonical := canonical_congr rfl rfl
@[simp ↓] theorem wdStart_canonical (seed) : (wdStart seed s).canonical = s.canonical := canonical_congr rfl rfl

@[simp ↓] theorem wdExpire_canonical (h : s.canonical) : (wdExpire s).canonical := by
  simp [wdExpire, h]

@[simp ↓] theorem setLast_canonical (k) : (setLast k s).canonical = s.canonical := canonical_congr rfl rfl

@[simp ↓] theorem judgeServe_canonical (h : s.canonical) (from_ token) : (judgeServe from_ token s).2.canonical := by
  simp [judgeServe, h]

@[simp ↓] theorem execWdWarning_canonical (h : s.canonical) : nextCanonical (execWdWarning s) := by
  simp [execWdWarning, h]

@[simp ↓] theorem execWdExpiry_canonical (h : s.canonical) : nextCanonical (execWdExpiry s) := by
  unfold execWdExpiry
  split
  · exact injReport_canonical (by simp [h]) (fun _ ht => by simp [ht]) ..
  · exact h

@[simp ↓] theorem clockTrip_canonical (h : s.canonical) (running) : (clockTrip running s).canonical := by
  simp [clockTrip, h]

@[simp ↓] theorem execWdClockMonitorTrip_canonical (h : s.canonical) (running) :
    nextCanonical (execWdClockMonitorTrip running s) := by
  unfold execWdClockMonitorTrip
  split
  · exact injReport_canonical h (fun _ ht => by simp [ht]) ..
  · exact h

@[simp ↓] theorem execFaultWindowEnd_canonical (h : s.canonical) (d c) : nextCanonical (execFaultWindowEnd d c s) := by
  unfold execFaultWindowEnd
  dsimp only
  split <;> simp [h]

@[simp ↓] theorem execHeartbeatMissing_canonical (h : s.canonical) : nextCanonical (execHeartbeatMissing s) := by
  unfold execHeartbeatMissing
  split
  · exact injReport_canonical (by simp [h]) (fun _ ht => by simp [ht]) ..
  · exact h

@[simp ↓] theorem execLockstepMismatch_canonical (h : s.canonical) : nextCanonical (execLockstepMismatch s) := by
  unfold execLockstepMismatch
  split
  · exact injReport_canonical (by simp [h]) (fun _ ht => by simp [ht]) ..
  · exact h

/-! ### The front end of a port -/

@[simp ↓] theorem restartTaps_canonical (p) : (restartTaps p s).canonical = s.canonical := by
  simp [restartTaps]

@[simp ↓] theorem selectOn_canonical (p) : (selectOn p s).canonical = s.canonical := by
  simp [selectOn]

@[simp ↓] theorem setRx_canonical (p r) : (setRx p r s).canonical = s.canonical := canonical_congr rfl rfl

@[simp ↓] theorem countHdrBad_canonical (h : s.canonical) (p) : (countHdrBad p s).canonical := by
  simp [countHdrBad, h]

@[simp ↓] theorem countDiscard_canonical (p) : (countDiscard p s).canonical = s.canonical := canonical_congr rfl rfl
@[simp ↓] theorem setTag_canonical (p t b) : (setTag p t b s).canonical = s.canonical := canonical_congr rfl rfl

@[simp ↓] theorem refuseHdr_canonical (p h0 st) : (refuseHdr p h0 st s).canonical = s.canonical := by
  simp [refuseHdr]

@[simp ↓] theorem dropPayload_canonical (p h0 h1) : (dropPayload p h0 h1 s).canonical = s.canonical := by
  simp [dropPayload]

@[simp ↓] theorem pushCmd_canonical (p h0 ws good st) : (pushCmd p h0 ws good st s).canonical = s.canonical := by
  simp [pushCmd]

@[simp ↓] theorem fetchWords_canonical (h : s.canonical) (p lanes) : (fetchWords p lanes s).2.canonical := by
  unfold fetchWords
  split <;> simp [h]

@[simp ↓] theorem fetchHdr_canonical (h : s.canonical) (p h0 h1) : (fetchHdr p h0 h1 s).canonical := by
  simp [fetchHdr, h]

@[simp ↓] theorem commandHdr_canonical (h : s.canonical) (p h0 h1) : (commandHdr p h0 h1 s).canonical := by
  unfold commandHdr
  dsimp only
  repeat' split
  all_goals simp [h]

@[simp ↓] theorem ctlWrite_canonical (n d a) : (ctlWrite n d a s).canonical = s.canonical := by
  simp [ctlWrite]

@[simp ↓] theorem cfgFinish_canonical (h : s.canonical) (j) : (cfgFinish j s).canonical := by
  unfold cfgFinish
  extract_lets ok bad s1 map
  have h1 : s1.canonical := by
    refine foldSt_canonical (by simp [h]) fun u t ht => (ctlWrite_canonical ..).trans ?_
    refine foldSt_canonical ht fun w t ht => ?_
    split <;> simp [ht]
  split
  simp [h1]

@[simp ↓] theorem cfgDue_canonical (h : s.canonical) : (cfgDue s).canonical := by
  unfold cfgDue
  split <;> simp [h]

@[simp ↓] theorem cfgWait_canonical (h : s.canonical) : (cfgWait s).canonical := by
  unfold cfgWait
  split <;> simp [h]

@[simp ↓] theorem headerIn_canonical (h : s.canonical) (p h0 h1) : (headerIn p h0 h1 s).canonical := by
  simp [headerIn, h]

@[simp ↓] theorem abortHdr_canonical (h : s.canonical) (p h0) : (abortHdr p h0 s).canonical := by
  simp [abortHdr, h]

@[simp ↓] theorem serveIn_canonical (h : s.canonical) (p h0 token) : (serveIn p h0 token s).canonical := by
  simp [serveIn, h]

@[simp ↓] theorem payloadIn_canonical (h : s.canonical) (p h0 ws good) : (payloadIn p h0 ws good s).canonical := by
  simp [payloadIn, h]

@[simp ↓] theorem beatIn_canonical (p w0 w1) : (beatIn p w0 w1 s).canonical = s.canonical := by
  unfold beatIn
  dsimp only
  split <;> simp

@[simp ↓] theorem selectOff_canonical (h : s.canonical) (p midBeat) : (selectOff p midBeat s).canonical := by
  unfold selectOff
  dsimp only
  repeat' split
  all_goals simp [h]

@[simp ↓] theorem deliverPacket_canonical (h : s.canonical) (op m) : (deliverPacket op m s).canonical := by
  unfold deliverPacket
  dsimp only
  repeat' split
  all_goals simp [h]

@[simp ↓] theorem arrive_canonical (h : s.canonical) (op m) : (arrive op m s).canonical := by
  unfold arrive
  dsimp only
  repeat' split
  all_goals simp [h]

@[simp ↓] theorem takeCmd_canonical (h : s.canonical) (op m) : (takeCmd op m s).2.canonical := by
  unfold takeCmd
  split
  · exact h
  extract_lets s1 s2 x o otherTurn
  have h1 : s1.canonical := by simp [s1, h]
  have h2 : s2.canonical := by
    unfold s2
    split <;> simp [h1]
  split
  · split
    · exact cellsRead_canonical (by simp [h2]) ..
    · exact h2
  · exact h2

/-! ### The interpreter -/

/-- What a handler adds to a command keeps the canonical form. -/
structure Handler.Keeps (k : Handler) : Prop where
  run {s : State} (h : s.canonical) (m : Msg) : (k.run m s).2.canonical
  broken {s : State} (h : s.canonical) (m : Msg) : (k.broken m s).canonical := by exact fun h _ => h
  refused {s : State} (h : s.canonical) (st : Status) (m : Msg) : (k.refused st m s).canonical := by exact fun h _ _ => h

@[simp ↓] theorem recCmd_canonical (h : s.canonical) (op m) : (recCmd op m s).canonical := by
  simp [recCmd, h]

@[simp ↓] theorem answer_canonical (m r) : (answer m r).canonical = r.2.canonical := by
  unfold answer
  dsimp only
  split
  · rfl
  · simp

@[simp ↓] theorem answerDeferred_canonical (op m r) : (answerDeferred op m r).canonical = r.2.canonical := by
  unfold answerDeferred
  split
  · rw [answer_canonical]
    dsimp only
    split <;> simp
  · rfl

theorem interp_canonical {k : Handler} (hk : k.Keeps) (h : s.canonical) (op m) : nextCanonical (interp op k m s) := by
  have htake := takeCmd_canonical h op m
  unfold interp
  split
  next t e => simpa [e] using htake
  next m bad t e =>
    have ht : t.canonical := by simpa [e] using htake
    have hrec : (recCmd op m t).canonical := by simp [ht]
    dsimp only
    split
    · have hlost (c : Bool) : (if c then k.broken m (recCmd op m t) else recCmd op m t).canonical := by
        simp [hrec, hk.broken hrec]
      rw [nextCanonical_next, answer_canonical]
      exact hk.refused (hlost _) ..
    · have hrun := hk.run (s := addDeferred (defOf op m) (recCmd op m t)) (by simp [hrec])
      simp [hrun, hk.run hrec]

/-! ### Interrupt commands, taps, HELLO and STATUS -/

@[simp ↓] theorem execModeratorTimerFire_canonical (h : s.canonical) (m) :
    nextCanonical (execModeratorTimerFire m s) := by
  unfold execModeratorTimerFire
  split <;> simp [h]

@[simp ↓] theorem execIrqTimerTick_canonical (h : s.canonical) : nextCanonical (execIrqTimerTick s) := by
  simp [execIrqTimerTick, h]

@[simp ↓] theorem irqAckGo_canonical (p w0 masks) : (irqAckGo p w0 masks s).canonical = s.canonical := by
  simp [irqAckGo]

theorem irqAckH_keeps : irqAckH.Keeps where
  run h m := by
    simp [irqAckH, h]

theorem portSleepH_keeps : portSleepH.Keeps where
  run h m := by
    simp [portSleepH, h]

theorem helloH_keeps : helloH.Keeps where
  run h m := by
    unfold helloH
    dsimp only
    split <;> simp [h]

theorem statusH_keeps : statusH.Keeps where
  run h m := by
    simp [statusH, h]

@[simp ↓] theorem freeTap_canonical (k how) : (freeTap k how s).canonical = s.canonical := by
  simp [freeTap]

theorem tapTakeH_keeps : tapTakeH.Keeps where
  run h m := by
    simp [tapTakeH, h]

theorem tapReleaseH_keeps : tapReleaseH.Keeps where
  run h m := by
    simp [tapReleaseH, h]

@[simp ↓] theorem execTapIdleTimeout_canonical (h : s.canonical) (k) : nextCanonical (execTapIdleTimeout k s) := by
  simp [execTapIdleTimeout, h]

/-! ### Fault and watchdog commands -/

theorem faultReadH_keeps : faultReadH.Keeps where
  run h m := by
    simp [faultReadH, h]

@[simp ↓] theorem ackCont_canonical (w) : (ackCont w s).canonical = s.canonical := by
  simp [ackCont]

@[simp ↓] theorem ackFatal_canonical : (ackFatal s).canonical = s.canonical := by
  simp [ackFatal]

@[simp ↓] theorem clearCounters_canonical (w) : (clearCounters w s).canonical = s.canonical := by
  simp [clearCounters]

@[simp ↓] theorem faultAckGo_canonical (w0 w1) : (faultAckGo w0 w1 s).canonical = s.canonical := by
  simp [faultAckGo]

theorem faultAckH_keeps : faultAckH.Keeps where
  run h m := by
    simp [faultAckH, h]

theorem wdServeH_keeps : wdServeH.Keeps where
  run h m := by
    simp [wdServeH, h]

@[simp ↓] theorem wdGo_canonical (m) : (wdGo m s).canonical = s.canonical := by
  unfold wdGo
  split <;> simp

theorem wdConfigH_keeps : wdConfigH.Keeps where
  run h m := by
    simp [wdConfigH, h]

/-! ### Memory integrity -/

@[simp ↓] theorem execScrubRead_canonical (h : s.canonical) : nextCanonical (execScrubRead s) := by
  unfold execScrubRead
  dsimp only
  repeat' split
  all_goals simp [h]

@[simp ↓] theorem testSpoils_canonical (h : s.canonical) (m) : (testSpoils m s).canonical := by
  simp [testSpoils, h]

@[simp ↓] theorem testFault_canonical (h : s.canonical) (f) : (testFault f s).canonical := by
  simp [testFault, h]

@[simp ↓] theorem miTestStart_canonical (h : s.canonical) (sel) : (miTestStart sel s).canonical := by
  unfold miTestStart
  exact foldSt_canonical (by simp [h]) fun m t ht => testSpoils_canonical ht m

@[simp ↓] theorem execMiTestEnd_canonical (h : s.canonical) (faults) : nextCanonical (execMiTestEnd faults s) := by
  unfold execMiTestEnd
  split
  · simp [h]
  · extract_lets l res low s1 s2
    have h1 : s1.canonical := foldSt_canonical h fun m t ht => testSpoils_canonical ht m
    have h2 : s2.canonical := by simp [s2, h1]
    rw [nextCanonical_next]
    exact foldSt_canonical h2 fun f t ht => testFault_canonical ht f

@[simp ↓] theorem miClearCounts_canonical : (miClearCounts s).canonical = s.canonical := canonical_congr rfl rfl
@[simp ↓] theorem meminjWrite_canonical (v) : (meminjWrite v s).canonical = s.canonical := canonical_congr rfl rfl

/-! ### Requests of the memory master port -/

@[simp ↓] theorem mmpSubmit_canonical (q) : (mmpSubmit q s).canonical = s.canonical := canonical_congr rfl rfl

@[simp ↓] theorem mmpPut_canonical (u f) : (mmpPut u f s).canonical = s.canonical := by
  simp [mmpPut]

@[simp ↓] theorem mmpError_canonical (h : s.canonical) (kind q) : (mmpError kind q s).canonical := by
  simp [mmpError, h]

/-! ### Rules of register writes -/

@[simp ↓] theorem afterWrite_canonical (h : s.canonical) (r v) : (afterWrite r v s).canonical := by
  unfold afterWrite
  repeat' split
  all_goals simp [h]

/-! ### Register reads -/

@[simp ↓] theorem fillLatch_canonical (p r) : (fillLatch p r s).canonical = s.canonical := by
  simp [fillLatch]

@[simp ↓] theorem readAddr_canonical (h : s.canonical) (p a) : (readAddr p a s).2.canonical := by
  unfold readAddr
  repeat' split
  all_goals simp [h]

/-! ### Register writes -/

@[simp ↓] theorem portErrClear_canonical (x) : (portErrClear x s).canonical = s.canonical := canonical_congr rfl rfl
@[simp ↓] theorem portDaisyClear_canonical (x) : (portDaisyClear x s).canonical = s.canonical := canonical_congr rfl rfl

@[simp ↓] theorem ipendWrite_canonical (k v) : (ipendWrite k v s).canonical = s.canonical := by
  simp [ipendWrite]

@[simp ↓] theorem intCfgWrite_canonical (h : s.canonical) (n v) : (intCfgWrite n v s).canonical := by
  simp [intCfgWrite, h]

@[simp ↓] theorem modeWrite_canonical (h : s.canonical) (n v) : (modeWrite n v s).canonical := by
  simp [modeWrite, h]

@[simp ↓] theorem grpCtlWrite_canonical (g v) : (grpCtlWrite g v s).canonical = s.canonical := by
  simp [grpCtlWrite]

@[simp ↓] theorem clearValid_canonical (b) : (clearValid b s).canonical = s.canonical := canonical_congr rfl rfl

@[simp ↓] theorem trkCmdWrite_canonical (h : s.canonical) (v) : (trkCmdWrite v s).canonical := by
  unfold trkCmdWrite
  extract_lets s1 s2 s3
  have h1 : s1.canonical := by simp [s1, h]
  have h2 : s2.canonical := by simp [s2, h1]
  have h3 : s3.canonical := by simp [s3, h2]
  simp [h3]

@[simp ↓] theorem seqClear_canonical : (seqClear s).canonical = s.canonical := canonical_congr rfl rfl
@[simp ↓] theorem smpClear_canonical : (smpClear s).canonical = s.canonical := canonical_congr rfl rfl

@[simp ↓] theorem panCmdWrite_canonical (v) : (panCmdWrite v s).canonical = s.canonical := by
  simp [panCmdWrite]

@[simp ↓] theorem caskCtlWrite_canonical (h : s.canonical) (v) : (caskCtlWrite v s).canonical := by
  simp [caskCtlWrite, h]

@[simp ↓] theorem mmpClrWrite_canonical (v) : (mmpClrWrite v s).canonical = s.canonical := by
  simp [mmpClrWrite]

@[simp ↓] theorem miTestWrite_canonical (h : s.canonical) (v) : (miTestWrite v s).canonical := by
  simp [miTestWrite, h]

@[simp ↓] theorem regEffect_canonical (h : s.canonical) (p r v) : (regEffect p r v s).canonical := by
  unfold regEffect
  cases r
  case ch n r => cases r <;> simp [h]
  case grp g r => cases r <;> simp [h]
  case meminj k =>
    dsimp only
    split <;> simp [h]
  all_goals simp [h]

@[simp ↓] theorem regWriteBy_canonical (h : s.canonical) (p r v) : (regWriteBy p r v s).canonical := by
  simp [regWriteBy, h]

@[simp ↓] theorem writeAddr_canonical (h : s.canonical) (p a v) : (writeAddr p a v s).canonical := by
  unfold writeAddr
  split <;> simp [h]

@[simp ↓] theorem issueRun_canonical (write r) : (issueRun write r s).canonical = s.canonical := by
  simp [issueRun]

@[simp ↓] theorem writeUnits_canonical (h : s.canonical) (p cmd l n) : (writeUnits p cmd l n s).2.canonical := by
  induction l generalizing n s with
  | nil => exact h
  | cons x l ih =>
    unfold writeUnits
    split
    · exact h
    · split
      · exact ih (by simp [h]) _
      · simp [h]

@[simp ↓] theorem commitPairs_canonical (h : s.canonical) (p l runs) : (commitPairs p l runs s).2.canonical := by
  induction l generalizing runs s with
  | nil => exact h
  | cons x l ih =>
    unfold commitPairs
    split
    · exact ih (by simp [h]) _
    · exact ih h _

@[simp ↓] theorem regWriteGo_canonical (h : s.canonical) (p cmd stage l) :
    (regWriteGo p cmd stage l s).2.canonical := by
  unfold regWriteGo
  split
  · split
    · exact h
    · split
      rename_i runs t e
      have ht : t.canonical := canonical_of_snd e (commitPairs_canonical h ..)
      dsimp only
      split <;> simp [ht]
  · simp [h]

@[simp ↓] theorem ansOf_canonical (r) : (ansOf r).2.canonical = r.2.canonical := by
  unfold ansOf
  split <;> rfl

theorem regWriteH_keeps : regWriteH.Keeps where
  run h m := by simp [regWriteH, h]

@[simp ↓] theorem readAll_canonical (h : s.canonical) (p l) : (readAll p l s).2.canonical :=
  foldl_snd_canonical (by simp [h]) fun r a hr => by simp [hr]

@[simp ↓] theorem regReadGo_canonical (h : s.canonical) (p cmd l) : (regReadGo p cmd l s).2.canonical := by
  unfold regReadGo
  split
  rename_i ws bad t e
  have ht : t.canonical := canonical_of_snd e (readAll_canonical h ..)
  split <;> simp [ht]

theorem regReadH_keeps : regReadH.Keeps where
  run h m := by simp [regReadH, h]

@[simp ↓] theorem jobReply_canonical (j r) : (jobReply j r s).canonical = s.canonical := by
  unfold jobReply
  split <;> simp

@[simp ↓] theorem regRunEnd_canonical (h : s.canonical) (ok got n) : (regRunEnd ok got n s).canonical := by
  unfold regRunEnd
  split
  · exact h
  next j _ =>
    have hwrite (n) : (writeUnits j.port j.cmd j.pairs n (setRegJob none s)).2.canonical := by simp [h]
    split
    · exact h
    · dsimp only
      split
      · split
        · simp [h]
        · split <;> simp [h]
      · split
        · split <;> simp [h]
        · split
          · simp [h]
          · split
            · simp [h]
            · split
              next x t e => simpa using canonical_of_snd e (hwrite _)
              next t e => exact canonical_of_snd e (hwrite _)

/-! ### Single register accesses -/

theorem regRow_canonical (h : s.canonical) (p r v) : nextCanonical (regRow p r v s) := by
  simp [regRow, h]

@[simp ↓] theorem execMmpHostRead_canonical (h : s.canonical) (p i) : nextCanonical (execMmpHostRead p i s) := by
  simp [execMmpHostRead, h]

@[simp ↓] theorem execSnapshotRead_canonical (h : s.canonical) (p a) : nextCanonical (execSnapshotRead p a s) := by
  simp [execSnapshotRead, h]

@[simp ↓] theorem execStagedWordWrite_canonical (h : s.canonical) (p a v) :
    nextCanonical (execStagedWordWrite p a v s) := by
  simp [execStagedWordWrite, h]

/-! ### Trellis commands -/

@[simp ↓] theorem setCount_canonical (h : s.canonical) (b n) : (setCount b n s).canonical := by
  simp [setCount, h]

@[simp ↓] theorem toLineCheck_canonical (h : s.canonical) (b) : (toLineCheck b s).canonical := by
  unfold toLineCheck
  split
  · exact h
  extract_lets m s1 s2 s3
  have h1 : s1.canonical := foldSt_canonical h fun a t ht => by simp [ht]
  simp [s3, s2, h1]

@[simp ↓] theorem toCode_canonical (h : s.canonical) (b) : (toCode b s).canonical := by
  unfold toCode
  split
  · exact h
  extract_lets m s1 s2
  have h1 : s1.canonical := foldSt_canonical h fun j t ht => by simp [ht]
  have h2 : s2.canonical := by simp [s2, h1]
  exact foldSt_canonical h2 fun e t ht => by simp [ht]

@[simp ↓] theorem trellisLoadGo_canonical (h : s.canonical) (m) : (trellisLoadGo m s).2.canonical := by
  unfold trellisLoadGo
  extract_lets w b first ws v1 s1 s2 s3 s4 s5 s6
  have h1 : s1.canonical := by simp [s1, h]
  have h2 : s2.canonical := by simp [s2, h1]
  have h3 : s3.canonical := by simp [s3, h2]
  have h4 : s4.canonical := by simp [s4, h3]
  have h5 : s5.canonical := by simp [s5, h4]
  simp [s6, h3, h5]

@[simp ↓] theorem trellisBroken_canonical (h : s.canonical) (m) : (trellisBroken m s).canonical := by
  unfold trellisBroken
  split <;> simp [h]

theorem trellisLoadH_keeps : trellisLoadH.Keeps where
  run h m := by simp [trellisLoadH, h]
  broken h m := by simp [trellisLoadH, h]

@[simp ↓] theorem keepArm_canonical (b r) : (keepArm b r s).canonical = s.canonical := canonical_congr rfl rfl

@[simp ↓] theorem refuseArm_canonical (b r) : (refuseArm b r s).canonical = s.canonical := by
  simp [refuseArm]

@[simp ↓] theorem cancelSwap_canonical (b) : (cancelSwap b s).canonical = s.canonical := by
  simp [cancelSwap]

@[simp ↓] theorem armGo_canonical (b) : (armGo b s).2.canonical = s.canonical := by
  simp [armGo]

@[simp ↓] theorem stopGo_canonical (b) : (stopGo b s).2.canonical = s.canonical := by
  unfold stopGo
  split <;> simp

@[simp ↓] theorem recBank_canonical (h : s.canonical) (op b a) : (recBank op b a s).canonical := by
  unfold recBank
  split <;> simp [h]

theorem trellisArmH_keeps : trellisArmH.Keeps where
  run h m := by
    unfold trellisArmH
    dsimp only
    split <;> simp [h]
  refused h st m := by simp [trellisArmH, h]

@[simp ↓] theorem hostRead_canonical (h : s.canonical) (m a n) : (hostRead m a n s).2.2.canonical := by
  unfold hostRead
  split
  · exact h
  · exact memReads_canonical h ..

theorem trellisReadH_keeps : trellisReadH.Keeps where
  run h _ := hostRead_canonical h ..

/-! ### Channel commands -/

@[simp ↓] theorem unitWrite_canonical (h : s.canonical) (n ws) : (unitWrite n ws s).canonical := by
  unfold unitWrite
  split
  next sets d a _ =>
    extract_lets s1 l
    have h1 : s1.canonical := foldSt_canonical h fun w t ht => by split <;> simp [ht]
    simp [h1]

@[simp ↓] theorem cfgGo_canonical (h : s.canonical) (p l done) : (cfgGo p l done s).2.canonical := by
  induction l generalizing done s with
  | nil => exact h
  | cons x l ih =>
    unfold cfgGo
    split
    · exact h
    · exact ih (by simp [h]) _

@[simp ↓] theorem cfgCommit_canonical (d us) : (cfgCommit d us s).canonical = s.canonical := by
  simp [cfgCommit]

theorem chanConfigH_keeps : chanConfigH.Keeps where
  run h m := by
    unfold chanConfigH
    dsimp only
    split
    · split <;> simp [h]
    · simp [h]

@[simp ↓] theorem applyItem_canonical (h : s.canonical) (i) : (applyItem i s).canonical := by
  unfold applyItem
  split <;> simp [h]

@[simp ↓] theorem setItems_canonical (h : s.canonical) (p l) : (setItems p l s).2.canonical := by
  unfold setItems
  split
  · exact h
  · exact foldSt_canonical h fun i t ht => applyItem_canonical ht i

theorem chanSetH_keeps : chanSetH.Keeps where
  run h _ := setItems_canonical h ..

theorem chanGetH_keeps : chanGetH.Keeps where
  run h _ := h

/-! ### GROUP_CMD and PAN_READ -/

@[simp ↓] theorem groupGo_canonical (m) : (groupGo m s).2.canonical = s.canonical := by
  unfold groupGo
  dsimp only
  repeat' split
  all_goals simp

theorem groupH_keeps : groupH.Keeps where
  run h m := by simp [groupH, h]

theorem panReadH_keeps : panReadH.Keeps where
  run h m := by simp [panReadH, h]

/-! ### Calibration -/

@[simp ↓] theorem setTrim_canonical (n k t) : (setTrim n k t s).canonical = s.canonical := by
  simp [setTrim]

@[simp ↓] theorem calStoreBegin_canonical (want) : (calStoreBegin want s).canonical = s.canonical := by
  simp [calStoreBegin]

@[simp ↓] theorem calStore_canonical (n) : (calStore n s).canonical = s.canonical := by
  unfold calStore
  split <;> simp

@[simp ↓] theorem execCalStoreOpEnd_canonical (h : s.canonical) : nextCanonical (execCalStoreOpEnd s) := by
  unfold execCalStoreOpEnd
  split <;> simp [h]

theorem calSetH_keeps : calSetH.Keeps where
  run h m := by simp [calSetH, h]

@[simp ↓] theorem armEnd_canonical (result status) : (armEnd result status s).canonical = s.canonical := by
  unfold armEnd
  split <;> simp

theorem calArmH_keeps : calArmH.Keeps where
  run h m := by simp [calArmH, h]

@[simp ↓] theorem execCalArmTimeout_canonical (h : s.canonical) : nextCanonical (execCalArmTimeout s) := by
  unfold execCalArmTimeout
  split <;> simp [h]

@[simp ↓] theorem execCalButtonPress_canonical (h : s.canonical) (span bothHigh) :
    nextCanonical (execCalButtonPress span bothHigh s) := by
  unfold execCalButtonPress
  split <;> simp [h]

@[simp ↓] theorem execCalCaptureConversion_canonical (h : s.canonical) (x beyond) :
    nextCanonical (execCalCaptureConversion x beyond s) := by
  unfold execCalCaptureConversion
  split <;> simp [h]

@[simp ↓] theorem execCalCaptureEnd_canonical (h : s.canonical) : nextCanonical (execCalCaptureEnd s) := by
  unfold execCalCaptureEnd
  repeat' split
  all_goals simp [h]

/-! ### Cask commands and racking -/

@[simp ↓] theorem lateReply_canonical (d st ws) : (lateReply d st ws s).canonical = s.canonical := by
  simp [lateReply]

@[simp ↓] theorem sessionDone_canonical : (sessionDone s).canonical = s.canonical := by
  simp [sessionDone]

@[simp ↓] theorem doneIfEmpty_canonical : (doneIfEmpty s).canonical = s.canonical := by
  simp [doneIfEmpty]

@[simp ↓] theorem caskClear_canonical : (caskClear s).canonical = s.canonical := by
  simp [caskClear]

@[simp ↓] theorem caskCtrlGo_canonical (h : s.canonical) (m) : (caskCtrlGo m s).2.canonical := by
  unfold caskCtrlGo
  repeat' split
  all_goals simp [h]

theorem caskCtrlH_keeps : caskCtrlH.Keeps where
  run h m := by simp [caskCtrlH, h]

theorem caskReadH_keeps : caskReadH.Keeps where
  run h _ := hostRead_canonical h ..

@[simp ↓] theorem execSegmentTimer_canonical (h : s.canonical) : nextCanonical (execSegmentTimer s) := by
  unfold execSegmentTimer
  split <;> simp [h]

@[simp ↓] theorem execCfghashRecord_canonical (h : s.canonical) : nextCanonical (execCfghashRecord s) := by
  simp [execCfghashRecord, h]

@[simp ↓] theorem execSegmentHashDone_canonical (h : s.canonical) : nextCanonical (execSegmentHashDone s) := by
  simp [execSegmentHashDone, h]

@[simp ↓] theorem anchorSign_canonical (seg ws) : (anchorSign seg ws s).2.canonical = s.canonical := by
  simp [anchorSign]

@[simp ↓] theorem closingSegment_canonical (h : s.canonical) (code) : (closingSegment code s).canonical :=
  segClose_canonical (recHeld_canonical (segOpen_canonical h ..)) ..

@[simp ↓] theorem execAnchorSigned_canonical (h : s.canonical) : nextCanonical (execAnchorSigned s) := by
  unfold execAnchorSigned
  split <;> simp [h]

@[simp ↓] theorem slotScan_canonical (h : s.canonical) (slot) : (slotScan slot s).2.canonical :=
  foldl_snd_canonical h fun r e hr => by simp [hr]

@[simp ↓] theorem rackSet_canonical (j) : (rackSet j s).canonical = s.canonical := by
  simp [rackSet]

@[simp ↓] theorem rackFail_canonical (j st page) :
    (rackFail j st page s).canonical = s.canonical := canonical_congr rfl rfl

@[simp ↓] theorem rackBegin_canonical (h : s.canonical) (j page) : (rackBegin j page s).2.canonical := by
  unfold rackBegin
  split <;> simp [h]

@[simp ↓] theorem rackUnit_canonical (h : s.canonical) (j) : (rackUnit j s).canonical := by
  unfold rackUnit
  repeat' split
  all_goals simp [h]

@[simp ↓] theorem rackGo_canonical (h : s.canonical) (m) : (rackGo m s).2.canonical := by
  unfold rackGo
  extract_lets pages j s1
  have h1 : s1.canonical := by simp [s1, h]
  split
  · split
    · simp [h1]
    · exact foldl_snd_canonical (by simp [h1]) fun r page hr => by simp [hr]
  · simp [h1]

theorem rackH_keeps : rackH.Keeps where
  run h m := by simp [rackH, h]

@[simp ↓] theorem rackPageDone_canonical (h : s.canonical) (d ok) : (rackPageDone d ok s).canonical := by
  unfold rackPageDone
  split
  · exact h
  next j _ =>
    extract_lets page slot
    split
    next bad t e =>
      have ht : t.canonical := canonical_of_snd e (by simp [h])
      dsimp only
      split
      · split
        · simp [ht]
        · split
          · exact foldSt_canonical (by simp [ht]) fun k t ht => slotFreed_canonical ht k
          · simp [ht]
      · simp [ht]

@[simp ↓] theorem execRackComplete_canonical (h : s.canonical) : nextCanonical (execRackComplete s) := by
  unfold execRackComplete
  split <;> simp [h]

@[simp ↓] theorem execAutoRackPageDone_canonical (h : s.canonical) : nextCanonical (execAutoRackPageDone s) := by
  unfold execAutoRackPageDone
  split
  · extract_lets s1 s2 s3
    have h1 : s1.canonical := by simp [s1, h]
    have h3 : s3.canonical := by simp [s3, s2, h1]
    simp [h1, h3]
  · simp [h]
  · simp [h]

/-! ### Replay -/

@[simp ↓] theorem modReplay_canonical (f) : (modReplay f s).canonical = s.canonical := canonical_congr rfl rfl

@[simp ↓] theorem replayAsk_canonical : (replayAsk s).canonical = s.canonical := by
  unfold replayAsk
  split <;> simp

@[simp ↓] theorem replayPage_canonical (data ok) : (replayPage data ok s).canonical = s.canonical := by
  simp [replayPage]

@[simp ↓] theorem replayFetch_canonical (h : s.canonical) (i) : (replayFetch i s).2.canonical := by
  unfold replayFetch
  repeat' split
  all_goals simp [h]

@[simp ↓] theorem restoreTracker_canonical (c) : (restoreTracker c s).canonical = s.canonical := by
  simp [restoreTracker]

@[simp ↓] theorem restoreBanks_canonical (c) : (restoreBanks c s).canonical = s.canonical := by
  unfold restoreBanks
  dsimp only
  split <;> simp

@[simp ↓] theorem shadowBegin_canonical (h : s.canonical) (sess) : (shadowBegin sess s).canonical := by
  simp [shadowBegin, h]

@[simp ↓] theorem hashAll_canonical (h : s.canonical) (n) : (hashAll n s).canonical := by
  induction n generalizing s with
  | zero => exact h
  | succ n ih =>
    unfold hashAll
    split
    · exact h
    · exact ih (by simp [h])

@[simp ↓] theorem signAll_canonical : (signAll s).canonical = s.canonical :=
  List.foldlRecOn (motive := fun t : State => t.canonical = s.canonical) _ _ (by simp) fun t ht x _ => by simp [ht]

@[simp ↓] theorem shadowEnd_canonical (h : s.canonical) : (shadowEnd s).canonical := by
  unfold shadowEnd
  extract_lets on s1 s2
  have h1 : s1.canonical := by simp [s1, h]
  have h2 : s2.canonical := by simp [s2, h1]
  simp [h2]

@[simp ↓] theorem replayFinish_canonical (h : s.canonical) (result) : (replayFinish result s).canonical := by
  unfold replayFinish
  dsimp only
  repeat' split
  all_goals simp [h]

@[simp ↓] theorem replayStop_canonical (result) :
    (replayStop result s).canonical = s.canonical := canonical_congr rfl rfl

@[simp ↓] theorem replayGo_canonical (h : s.canonical) (m) : (replayGo m s).2.canonical := by
  simp [replayGo, h]

theorem replayH_keeps : replayH.Keeps where
  run h m := by simp [replayH, h]

@[simp ↓] theorem replayBegin_canonical (h : s.canonical) (r ws c) : (replayBegin r ws c s).canonical := by
  unfold replayBegin
  extract_lets mt s1 start s2 s3
  have h3 : s3.canonical := by simp [s3, s2, s1, h]
  split
  · simp [s1, h]
  · split
    next tcor pos _ =>
      extract_lets s4 s5 s6
      have h4 : s4.canonical := foldSt_canonical h3 fun x t ht => by simp [ht]
      have h6 : s6.canonical := by simp [s6, s5, h4]
      simp [h6]

@[simp ↓] theorem execReplayBegin_canonical (h : s.canonical) : nextCanonical (execReplayBegin s) := by
  unfold execReplayBegin
  split
  · exact h
  · split
    · exact h
    · have hf := replayFetch_canonical h 0
      split
      next t e => simp [canonical_of_snd e hf]
      next t e => simp [canonical_of_snd e hf]
      next t e => simp [canonical_of_snd e hf]
      next ws t e =>
        split <;> simp [canonical_of_snd e hf]

@[simp ↓] theorem actEdge_canonical (h : s.canonical) (r stamp) : (actEdge r stamp s).canonical := by
  simp [actEdge, h]

@[simp ↓] theorem actDi_canonical (r) : (actDi r s).canonical = s.canonical := by
  unfold actDi
  split <;> simp

@[simp ↓] theorem actAdc_canonical (h : s.canonical) (r stamp) : (actAdc r stamp s).canonical := by
  unfold actAdc
  split
  · exact foldSt_canonical h fun p t ht => by simp [ht]
  · exact h

@[simp ↓] theorem actState_canonical (h : s.canonical) (new) : (actState new s).canonical := by
  simp [actState, h]

@[simp ↓] theorem actBank_canonical (arg) : (actBank arg s).canonical = s.canonical := by
  unfold actBank
  dsimp only
  split <;> simp

@[simp ↓] theorem recAct_canonical (h : s.canonical) (r) : (recAct r s).canonical := by
  unfold recAct
  split <;> simp [h]

@[simp ↓] theorem replayTurn_canonical (h : s.canonical) (r) : (replayTurn r s).canonical := by
  unfold replayTurn
  extract_lets s1
  have h1 : s1.canonical := by simp [s1, h]
  split
  · simp [h1]
  · have hf := replayFetch_canonical h1 (r.seg + 1)
    split
    next t e => simp [canonical_of_snd e hf]
    next t e => simp [canonical_of_snd e hf]
    next t e => simp [canonical_of_snd e hf]
    next ws t e => simp [canonical_of_snd e hf]

@[simp ↓] theorem execReplayRecordAct_canonical (h : s.canonical) : nextCanonical (execReplayRecordAct s) := by
  unfold execReplayRecordAct
  split <;> simp [h]

@[simp ↓] theorem execReplayEnd_canonical (h : s.canonical) : nextCanonical (execReplayEnd s) := by
  unfold execReplayEnd
  repeat' split
  all_goals simp [h]

/-! ### The memory master port at work -/

@[simp ↓] theorem mmpRemove_canonical (q) : (mmpRemove q s).canonical = s.canonical := canonical_congr rfl rfl

@[simp ↓] theorem mmpSettle_canonical (h : s.canonical) (u) : (mmpSettle u s).canonical := by
  unfold mmpSettle
  repeat' split
  all_goals simp [h]

@[simp ↓] theorem mmpFail_canonical (h : s.canonical) (u kind q) : (mmpFail u kind q s).canonical := by
  simp [mmpFail, h]

@[simp ↓] theorem execMmpTransactionStart_canonical (h : s.canonical) : nextCanonical (execMmpTransactionStart s) := by
  unfold execMmpTransactionStart
  repeat' split
  all_goals simp [h]

@[simp ↓] theorem busFree_canonical : (busFree s).canonical = s.canonical := canonical_congr rfl rfl

@[simp ↓] theorem chunkDone_canonical (h : s.canonical) (u) : (chunkDone u s).canonical := by
  unfold chunkDone
  split <;> simp [h]

@[simp ↓] theorem chunkWritten_canonical (h : s.canonical) (u q) : (chunkWritten u q s).canonical := by
  simp [chunkWritten, h]

@[simp ↓] theorem transactionDone_canonical (h : s.canonical) (u q data) : (transactionDone u q data s).canonical := by
  unfold transactionDone
  repeat' split
  all_goals simp [h]

@[simp ↓] theorem execMmpTransactionEnd_canonical (h : s.canonical) (data) :
    nextCanonical (execMmpTransactionEnd data s) := by
  unfold execMmpTransactionEnd
  repeat' split
  all_goals simp [h]

@[simp ↓] theorem execMmpStatusPoll_canonical (h : s.canonical) (status) :
    nextCanonical (execMmpStatusPoll status s) := by
  unfold execMmpStatusPoll
  split <;> simp [h]

@[simp ↓] theorem execMmpPollTimeout_canonical (h : s.canonical) : nextCanonical (execMmpPollTimeout s) := by
  unfold execMmpPollTimeout
  split <;> simp [h]

@[simp ↓] theorem execMmpStrobeTimeout_canonical (h : s.canonical) : nextCanonical (execMmpStrobeTimeout s) := by
  unfold execMmpStrobeTimeout
  repeat' split
  all_goals simp [h]

@[simp ↓] theorem refetched_canonical (h : s.canonical) (k line words ok) :
    (refetched k line words ok s).canonical := by
  unfold refetched
  extract_lets s1
  have h1 : s1.canonical := by simp [s1, h]
  split
  · refine report_canonical ?_ ..
    exact List.foldlRecOn (motive := fun t : State => t.canonical = true) _ _ h1 fun t ht p _ => by simp [ht]
  · simp [h1]

@[simp ↓] theorem execLineRefetchDone_canonical (h : s.canonical) (bank words ok) :
    nextCanonical (execLineRefetchDone bank words ok s) := by
  unfold execLineRefetchDone
  repeat' split
  all_goals simp [h]

/-! ### Security and the non-volatile store -/

@[simp ↓] theorem sigJudge_canonical (h : s.canonical) (ok) : (sigJudge ok s).2.canonical := by
  simp [sigJudge, h]

@[simp ↓] theorem verifyWith_canonical (h : s.canonical) (key msg sig) : (verifyWith key msg sig s).2.canonical := by
  simp [verifyWith, h]

@[simp ↓] theorem confStore_canonical (f) : (confStore f s).canonical = s.canonical := by
  simp [confStore]

@[simp ↓] theorem jobStart_canonical : (jobStart s).canonical = s.canonical := by
  unfold jobStart
  split <;> simp

@[simp ↓] theorem addJob_canonical (j) : (addJob j s).canonical = s.canonical := by
  simp [addJob]

@[simp ↓] theorem endJob_canonical (d st ws) : (endJob d st ws s).canonical = s.canonical := by
  simp [endJob]

theorem attestH_keeps : attestH.Keeps where
  run h m := by simp [attestH, h]

@[simp ↓] theorem attestReply_canonical (ws snap) : (attestReply ws snap s).2.canonical = s.canonical := by
  unfold attestReply
  split <;> simp

@[simp ↓] theorem execAttestComplete_canonical (h : s.canonical) : nextCanonical (execAttestComplete s) := by
  unfold execAttestComplete
  split <;> simp [h]

@[simp ↓] theorem sealGo_canonical (h : s.canonical) (m) : (sealGo m s).2.canonical := by
  unfold sealGo
  dsimp only
  split <;> simp [h]

theorem sealH_keeps : sealH.Keeps where
  run h m := by simp [sealH, h]

@[simp ↓] theorem execSealLoadComplete_canonical (h : s.canonical) : nextCanonical (execSealLoadComplete s) := by
  unfold execSealLoadComplete
  split <;> simp [h]

@[simp ↓] theorem enrollGo_canonical (h : s.canonical) (m) : (enrollGo m s).2.canonical := by
  unfold enrollGo
  dsimp only
  split <;> simp [h]

theorem enrollH_keeps : enrollH.Keeps where
  run h m := by simp [enrollH, h]

@[simp ↓] theorem modSlot_canonical (k f) : (modSlot k f s).canonical = s.canonical := canonical_congr rfl rfl

@[simp ↓] theorem execOwnerEnrollComplete_canonical (h : s.canonical) : nextCanonical (execOwnerEnrollComplete s) := by
  unfold execOwnerEnrollComplete
  split <;> simp [h]

@[simp ↓] theorem releaseGo_canonical (h : s.canonical) (m) : (releaseGo m s).2.canonical := by
  unfold releaseGo
  split <;> simp [h]

theorem releaseH_keeps : releaseH.Keeps where
  run h m := by simp [releaseH, h]

@[simp ↓] theorem execOwnerReleaseComplete_canonical (h : s.canonical) :
    nextCanonical (execOwnerReleaseComplete s) := by
  unfold execOwnerReleaseComplete
  split <;> simp [h]

@[simp ↓] theorem updAbort_canonical : (updAbort s).canonical = s.canonical := by
  simp [updAbort]

@[simp ↓] theorem eraseTarget_canonical (conf) : (eraseTarget conf s).canonical = s.canonical := by
  simp [eraseTarget]

@[simp ↓] theorem beginGo_canonical (h : s.canonical) (m) : (beginGo m s).2.canonical := by
  unfold beginGo
  dsimp only
  repeat' split
  all_goals simp [h]

theorem beginH_keeps : beginH.Keeps where
  run h m := by simp [beginH, h]

@[simp ↓] theorem modSess_canonical (f) : (modSess f s).canonical = s.canonical := canonical_congr rfl rfl

@[simp ↓] theorem execNvUpdateEraseDone_canonical (h : s.canonical) : nextCanonical (execNvUpdateEraseDone s) := by
  unfold execNvUpdateEraseDone
  split <;> simp [h]

theorem dataH_keeps : dataH.Keeps where
  run h m := by simp [dataH, h]

theorem commitH_keeps : commitH.Keeps where
  run h m := by simp [commitH, h]

@[simp ↓] theorem commitRegion_canonical (u) : (commitRegion u s).canonical = s.canonical := by
  simp [commitRegion]

@[simp ↓] theorem commitReply_canonical (u st) : (commitReply u st s).canonical = s.canonical := by
  simp [commitReply]

@[simp ↓] theorem execNvUpdateCommitDone_canonical (h : s.canonical) : nextCanonical (execNvUpdateCommitDone s) := by
  unfold execNvUpdateCommitDone
  split <;> simp [h]

/-! ### Power, boot and standby -/

/-- BOOT empties every protected memory (R470). -/
@[simp ↓] theorem modMems_empty_canonical (h : s.canonical) :
    (modMems (fun _ => Vector.replicate 16 []) s).canonical :=
  canonical_iff.2 ⟨show (Vector.replicate 16 ([] : Mem)).toList.all Mem.wf by decide, (canonical_iff.1 h).2⟩

/-- A configuration list of a canonical state may be put in force. -/
@[simp ↓] theorem setCfgList_canonical {t : State} (h : s.canonical) (ht : t.canonical) :
    (setCfgList t.cfg s).canonical :=
  canonical_iff.2 ⟨(canonical_iff.1 h).1, (canonical_iff.1 ht).2⟩

@[simp ↓] theorem linksStop_canonical : (linksStop s).canonical = s.canonical := by
  simp [linksStop]

@[simp ↓] theorem logicOff_canonical : (logicOff s).canonical := by
  unfold logicOff
  dsimp only
  generalize closeSession 3 (linksStop s) = t
  exact (canonical_congr (s := State.reset) rfl rfl).trans reset_canonical

@[simp ↓] theorem takeHold_canonical (cause) : (takeHold cause s).canonical := by
  simp [takeHold]

@[simp ↓] theorem powerOff_canonical : (powerOff s).canonical := by
  unfold powerOff
  generalize hoff : logicOff s = t
  have ht : t.canonical := hoff ▸ logicOff_canonical
  exact (canonical_congr (s := t) rfl rfl).trans ht

@[simp ↓] theorem execPowerOn_canonical (h : s.canonical) : nextCanonical (execPowerOn s) := by
  simp [execPowerOn, h]

@[simp ↓] theorem collapseGo_canonical (h : s.canonical) : (collapseGo s).canonical := by
  simp [collapseGo, h]

@[simp ↓] theorem execVsupBrownout_canonical (h : s.canonical) (collapse) :
    nextCanonical (execVsupBrownout collapse s) := by
  simp [execVsupBrownout, h]

@[simp ↓] theorem execVsupLoss_canonical (h : s.canonical) : nextCanonical (execVsupLoss s) := by
  simp [execVsupLoss, h]

@[simp ↓] theorem execVioLoss_canonical (h : s.canonical) : nextCanonical (execVioLoss s) := by
  simp [execVioLoss, h]

@[simp ↓] theorem pulseTaken_canonical (ns) : (pulseTaken ns s).2.canonical = s.canonical := by
  simp [pulseTaken]

@[simp ↓] theorem execResetNPulse_canonical (h : s.canonical) (ns) : nextCanonical (execResetNPulse ns s) := by
  unfold execResetNPulse
  simp [h]

@[simp ↓] theorem execResetTakeHold_canonical (h : s.canonical) : nextCanonical (execResetTakeHold s) := by
  unfold execResetTakeHold
  split <;> simp [h]

@[simp ↓] theorem modBoot_canonical (f) : (modBoot f s).canonical = s.canonical := canonical_congr rfl rfl

@[simp ↓] theorem sampleStraps_canonical (a b) : (sampleStraps a b s).canonical = s.canonical := by
  simp [sampleStraps]

@[simp ↓] theorem execBootBegin_canonical (h : s.canonical) (strapA strapB) :
    nextCanonical (execBootBegin strapA strapB s) := by
  simp [execBootBegin, h]

@[simp ↓] theorem execPllLock_canonical (h : s.canonical) : nextCanonical (execPllLock s) := by
  simp [execPllLock, h]

@[simp ↓] theorem execPllLockTimeout_canonical (h : s.canonical) : nextCanonical (execPllLockTimeout s) := by
  simp [execPllLockTimeout, h]

@[simp ↓] theorem bootFault_canonical (h : s.canonical) (f) : (bootFault f s).canonical := by
  simp [bootFault, h]

@[simp ↓] theorem injectedFault_canonical : (injectedFault s).2.canonical = s.canonical := by
  unfold injectedFault
  split <;> simp

@[simp ↓] theorem execPatternTestEnd_canonical (h : s.canonical) (faults) :
    nextCanonical (execPatternTestEnd faults s) := by
  unfold execPatternTestEnd
  split
  · split
    next more t e =>
      have ht : t.canonical := canonical_of_snd e (by simp [h])
      extract_lets l s1
      have h1 : s1.canonical := by simp [s1, ht]
      simpa using foldSt_canonical h1 fun f t ht => bootFault_canonical ht f
  · exact h

@[simp ↓] theorem bootDone_canonical : (bootDone s).canonical = s.canonical := by
  simp [bootDone]

@[simp ↓] theorem bootLockdown_canonical (h : s.canonical) : (bootLockdown s).canonical := by
  simp [bootLockdown, h]

@[simp ↓] theorem pairPut_canonical (h : s.canonical) (r v) : (pairPut r v s).canonical := by
  unfold pairPut
  split <;> simp [h]

@[simp ↓] theorem applyPairs_canonical (h : s.canonical) (l) : (applyPairs l s).2.canonical := by
  induction l generalizing s with
  | nil => exact h
  | cons x l ih =>
    unfold applyPairs
    split
    · split
      · exact ih (by simp [h])
      · exact ih h
    · exact ih h

@[simp ↓] theorem revert_canonical (h : s.canonical) (rs) : (revert rs s).canonical := by
  unfold revert
  exact foldSt_canonical h fun r t ht => by simp [ht]

@[simp ↓] theorem crossRules_canonical (h : s.canonical) : (crossRules s).2.canonical := by
  simp [crossRules, h]

@[simp ↓] theorem wdFromNv_canonical : (wdFromNv s).canonical = s.canonical := by
  simp [wdFromNv]

@[simp ↓] theorem nvElsewhere_canonical (h : s.canonical) : (nvElsewhere s).canonical := by
  unfold nvElsewhere
  exact foldSt_canonical (by simp [h]) fun b t ht => by simp [ht]

@[simp ↓] theorem loadConfig_canonical (h : s.canonical) : (loadConfig s).canonical := by
  have hempty : (setCfgList [] s).canonical := setCfgList_canonical h reset_canonical
  unfold loadConfig
  split
  next bad t e =>
    have ht : t.canonical := canonical_of_snd e (applyPairs_canonical hempty _)
    split
    next rev u e =>
      have hu : u.canonical := canonical_of_snd e (crossRules_canonical ht)
      simp [setCfgList_canonical h hu]

@[simp ↓] theorem loadAuth_canonical (h : s.canonical) (auth) : (loadAuth auth s).canonical := by
  unfold loadAuth
  exact foldSt_canonical h fun n t ht => by simp [ht]

@[simp ↓] theorem loadCopy_canonical (h : s.canonical) (k) : (loadCopy k s).canonical := by
  simp [loadCopy, h]

@[simp ↓] theorem loadCal_canonical (h : s.canonical) : (loadCal s).canonical := by
  simp [loadCal, h]

@[simp ↓] theorem loadSeal_canonical (h : s.canonical) : (loadSeal s).canonical := by
  simp [loadSeal, h]

@[simp ↓] theorem bootLoad_canonical (h : s.canonical) : (bootLoad s).canonical := by
  have hload : (loadSeal (loadCal (loadConfig s))).canonical :=
    loadSeal_canonical (loadCal_canonical (loadConfig_canonical h))
  simp [bootLoad, hload]

@[simp ↓] theorem execFirmwareVerify_canonical (h : s.canonical) (selfTest) :
    nextCanonical (execFirmwareVerify selfTest s) := by
  unfold execFirmwareVerify
  split
  · extract_lets bad s1 s2
    have h1 : s1.canonical := by
      unfold s1
      split <;> simp [h]
    have h2 : s2.canonical := by simp [s2, h1]
    clear_value bad
    split
    · simp [h2]
    · exact foldSt_canonical (by simp [h2]) fun c t ht => report_canonical ht ..
  · exact h

@[simp ↓] theorem abortPort_canonical (p) : (abortPort p s).canonical = s.canonical := by
  unfold abortPort
  dsimp only
  split <;> simp

@[simp ↓] theorem abortJobs_canonical : (abortJobs s).canonical = s.canonical := by
  unfold abortJobs
  dsimp only
  repeat' split
  all_goals simp

@[simp ↓] theorem beginStandby_canonical (h : s.canonical) : (beginStandby s).canonical := by
  simp [beginStandby, h]

@[simp ↓] theorem wakeUp_canonical (causes latched) : (wakeUp causes latched s).canonical = s.canonical := by
  simp [wakeUp]

@[simp ↓] theorem endStandbyEntry_canonical : (endStandbyEntry s).canonical := by
  simp [endStandbyEntry]

@[simp ↓] theorem execStandbyEntry_canonical (h : s.canonical) : nextCanonical (execStandbyEntry s) := by
  unfold execStandbyEntry
  repeat' split
  all_goals simp [h]

@[simp ↓] theorem wakeBy_canonical (causes) : (wakeBy causes s).canonical = s.canonical := by
  unfold wakeBy
  repeat' split
  all_goals simp

@[simp ↓] theorem stbyRise_canonical : (stbyRise s).canonical = s.canonical := canonical_congr rfl rfl

@[simp ↓] theorem execStandbyWake_canonical (h : s.canonical) (csA csB stby) :
    nextCanonical (execStandbyWake csA csB stby s) := by
  simp [execStandbyWake, h]

@[simp ↓] theorem execStandbyTimerWake_canonical (h : s.canonical) : nextCanonical (execStandbyTimerWake s) := by
  simp [execStandbyTimerWake, h]

@[simp ↓] theorem execStbyNFall_canonical (h : s.canonical) : nextCanonical (execStbyNFall s) := by
  unfold execStbyNFall
  simp [h]

@[simp ↓] theorem execStbyNRise_canonical (h : s.canonical) : nextCanonical (execStbyNRise s) := by
  simp [execStbyNRise, h]

@[simp ↓] theorem slotMissed_canonical (g) : (slotMissed g s).canonical = s.canonical := by
  simp [slotMissed]

@[simp ↓] theorem advanceCounter_canonical : (advanceCounter s).canonical = s.canonical := by
  simp [advanceCounter]

@[simp ↓] theorem bootFinish_canonical (h : s.canonical) : (bootFinish s).canonical := by
  unfold bootFinish
  extract_lets safe s1 s2 s3 s4 s5 s6
  have h1 : s1.canonical := by simp [s1, h]
  have h2 : s2.canonical := by simp [s2, h1]
  have h3 : s3.canonical := by simp [s3, h2]
  have h4 : s4.canonical := by simp [s4, h3]
  have h5 : s5.canonical := by simp [s5, h4]
  simp [s6, h5]

@[simp ↓] theorem execBootEnd_canonical (h : s.canonical) (lockstepOk collectorOk) :
    nextCanonical (execBootEnd lockstepOk collectorOk s) := by
  simp [execBootEnd, h]

@[simp ↓] theorem execSafeNAssert_canonical (h : s.canonical) : nextCanonical (execSafeNAssert s) := by
  simp [execSafeNAssert, h]

@[simp ↓] theorem execSafeNRelease_canonical (h : s.canonical) : nextCanonical (execSafeNRelease s) := by
  simp [execSafeNRelease, h]

@[simp ↓] theorem pllFail_canonical (h : s.canonical) : (pllFail s).canonical := by
  unfold pllFail
  dsimp only
  split <;> simp [h]

@[simp ↓] theorem execPllFail_canonical (h : s.canonical) : nextCanonical (execPllFail s) := by
  unfold execPllFail
  split
  · exact injReport_canonical h (fun t ht => pllFail_canonical ht) ..
  · exact h

@[simp ↓] theorem updateGo_canonical : (updateGo s).canonical = s.canonical := canonical_congr rfl rfl

@[simp ↓] theorem execUpdateReboot_canonical (h : s.canonical) : nextCanonical (execUpdateReboot s) := by
  unfold execUpdateReboot
  split <;> simp [h]

@[simp ↓] theorem reqGo_canonical (h : s.canonical) (m) : (reqGo m s).2.canonical := by
  unfold reqGo
  split <;> simp [h]

theorem stateReqH_keeps : stateReqH.Keeps where
  run h m := by simp [stateReqH, h]

@[simp ↓] theorem execStateReqComplete_canonical (h : s.canonical) : nextCanonical (execStateReqComplete s) := by
  simp [execStateReqComplete, h]

/-! ### Host port pins -/

@[simp ↓] theorem csWake_canonical (p) : (csWake p s).canonical = s.canonical := by
  simp [csWake]

@[simp ↓] theorem execSelectBegin_canonical (h : s.canonical) (p) : nextCanonical (execSelectBegin p s) := by
  simp [execSelectBegin, h]

@[simp ↓] theorem execSelectEnd_canonical (h : s.canonical) (p midBeat) :
    nextCanonical (execSelectEnd p midBeat s) := by
  simp [execSelectEnd, h]

@[simp ↓] theorem execHeaderBeat_canonical (h : s.canonical) (p h0 h1) : nextCanonical (execHeaderBeat p h0 h1 s) := by
  simp [execHeaderBeat, h]

@[simp ↓] theorem execPacketComplete_canonical (h : s.canonical) (p payload check) :
    nextCanonical (execPacketComplete p payload check s) := by
  unfold execPacketComplete
  repeat' split
  all_goals simp [h]

@[simp ↓] theorem execStreamBeat_canonical (h : s.canonical) (p w0 w1) : nextCanonical (execStreamBeat p w0 w1 s) := by
  simp [execStreamBeat, h]

@[simp ↓] theorem fetchedReply_canonical (h : s.canonical) (p tag) : (fetchedReply p tag s).canonical := by
  unfold fetchedReply
  dsimp only
  repeat' split
  all_goals simp [h]

@[simp ↓] theorem dropReply_canonical (h : s.canonical) (p) : (dropReply p s).canonical := by
  unfold dropReply
  split <;> simp [h]

@[simp ↓] theorem fetchReply_canonical (h : s.canonical) (p whole) : (fetchReply p whole s).canonical := by
  unfold fetchReply
  split <;> simp [h]

@[simp ↓] theorem execReplyFetch_canonical (h : s.canonical) (p lanes whole) :
    nextCanonical (execReplyFetch p lanes whole s) := by
  unfold execReplyFetch
  extract_lets own s1 s2 s3
  have h1 : s1.canonical := by simp [s1, h]
  have h2 : s2.canonical := by
    unfold s2
    split <;> simp [h1]
  have h3 : s3.canonical := by simp [s3, h2]
  split
  · exact h
  · rw [nextCanonical_next]
    split
    · split <;> simp [h3]
    · exact h3

@[simp ↓] theorem daisyOn_canonical (p) : (daisyOn p s).canonical = s.canonical := by
  simp [daisyOn]

@[simp ↓] theorem execDaisySelectBegin_canonical (h : s.canonical) (p) : nextCanonical (execDaisySelectBegin p s) := by
  simp [execDaisySelectBegin, h]

@[simp ↓] theorem daisyAct_canonical (h : s.canonical) (p n on) : (daisyAct p n on s).canonical := by
  unfold daisyAct
  split <;> simp [h]

@[simp ↓] theorem daisyAccept_canonical (h : s.canonical) (p img) : (daisyAccept p img s).canonical := by
  unfold daisyAccept
  extract_lets x c base s1 s2
  have h1 : s1.canonical := by simp [s1, h]
  have h2 : s2.canonical := by simp [s2, h1]
  split
  · exact foldSt_canonical h2 fun i t ht => by simp [ht]
  · exact h1

@[simp ↓] theorem daisyReject_canonical (h : s.canonical) (p crc) : (daisyReject p crc s).canonical := by
  simp [daisyReject, h]

@[simp ↓] theorem daisyOff_canonical (h : s.canonical) (p edges bits) : (daisyOff p edges bits s).canonical := by
  simp [daisyOff, h]

@[simp ↓] theorem execDaisyFrame_canonical (h : s.canonical) (p edges bits) :
    nextCanonical (execDaisyFrame p edges bits s) := by
  simp [execDaisyFrame, h]

@[simp ↓] theorem daisyExpire_canonical (h : s.canonical) (p) : (daisyExpire p s).canonical := by
  simp [daisyExpire, h]

@[simp ↓] theorem execDaisyTimeout_canonical (h : s.canonical) (p) : nextCanonical (execDaisyTimeout p s) := by
  simp [execDaisyTimeout, h]

/-! ### Fault injection -/

@[simp ↓] theorem vfgForcedLow_canonical (g) : (vfgForcedLow g s).canonical = s.canonical := by
  simp [vfgForcedLow]

@[simp ↓] theorem injAct_canonical (h : s.canonical) (d c u) : (injAct d c u s).canonical := by
  unfold injAct
  split
  · simp [h]
  · split
    case h_1 => exact List.foldlRecOn (motive := fun t : State => t.canonical = true) _ _ h fun t ht _ _ => by simp [ht]
    all_goals simp [h]

@[simp ↓] theorem injDone_canonical (a) : (injDone a s).canonical = s.canonical := by
  simp [injDone]

@[simp ↓] theorem injectGo_canonical (h : s.canonical) (m) : (injectGo m s).2.canonical := by
  unfold injectGo
  split <;> simp [h]

theorem injectH_keeps : injectH.Keeps where
  run h m := by simp [injectH, h]

@[simp ↓] theorem execInjectTimedEnd_canonical (h : s.canonical) : nextCanonical (execInjectTimedEnd s) := by
  unfold execInjectTimedEnd
  repeat' split
  all_goals simp [h]

/-! ### Every command, every step -/

/-- Every command keeps the canonical form: an event by the lemma of its row, a packet by what its handler does, a register
access by what the register's write does. -/
theorem exec_canonical (h : s.canonical) (i : Instr) : nextCanonical (exec i s) :=
  match i with
  | .powerOn => execPowerOn_canonical h
  | .vsupBrownout .. => execVsupBrownout_canonical h ..
  | .vsupLoss => execVsupLoss_canonical h
  | .vioLoss => execVioLoss_canonical h
  | .resetNPulse .. => execResetNPulse_canonical h ..
  | .resetTakeHold => execResetTakeHold_canonical h
  | .bootBegin .. => execBootBegin_canonical h ..
  | .pllLock => execPllLock_canonical h
  | .pllLockTimeout => execPllLockTimeout_canonical h
  | .patternTestEnd .. => execPatternTestEnd_canonical h ..
  | .firmwareVerify .. => execFirmwareVerify_canonical h ..
  | .groupBringUp .. => execGroupBringUp_canonical h ..
  | .linkUp .. => execLinkUp_canonical h ..
  | .linkLockTimeout .. => execLinkLockTimeout_canonical h ..
  | .bootEnd .. => execBootEnd_canonical h ..
  | .safeNAssert => execSafeNAssert_canonical h
  | .safeNRelease => execSafeNRelease_canonical h
  | .stbyNFall => execStbyNFall_canonical h
  | .standbyEntry => execStandbyEntry_canonical h
  | .standbyWake .. => execStandbyWake_canonical h ..
  | .standbyTimerWake => execStandbyTimerWake_canonical h
  | .selectBegin .. => execSelectBegin_canonical h ..
  | .selectEnd .. => execSelectEnd_canonical h ..
  | .headerBeat .. => execHeaderBeat_canonical h ..
  | .packetComplete .. => execPacketComplete_canonical h ..
  | .streamBeat .. => execStreamBeat_canonical h ..
  | .daisySelectBegin .. => execDaisySelectBegin_canonical h ..
  | .daisyFrame .. => execDaisyFrame_canonical h ..
  | .daisyTimeout .. => execDaisyTimeout_canonical h ..
  | .replyFetch .. => execReplyFetch_canonical h ..
  | .tapIdleTimeout .. => execTapIdleTimeout_canonical h ..
  | .safeNowAck .. => execSafeNowAck_canonical h ..
  | .rackComplete => execRackComplete_canonical h
  | .replayBegin => execReplayBegin_canonical h
  | .replayRecordAct => execReplayRecordAct_canonical h
  | .replayEnd => execReplayEnd_canonical h
  | .calArmTimeout => execCalArmTimeout_canonical h
  | .calButtonPress .. => execCalButtonPress_canonical h ..
  | .calCaptureConversion .. => execCalCaptureConversion_canonical h ..
  | .calCaptureEnd => execCalCaptureEnd_canonical h
  | .calStoreOpEnd => execCalStoreOpEnd_canonical h
  | .attestComplete => execAttestComplete_canonical h
  | .sealLoadComplete => execSealLoadComplete_canonical h
  | .ownerEnrollComplete => execOwnerEnrollComplete_canonical h
  | .ownerReleaseComplete => execOwnerReleaseComplete_canonical h
  | .nvUpdateEraseDone => execNvUpdateEraseDone_canonical h
  | .updateReboot => execUpdateReboot_canonical h
  | .stateReqComplete => execStateReqComplete_canonical h
  | .injectTimedEnd => execInjectTimedEnd_canonical h
  | .miTestEnd .. => execMiTestEnd_canonical h ..
  | .mmpHostRead .. => execMmpHostRead_canonical h ..
  | .snapshotRead .. => execSnapshotRead_canonical h ..
  | .stagedWordWrite .. => execStagedWordWrite_canonical h ..
  | .angleEdge .. => execAngleEdge_canonical h ..
  | .edgeTakeup => execEdgeTakeup_canonical h
  | .edgeMissing => execEdgeMissing_canonical h
  | .trackerStopTimeout => execTrackerStopTimeout_canonical h
  | .cycleBoundary => execCycleBoundary_canonical h
  | .bankDecision => execBankDecision_canonical h
  | .timeBankPeriod => execTimeBankPeriod_canonical h
  | .lookaheadEntry => execLookaheadEntry_canonical h
  | .commitHorizon => execCommitHorizon_canonical h
  | .skewCheck => execSkewCheck_canonical h
  | .markExecute => execMarkExecute_canonical h
  | .downstreamFrameSend .. => execDownstreamFrameSend_canonical h ..
  | .downstreamFrameReceive .. => execDownstreamFrameReceive_canonical h ..
  | .upstreamFrameSend .. => execUpstreamFrameSend_canonical h ..
  | .upstreamFrameReceive .. => execUpstreamFrameReceive_canonical h ..
  | .linkLost .. => execLinkLost_canonical h ..
  | .fieldLinkLost .. => execFieldLinkLost_canonical h ..
  | .linkWatchdogExpiry .. => execLinkWatchdogExpiry_canonical h ..
  | .safeHoldEnd .. => execSafeHoldEnd_canonical h ..
  | .fieldPark .. => execFieldPark_canonical h ..
  | .fieldPowerUp .. => execFieldPowerUp_canonical h ..
  | .vfgLow .. => execVfgLow_canonical h ..
  | .vfgLowEnd .. => execVfgLowEnd_canonical h ..
  | .vfgMissing .. => execVfgMissing_canonical h ..
  | .supplyGoodWaitEnd .. => execSupplyGoodWaitEnd_canonical h ..
  | .actionExecute .. => execActionExecute_canonical h ..
  | .sampleTimerInstant => execSampleTimerInstant_canonical h
  | .conversion .. => execConversion_canonical h ..
  | .panOpen .. => execPanOpen_canonical h ..
  | .panClose .. => execPanClose_canonical h ..
  | .panClosed .. => execPanClosed_canonical h ..
  | .diEdge .. => execDiEdge_canonical h ..
  | .rawDiTransition .. => execRawDiTransition_canonical h ..
  | .freqTimeout .. => execFreqTimeout_canonical h ..
  | .diagTimer .. => execDiagTimer_canonical h ..
  | .diagThresholdSwap .. => execDiagThresholdSwap_canonical h ..
  | .limitTimerTrip .. => execLimitTimerTrip_canonical h ..
  | .guardStep .. => execGuardStep_canonical h ..
  | .thermalLatchSet .. => execThermalLatchSet_canonical h ..
  | .thermalLatchClear .. => execThermalLatchClear_canonical h ..
  | .retryPauseEnd .. => execRetryPauseEnd_canonical h ..
  | .retryCountReset .. => execRetryCountReset_canonical h ..
  | .inrushWindowEnd .. => execInrushWindowEnd_canonical h ..
  | .pwmEdge .. => execPwmEdge_canonical h ..
  | .pwmHitEnd .. => execPwmHitEnd_canonical h ..
  | .monitorStep .. => execMonitorStep_canonical h ..
  | .analogDiagTimer .. => execAnalogDiagTimer_canonical h ..
  | .complianceTimer .. => execComplianceTimer_canonical h ..
  | .headroomStep .. => execHeadroomStep_canonical h ..
  | .hrErrTimer .. => execHrErrTimer_canonical h ..
  | .govTempStep .. => execGovTempStep_canonical h ..
  | .govReleaseStep => execGovReleaseStep_canonical h
  | .govDeferTimeout .. => execGovDeferTimeout_canonical h ..
  | .govOverTimer => execGovOverTimer_canonical h
  | .fieldTempEvent .. => execFieldTempEvent_canonical h ..
  | .moderatorTimerFire .. => execModeratorTimerFire_canonical h ..
  | .irqTimerTick => execIrqTimerTick_canonical h
  | .faultWindowEnd .. => execFaultWindowEnd_canonical h ..
  | .heartbeatMissing => execHeartbeatMissing_canonical h
  | .wdWarning => execWdWarning_canonical h
  | .wdExpiry => execWdExpiry_canonical h
  | .wdClockMonitorTrip .. => execWdClockMonitorTrip_canonical h ..
  | .pllFail => execPllFail_canonical h
  | .scrubRead => execScrubRead_canonical h
  | .lineRefetchDone .. => execLineRefetchDone_canonical h ..
  | .segmentTimer => execSegmentTimer_canonical h
  | .cfghashRecord => execCfghashRecord_canonical h
  | .segmentHashDone => execSegmentHashDone_canonical h
  | .anchorSigned => execAnchorSigned_canonical h
  | .autoRackPageDone => execAutoRackPageDone_canonical h
  | .mmpTransactionStart => execMmpTransactionStart_canonical h
  | .mmpTransactionEnd .. => execMmpTransactionEnd_canonical h ..
  | .mmpStatusPoll .. => execMmpStatusPoll_canonical h ..
  | .mmpPollTimeout => execMmpPollTimeout_canonical h
  | .mmpStrobeTimeout => execMmpStrobeTimeout_canonical h
  | .nvUpdateCommitDone => execNvUpdateCommitDone_canonical h
  | .lockstepMismatch => execLockstepMismatch_canonical h
  | .stbyNRise => execStbyNRise_canonical h
  | .hello .. => interp_canonical helloH_keeps h ..
  | .status .. => interp_canonical statusH_keeps h ..
  | .regRead .. => interp_canonical regReadH_keeps h ..
  | .regWrite .. => interp_canonical regWriteH_keeps h ..
  | .tapTake .. => interp_canonical tapTakeH_keeps h ..
  | .tapRelease .. => interp_canonical tapReleaseH_keeps h ..
  | .chanConfig .. => interp_canonical chanConfigH_keeps h ..
  | .chanSet .. => interp_canonical chanSetH_keeps h ..
  | .chanGet .. => interp_canonical chanGetH_keeps h ..
  | .safeNow .. | .relink .. | .groupCmdClrCnt .. => interp_canonical groupH_keeps h ..
  | .trellisLoad .. => interp_canonical trellisLoadH_keeps h ..
  | .trellisArm .. | .trellisStop .. | .trellisHalt .. => interp_canonical trellisArmH_keeps h ..
  | .trellisRead .. => interp_canonical trellisReadH_keeps h ..
  | .panRead .. => interp_canonical panReadH_keeps h ..
  | .wdServe .. => interp_canonical wdServeH_keeps h ..
  | .wdConfigSet .. | .wdConfigStart .. | .wdConfigStop .. => interp_canonical wdConfigH_keeps h ..
  | .irqAck .. => interp_canonical irqAckH_keeps h ..
  | .caskStatus .. | .caskStart .. | .caskStop .. | .caskFreeze .. | .caskClear .. | .caskNote .. =>
    interp_canonical caskCtrlH_keeps h ..
  | .caskRead .. => interp_canonical caskReadH_keeps h ..
  | .rack .. => interp_canonical rackH_keeps h ..
  | .replayStart .. | .replayAbort .. => interp_canonical replayH_keeps h ..
  | .calSet .. => interp_canonical calSetH_keeps h ..
  | .calArm .. | .calArmCancel .. => interp_canonical calArmH_keeps h ..
  | .attest .. => interp_canonical attestH_keeps h ..
  | .sealLoad .. => interp_canonical sealH_keeps h ..
  | .ownerEnroll .. => interp_canonical enrollH_keeps h ..
  | .ownerRelease .. => interp_canonical releaseH_keeps h ..
  | .nvUpdateBegin .. | .nvUpdateAbort .. => interp_canonical beginH_keeps h ..
  | .nvUpdateData .. => interp_canonical dataH_keeps h ..
  | .nvUpdateCommit .. => interp_canonical commitH_keeps h ..
  | .stateReq .. => interp_canonical stateReqH_keeps h ..
  | .inject .. => interp_canonical injectH_keeps h ..
  | .faultRead .. => interp_canonical faultReadH_keeps h ..
  | .faultAck .. => interp_canonical faultAckH_keeps h ..
  | .portSleep .. => interp_canonical portSleepH_keeps h ..
  | .resetCauseClear .. | .wakeCauseClear .. | .portErrClear .. | .portDaisyClear .. | .tbLockClear ..
  | .trackerConfigWrite .. | .trkReseek .. | .trkPhase0 .. | .trkPhase1 .. | .trkClrLearn .. | .trkClrCnt ..
  | .seqClrCnt .. | .smpFire .. | .smpClrCnt .. | .panCmdOpen .. | .panCmdClose .. | .panCmdRelease ..
  | .modeChange .. | .dctlClrLatch .. | .dctlClrCnt .. | .dctlClrEvt .. | .actlClrEvt .. | .grpClrCnt ..
  | .grpClrEvt .. | .govClrCnt .. | .ipendWrite .. | .ienWrite .. | .intCfgWrite .. | .portPrioWrite ..
  | .modCfgWrite .. | .irqBellRing .. | .miTestRun .. | .miClrCnt .. | .meminjArm .. | .secClrCnt ..
  | .caskClrLoss .. | .caskAutoResume .. | .mmpClrCnt .. | .mmpClrErr .. | .injCancel .. | .mmpHostWrite .. =>
    regRow_canonical h ..

theorem tick_canonical : (tick s).canonical = s.canonical := canonical_congr rfl rfl

theorem pending_canonical (l) : ({ s with pending := l } : State).canonical = s.canonical := canonical_congr rfl rfl

theorem step_canonical (h : s.canonical) : nextCanonical (step s) := by
  unfold step
  split
  next => simp [tick_canonical, h]
  next c l _ =>
    have hrest : ({ s with pending := l } : State).canonical := by rwa [pending_canonical]
    exact exec_canonical hrest c

/-- Settles O60: each command keeps the canonical form, and so does a tick. -/
theorem stepKeepsCanonical : Obligations.StepKeepsCanonical := by
  intro s t h hstep
  have hnext := step_canonical h
  rwa [hstep] at hnext

end Sys2Proof.Machine
end

section
/-! The rows of BOOT (O34), in their order. A report of a fault, the resolving of a group's samples and the loading of the
stores each have one relation or equation that says what they can change; the end of BOOT goes through many operations,
and of each one lemma says that it leaves the time, and the power state or the part of it that shows, as they are. -/

namespace Sys2Proof.Machine

variable {s t : State}

/-! ### Straps and PLL -/

/-- BOOT is in a phase and no reset has been recognised. -/
theorem bootAt_iff {ph : BootPhase} :
    bootAt s ph = true ↔ s.pw.dev = .boot ∧ s.pw.boot.phase = ph ∧ s.pw.resetSeq = none := by
  simp [bootAt, resetting, and_assoc]

/-- Each port takes the mode of its own strap (R63). -/
theorem sampleStraps_prt (a b : Bool) (p : Port) :
    prt (sampleStraps a b s) p
      = { prt s p with daisy := (match p with | .a => a | .b => b), awake := !(match p with | .a => a | .b => b) } := by
  cases p with
  | a => exact (prt_modPort_other .b _ _).trans (prt_modPort_same ..)
  | b => exact (prt_modPort_same ..).trans (by rw [show prt _ .b = _ from prt_modPort_other .a _ s]; rfl)

/-- BOOT begins (R63, R87): t0 is now, or the end of the low pulse on RESET_N, and the straps are sampled. -/
theorem execBootBegin_waiting {a b : Bool} (h : bootAt s .waiting = true) :
    ∃ t, exec (.bootBegin a b) s = .next t ∧ t.now = max s.now s.pw.resetLowUntil
      ∧ t.pw.boot = { s.pw.boot with phase := .pll, t0 := t.now } ∧ t.pw.dev = .boot
      ∧ prt t .a = { prt s .a with daisy := a, awake := !a } ∧ prt t .b = { prt s .b with daisy := b, awake := !b }
      ∧ t = { s with now := t.now, pw := t.pw, ports := t.ports } := by
  have hexec : exec (.bootBegin a b) s = execBootBegin a b s := rfl
  rw [hexec, execBootBegin, if_pos h]
  exact ⟨_, rfl, rfl, rfl, (bootAt_iff.1 h).1, sampleStraps_prt a b .a, sampleStraps_prt a b .b, rfl⟩

/-- The PLL locks within its time (R194, R470): the timebase starts at 0 with every memory cleared. -/
theorem execPllLock_locks (h : bootAt s .pll = true) (ht : s.now ≤ s.pw.boot.t0 + 250000) :
    ∃ t, exec .pllLock s = .next t ∧ tbNow t = 0 ∧ t = { s with
      pw := { s.pw with tb0 := some s.now, boot := { s.pw.boot with phase := .pattern } }, mems := Vector.replicate 16 [] } := by
  have hexec : exec .pllLock s = execPllLock s := rfl
  rw [hexec, execPllLock, if_pos (by simp [h, ms, ht])]
  exact ⟨_, rfl, by simp [tbNow, modBoot], rfl⟩

/-- The PLL has not locked (R88): BOOT has a new t0; the straps stay as sampled (log entry 47). -/
theorem execPllLockTimeout_restarts (h : bootAt s .pll = true) :
    exec .pllLockTimeout s = .next { s with
      now := max s.now (s.pw.boot.t0 + 250000)
      pw := { s.pw with boot := { s.pw.boot with t0 := max s.now (s.pw.boot.t0 + 250000) } } } := by
  have hexec : exec .pllLockTimeout s = execPllLockTimeout s := rfl
  rw [hexec, execPllLockTimeout, if_pos h]
  rfl

/-! ### What a report can change -/

/-- From `s` to `t` nothing has changed but what a report of a fault can change where it does not itself end in LOCKDOWN; a
held fatal record stays, and while the cask is idle it and the protected memories are left alone. -/
def FltStep (s t : State) : Prop :=
  t = { s with flt := t.flt, irq := t.irq, aon := t.aon, ports := t.ports, mems := t.mems, mi := t.mi, mmp := t.mmp,
               cask := t.cask
               pw := { s.pw with resetSeq := t.pw.resetSeq, boot := { s.pw.boot with secFail := t.pw.boot.secFail } } }
    ∧ (s.aon.fatalHeld = true → t.aon.fatalHeld = true) ∧ (s.cask.st = .idle → t.cask = s.cask ∧ t.mems = s.mems)

theorem FltStep.refl (s : State) : FltStep s s := ⟨rfl, id, fun _ => ⟨rfl, rfl⟩⟩

theorem FltStep.trans {u : State} (h : FltStep s t) (k : FltStep t u) : FltStep s u := by
  obtain ⟨hst, haon, hidle⟩ := h
  obtain ⟨kst, kaon, kidle⟩ := k
  refine ⟨by rw [hst] at kst; exact kst, fun w => kaon (haon w), fun w => ?_⟩
  obtain ⟨hcask, hmems⟩ := hidle w
  obtain ⟨kcask, kmems⟩ := kidle (hcask ▸ w)
  exact ⟨kcask.trans hcask, kmems.trans hmems⟩

theorem FltStep.dev (h : FltStep s t) : t.pw.dev = s.pw.dev := by rw [h.1]
theorem FltStep.patternFail (h : FltStep s t) : t.pw.patternFail = s.pw.patternFail := by rw [h.1]

theorem FltStep.flt (h : FltStep s t) (f : Faults → Faults) : FltStep s (modFlt f t) :=
  h.trans ⟨rfl, id, fun _ => ⟨rfl, rfl⟩⟩

theorem FltStep.mi (h : FltStep s t) (f : Mi → Mi) : FltStep s (modMi f t) :=
  h.trans ⟨rfl, id, fun _ => ⟨rfl, rfl⟩⟩

theorem FltStep.raise (h : FltStep s t) (n : Fin 96) : FltStep s (raise n t) :=
  h.trans ⟨by rw [raise_only n t], by simp, by simp⟩

theorem FltStep.ite {u : State} (c : Prop) [Decidable c] (h : FltStep s t) (k : FltStep s u) :
    FltStep s (if c then t else u) := by
  split
  · exact h
  · exact k

theorem FltStep.fold {α : Type} {l : List α} {f : α → State → State} (hf : ∀ a t, FltStep t (f a t)) (s : State) :
    FltStep s (foldSt l f s) :=
  List.foldlRecOn (motive := fun t => FltStep s t) l _ (FltStep.refl s) fun t ht a _ => ht.trans (hf a t)

theorem recOn_of_idle (h : s.cask.st = .idle) : recOn s = false := by
  simp [recOn, h]

/-- The recorder's steps are within the reach of a report where they are taken only while the cask records. -/
theorem RecStep.fltStep (h : RecStep s t) (hon : s.cask.st ≠ .idle) : FltStep s t := by
  refine ⟨?_, fun w => by rw [h.1]; exact w, fun w => absurd w hon⟩
  have h1 := h.1
  generalize t.mems = a, t.mi = b, t.irq = c, t.mmp = d, t.cask = e at h1
  subst h1
  rfl

theorem FltStep.recFault (h : FltStep s t) (d c cls : Nat) (p : Bool) (unit : Nat) : FltStep s (recFault d c cls p unit t) := by
  refine h.trans ?_
  by_cases hidle : t.cask.st = .idle
  · have hsame : Machine.recFault d c cls p unit t = t := by
      simp [Machine.recFault, recNow, recOffer, recOn_of_idle hidle]
    rw [hsame]
    exact FltStep.refl t
  · exact RecStep.fltStep (RecStep.ite _ ((RecStep.refl t).recNow ..) (RecStep.refl t)) hidle

theorem FltStep.logAdd (h : FltStep s t) (d c cls : Nat) (p : Bool) (unit : Nat) : FltStep s (logAdd d c cls p unit t) :=
  h.trans ⟨rfl, id, fun _ => ⟨rfl, rfl⟩⟩

theorem FltStep.setFltCnt (h : FltStep s t) (d c : Nat) (x : FltCnt) : FltStep s (setFltCnt d c x t) := h.flt _

theorem FltStep.holdFault (h : FltStep s t) (d : Fin 12) (c unit : Nat) (p : Bool) : FltStep s (holdFault d c unit p t) := by
  unfold Machine.holdFault
  split
  · exact h
  · exact h.flt _

theorem FltStep.startReset (h : FltStep s t) (c : BitVec 7) (f : Bool) : FltStep s (startReset c f t) :=
  h.trans ⟨rfl, id, fun _ => ⟨rfl, rfl⟩⟩

theorem writeFrec_held (d c unit : Nat) (esc : Bool) (pc pu : Nat) : (writeFrec d c unit esc pc pu s).aon.fatalHeld = true := by
  by_cases hheld : s.aon.fatalHeld = true <;> simp [writeFrec, hheld]

theorem FltStep.writeFrec (h : FltStep s t) (d c unit : Nat) (esc : Bool) (pc pu : Nat) :
    FltStep s (writeFrec d c unit esc pc pu t) :=
  h.trans ⟨rfl, fun _ => writeFrec_held .., fun _ => ⟨rfl, rfl⟩⟩

/-- The cask closes its segment and stops before a reset (R523): only while it records. -/
theorem FltStep.caskStops (h : FltStep s t) : FltStep s
    (if recOn t ∧ t.cask.opened then modCask (fun k => { k with st := .idle }) (segClose 4 false t) else t) := by
  split
  next hon =>
    refine h.trans (RecStep.fltStep (((RecStep.refl t).segClose ..).cask _) fun hidle => ?_)
    simp [recOn_of_idle hidle] at hon
  · exact h

theorem FltStep.fatal (h : FltStep s t) (d : Fin 12) (c unit : Nat) (esc : Bool) (pc pu : Nat) :
    FltStep s (fatal d c unit esc pc pu t) := by
  have hrec := h.recFault d.val c 3 false unit
  unfold Machine.fatal
  dsimp only
  split
  · exact (hrec.holdFault ..).trans ⟨rfl, id, fun _ => ⟨rfl, rfl⟩⟩
  · exact (hrec.caskStops.writeFrec ..).startReset ..

theorem FltStep.freezeOnFault (h : FltStep s t) : FltStep s (freezeOnFault t) := by
  unfold Machine.freezeOnFault
  split
  next hon => exact h.trans (RecStep.fltStep ((RecStep.refl t).caskFreezeGo _) (by simp [hon.1]))
  · exact h

/-- A report in the domain does not end in LOCKDOWN: it is no security failure, or BOOT or LOCKDOWN meets it (R486, R502). -/
def HoldsState (d : Fin 12) (s : State) : Prop := d.val ≠ 9 ∨ s.pw.dev = .boot ∨ s.pw.dev = .lockdown

theorem HoldsState.step {d : Fin 12} (hd : HoldsState d s) (h : FltStep s t) : HoldsState d t := by
  simpa only [HoldsState, h.dev] using hd

theorem FltStep.securityEvent {d : Fin 12} (hd : HoldsState d s) (h : FltStep s t) (c : Nat) (cls : FltClass) :
    FltStep s (securityEvent d c cls t) := by
  have hd' := hd.step (h.raise 87)
  unfold Machine.securityEvent
  dsimp only
  split
  next hsec =>
    refine FltStep.ite _ ?_ (h.raise _)
    split
    · exact (h.raise _).trans ⟨rfl, id, fun _ => ⟨rfl, rfl⟩⟩
    next hboot =>
      have hlock : (Machine.raise 87 t).pw.dev = .lockdown := (hd'.resolve_left (not_not_intro hsec)).resolve_left hboot
      rw [enterLockdown, if_pos (Or.inl hlock)]
      exact h.raise _
  · exact h

theorem FltStep.contain {d : Fin 12} (hd : HoldsState d s) (h : FltStep s t) (c unit : Nat) (promoted : Bool) :
    FltStep s (contain d c unit promoted t) := by
  unfold Machine.contain
  split
  · exact FltStep.ite _ (((h.logAdd ..).recFault ..).raise _) (h.fatal ..)
  · exact (((((h.holdFault ..).logAdd ..).recFault ..).raise _).freezeOnFault).securityEvent hd ..

/-- What a report of a detector can change (R437 to R441). -/
theorem FltStep.report {d : Fin 12} (hd : HoldsState d s) (h : FltStep s t) (c unit : Nat) :
    FltStep s (report d c unit t) := by
  unfold Machine.report
  split
  · exact h
  · have hcount : FltStep s (countCorrected d c t) := h.setFltCnt ..
    have hlog := (FltStep.ite (cfgBit (countCorrected d c t) (.fltCfg d) 15 = true)
      (hcount.logAdd d.val c 1 false unit) hcount).recFault d.val c 1 false unit
    dsimp only
    generalize Machine.recFault d.val c 1 false unit _ = u at hlog ⊢
    have hev := (FltStep.ite (cfgBit u (.fltCfg d) 16 = true) (hlog.raise 82) hlog).securityEvent hd c .corrected
    exact FltStep.ite _ ((hev.setFltCnt ..).contain hd ..) hev
  · exact (h.setFltCnt ..).contain hd ..
  · exact (h.setFltCnt ..).fatal ..

/-! ### The pattern test -/

theorem bootFault_step (f : PatternFault) (s : State) : FltStep s (bootFault f s) := by
  have hseven : HoldsState 7 s := .inl (by decide)
  have hcnt : ∀ g, FltStep s (modCnt f.mem g s) := fun g => (FltStep.refl s).mi _
  unfold bootFault testFault fatalInBoot
  exact FltStep.ite _ (FltStep.ite _ ((hcnt _).report hseven ..) ((hcnt _).report hseven ..))
    (((hcnt _).setFltCnt ..).writeFrec ..)

theorem bootFault_held {f : PatternFault} (hf : f.mendable = false) : (bootFault f s).aon.fatalHeld = true := by
  simp [bootFault, hf, fatalInBoot, writeFrec_held]

/-- One unmendable fault among those found is enough: what comes after it keeps the record. -/
theorem bootFaults_held {f : PatternFault} {l : List PatternFault} (hl : f ∈ l) (hf : f.mendable = false) (s : State) :
    (foldSt l bootFault s).aon.fatalHeld = true := by
  obtain ⟨before, after, rfl⟩ := List.append_of_mem hl
  have hstep := FltStep.fold bootFault_step (l := after) (bootFault f (foldSt before bootFault s))
  simpa [foldSt] using hstep.2.1 (bootFault_held hf)

/-- The pattern test of BOOT selects every memory. -/
theorem mem_selFaults_all {f : PatternFault} {l : List PatternFault} : f ∈ selFaults 0xFFFF l ↔ f ∈ l := by
  have hall : ∀ m : Fin 16, bit (0xFFFF : BitVec 16) m.val = true ∧ m ∈ memAll := by decide
  rw [selFaults, List.mem_flatMap]
  exact ⟨fun ⟨_, _, hf⟩ => (List.mem_filter.1 hf).1, fun hl => ⟨f.mem, (hall f.mem).2, List.mem_filter.2
    ⟨hl, by rw [(hall f.mem).1, beq_self_eq_true, Bool.and_true]⟩⟩⟩

theorem selFaults_all_any (p : PatternFault → Bool) (l : List PatternFault) : (selFaults 0xFFFF l).any p = l.any p :=
  Bool.eq_iff_iff.2 (by simp only [List.any_eq_true, mem_selFaults_all])

/-- The state in which the faults that the test found are reported: memories cleared, the verdict known. -/
def patternTested (l : List PatternFault) (s : State) : State :=
  modPw (fun p => { p with patternFail := (selFaults 0xFFFF l).any fun f => !f.mendable })
    (modMems (fun _ => Vector.replicate 16 []) s)

theorem execPatternTestEnd_eq {l : List PatternFault} (h : bootAt s .pattern = true) (hinj : s.aon.inj75 = none) :
    exec (.patternTestEnd l) s = .next (modBoot (fun b => { b with phase := .firmware })
      (foldSt (selFaults 0xFFFF l) bootFault (patternTested l s))) := by
  have hexec : exec (.patternTestEnd l) s = execPatternTestEnd l s := rfl
  have hnone : injectedFault s = ([], s) := by simp [injectedFault, hinj]
  rw [hexec, execPatternTestEnd, if_pos h, hnone]
  dsimp only
  rw [List.append_nil]
  rfl

/-- The pattern test ends with every memory cleared, and an unmendable fault with a fatal record (R89, R443, R470, R478). -/
theorem execPatternTestEnd_clears {l : List PatternFault} (h : bootAt s .pattern = true) (hinj : s.aon.inj75 = none)
    (hcask : s.cask.st = .idle) :
    ∃ t, exec (.patternTestEnd l) s = .next t ∧ t.pw.boot.phase = .firmware ∧ (∀ k : Fin 16, t.mems[k] = [])
      ∧ t.pw.patternFail = l.any (fun f => !f.mendable) ∧ ((∃ f ∈ l, f.mendable = false) → t.aon.fatalHeld = true) := by
  have hstep := FltStep.fold bootFault_step (l := selFaults 0xFFFF l) (patternTested l s)
  refine ⟨_, execPatternTestEnd_eq h hinj, rfl, fun k => ?_, ?_, fun ⟨f, hl, hf⟩ => ?_⟩
  · have hmems : (foldSt (selFaults 0xFFFF l) bootFault (patternTested l s)).mems = Vector.replicate 16 [] :=
      (hstep.2.2 hcask).2
    simp only [modBoot, modPw_mems, hmems, Fin.getElem_fin, Vector.getElem_replicate]
  · exact hstep.patternFail.trans (selFaults_all_any ..)
  · exact bootFaults_held (mem_selFaults_all.2 hl) hf _

/-! ### Resolving the samples of a group -/

/-- From `s` to `t` nothing outside the reach of the pans and the recorder has changed. -/
def PanStep (s t : State) : Prop :=
  t = { s with mems := t.mems, mi := t.mi, irq := t.irq, mmp := t.mmp, cask := t.cask, smp := t.smp }

theorem PanStep.refl (s : State) : PanStep s s := rfl

theorem PanStep.trans {u : State} (h : PanStep s t) (k : PanStep t u) : PanStep s u := by
  rw [PanStep] at h k
  rw [h] at k
  exact k

theorem PanStep.now_eq (h : PanStep s t) : t.now = s.now := by rw [h]
theorem PanStep.links_eq (h : PanStep s t) : t.links = s.links := by rw [h]

theorem PanStep.smp (h : PanStep s t) (f : Smp → Smp) : PanStep s (modSmp f t) := h.trans rfl
theorem PanStep.pan (h : PanStep s t) (g : Grp) (p : Fin 16) (f : Pan → Pan) : PanStep s (modPan g p f t) := h.trans rfl
theorem PanStep.mi (h : PanStep s t) (f : Mi → Mi) : PanStep s (modMi f t) := h.trans rfl

theorem RecStep.panStep (h : RecStep s t) : PanStep s t := by
  have h1 := h.1
  generalize t.mems = a, t.mi = b, t.irq = c, t.mmp = d, t.cask = e at h1
  subst h1
  rfl

theorem PanStep.ite {u : State} (c : Prop) [Decidable c] (h : PanStep s t) (k : PanStep s u) :
    PanStep s (if c then t else u) := by
  split
  · exact h
  · exact k

theorem PanStep.fold {α : Type} (h : PanStep s t) (l : List α) {f : State → α → State} (hf : ∀ u a, PanStep u (f u a)) :
    PanStep s (l.foldl f t) :=
  List.foldlRecOn (motive := fun u => PanStep s u) l _ h fun u hu a _ => hu.trans (hf u a)

theorem PanStep.memPut (h : PanStep s t) (m : Fin 16) (a : Nat) (w : Word) : PanStep s (memPut m a w t) := by
  have hflip : ∀ (u : State) (c : Cell) (f : Mi → Mi), PanStep u (Machine.raise 95 (memSet m a c (modMi f u))) :=
    fun u c f => PanStep.trans (t := memSet m a c (modMi f u)) rfl ((RecStep.refl _).raise 95).panStep
  unfold Machine.memPut
  dsimp only
  have hset := h.trans (u := memSet m a (if (lineBank t m).isSome then plainCell w else encWord w) t) rfl
  generalize memSet m a (if (lineBank t m).isSome then plainCell w else encWord w) t = u at hset ⊢
  cases lineBank t m with
  | none => exact PanStep.ite _ ((PanStep.ite _ (hset.mi _) hset).trans (hflip ..)) (PanStep.ite _ (hset.mi _) hset)
  | some b =>
    have hline : PanStep s (setLineCrc b (a / 8) (crc16 (lineWords u m (a / 8))) u) := hset.mi _
    exact PanStep.ite _ ((PanStep.ite _ (hline.mi _) hline).trans (hflip ..)) (PanStep.ite _ (hline.mi _) hline)

theorem PanStep.memPuts (h : PanStep s t) (m : Fin 16) (a : Nat) (ws : List Word) : PanStep s (memPuts m a ws t) :=
  h.fold _ fun u _ => (PanStep.refl u).memPut ..

theorem PanStep.writeBlock (h : PanStep s t) (g : Grp) (p : Fin 16) (l : List (Word × BitVec 4)) :
    PanStep s (writeBlock g p l t) :=
  (h.memPuts ..).pan ..

theorem PanStep.flushBlocks (h : PanStep s t) (g : Grp) (p : Fin 16) (n : Nat) : PanStep s (flushBlocks g p n t) := by
  induction n generalizing t with
  | zero => exact h
  | succ n ih => exact PanStep.ite _ h (ih ((h.pan ..).writeBlock ..))

theorem PanStep.panSet (h : PanStep s t) (g : Grp) (p : Fin 16) (stamp : Nat) (l : List (Word × BitVec 4)) :
    PanStep s (panSet g p stamp l t) :=
  PanStep.ite _ (h.pan ..) ((h.pan ..).flushBlocks ..)

theorem PanStep.panTake (h : PanStep s t) (g : Grp) (p : Fin 16) (stamp : Nat) (l : List (Word × BitVec 4)) :
    PanStep s (panTake g p stamp l t) :=
  PanStep.ite _ (PanStep.ite _ ((h.pan ..).panSet ..) (h.pan ..)) (PanStep.ite _ ((h.pan ..).panSet ..) (h.pan ..))

theorem PanStep.panOffer (h : PanStep s t) (g : Grp) (stamp : Nat) (ex : List (BitVec 8 × BitVec 3)) (l : List Sample)
    (p : Fin 16) : PanStep s (panOffer g stamp ex l p t) :=
  PanStep.ite _ ((h.pan ..).panTake ..) h

theorem PanStep.recAdc (h : PanStep s t) (g : Grp) (stamp : Nat) (ex : List (BitVec 8 × BitVec 3)) (l : List Sample) :
    PanStep s (recAdc g stamp ex l t) := by
  refine h.trans (RecStep.panStep ?_)
  have hdec := fun f => (RecStep.refl t).cask f
  exact RecStep.ite _ (RecStep.ite _ ((hdec _).recOffer ..) (hdec _)) (RecStep.refl t)

theorem PanStep.resolveStamp (h : PanStep s t) (g : Grp) (l : List Sample) (stamp : Nat) : PanStep s (resolveStamp g l stamp t) :=
  PanStep.ite _ (h.smp _) (((h.smp _).recAdc ..).fold _ fun u _ => (PanStep.refl u).panOffer ..)

theorem PanStep.resolveBefore (h : PanStep s t) (g : Grp) (limit : Nat) (l : List Sample) :
    PanStep s (resolveBefore g limit l t) :=
  h.fold _ fun u _ => (PanStep.refl u).resolveStamp ..

/-! ### The bring-up of a group -/

theorem lnk_modLink_same (g : Grp) (f : Link → Link) (s : State) : lnk (modLink g f s) g = f (lnk s g) := by
  rw [lnk, modLink_links, vmod_get, if_pos rfl]
  rfl

theorem lnk_modLink_other {g k : Grp} (hk : k ≠ g) (f : Link → Link) (s : State) : lnk (modLink g f s) k = lnk s k := by
  rw [lnk, modLink_links, vmod_get, if_neg hk.symm]
  rfl

theorem lnk_of_links {k : Grp} (h : t.links = s.links) : lnk t k = lnk s k := by
  rw [lnk, h]
  rfl

/-- Clearing the link of a group leaves the other links alone. -/
theorem linkClear_lnk_other {g k : Grp} (hk : k ≠ g) : lnk (linkClear g s) k = lnk s k :=
  (lnk_modLink_other hk _ _).trans (lnk_modLink_other hk _ (modSeq _ s))

theorem linkClear_bringUps (g : Grp) : (lnk (linkClear g s) g).bringUps = (lnk s g).bringUps := by
  rw [linkClear, lnk_modLink_same, dropGrpActs, reapActs, lnk_of_links (modSeq_links ..), lnk_modLink_same]
  rfl

@[simp] theorem linkClear_clock (g : Grp) :
    (linkClear g s).now = s.now ∧ (linkClear g s).pw = s.pw ∧ (linkClear g s).aon = s.aon := by
  simp [linkClear, dropGrpActs, reapActs]

/-- The link of a group is cleared, and the samples that were still expected of the group are lost (R285, R381). -/
def cleared (g : Grp) (s : State) : State :=
  resolveBefore g (2 ^ 60) [] (countLost g (expectedOf s g) (linkClear g s))

theorem cleared_step (g : Grp) : PanStep (linkClear g s) (cleared g s) :=
  ((PanStep.refl _).smp _).resolveBefore ..

/-- The earliest instant of a bring-up (R93). -/
def bringUpWait (s : State) : State :=
  match s.pw.lastBringUp with
  | some t => reach (t + 2 * ms) s
  | none => s

theorem bringUpWait_now : (bringUpWait s).now = match s.pw.lastBringUp with
    | some k => max s.now (k + 500000)
    | none => s.now := by
  unfold bringUpWait
  cases s.pw.lastBringUp <;> rfl

theorem bringUpWait_links : (bringUpWait s).links = s.links := by
  unfold bringUpWait
  cases s.pw.lastBringUp <;> rfl

/-- The link begins to range (R381). -/
def startRanging (g : Grp) (s : State) : State :=
  modPw (fun p => { p with lastBringUp := some s.now })
    (modLink g (fun l => { l with st := .ranging, rangingAt := s.now, bringUps := l.bringUps + 1, seqDown := 0 }) s)

theorem execGroupBringUp_boot {g : Grp} (hrun : linksRun s = true) (hslot : bootSlot s g = true) (hres : s.pw.resetSeq = none) :
    exec (.groupBringUp g) s = .next (startRanging g (cleared g (bringUpWait s))) := by
  have hexec : exec (.groupBringUp g) s = execGroupBringUp g s := rfl
  rw [hexec, execGroupBringUp, if_pos (by simp [hrun, hslot, resetting, hres])]
  rfl

theorem bootSlot_bringUps {g : Grp} (h : bootSlot s g = true) : (lnk s g).bringUps = 0 := by
  simp only [bootSlot, Bool.and_eq_true, decide_eq_true_eq] at h
  exact h.1.2

/-- A group of BOOT goes into ranging, 2 ms after the one before at the earliest (R87, R93, R381). -/
theorem execGroupBringUp_ranges {g : Grp} (hrun : linksRun s = true) (hslot : bootSlot s g = true)
    (hres : s.pw.resetSeq = none) :
    ∃ t, exec (.groupBringUp g) s = .next t
      ∧ t.now = (match s.pw.lastBringUp with | some k => max s.now (k + 500000) | none => s.now)
      ∧ t.pw.lastBringUp = some t.now ∧ (lnk t g).st = .ranging ∧ (lnk t g).rangingAt = t.now ∧ (lnk t g).bringUps = 1
      ∧ ∀ k : Grp, k ≠ g → lnk t k = lnk s k := by
  have hstep := cleared_step (s := bringUpWait s) g
  have hlinks : ∀ k, lnk (cleared g (bringUpWait s)) k = lnk (linkClear g (bringUpWait s)) k :=
    fun k => lnk_of_links hstep.links_eq
  have hlink : lnk (startRanging g (cleared g (bringUpWait s))) g = _ := lnk_modLink_same g _ _
  have hnow : (startRanging g (cleared g (bringUpWait s))).now = (bringUpWait s).now := hstep.now_eq.trans (linkClear_clock g).1
  refine ⟨_, execGroupBringUp_boot hrun hslot hres, hnow.trans bringUpWait_now, rfl, by rw [hlink], by rw [hlink]; rfl, ?_,
    fun k hk => ?_⟩
  · rw [hlink, hlinks, linkClear_bringUps, lnk_of_links bringUpWait_links, bootSlot_bringUps hslot]
  · calc lnk (startRanging g (cleared g (bringUpWait s))) k
        = lnk (cleared g (bringUpWait s)) k := lnk_modLink_other hk _ _
      _ = lnk (linkClear g (bringUpWait s)) k := hlinks k
      _ = lnk (bringUpWait s) k := linkClear_lnk_other hk
      _ = lnk s k := lnk_of_links bringUpWait_links

/-! ### Loading configuration and calibration -/

/-- What the loading of registers leaves alone: the power state, the always-on domain, calibration and the stores. -/
def stores (s : State) : Power × Aon × Cal × Sec := (s.pw, s.aon, s.cal, s.sec)

theorem revert_stores (rs : List Reg) : stores (revert rs s) = stores s := by
  refine foldSt_keeps stores _ _ (fun r u => ?_) s
  rfl

theorem nvElsewhere_stores : stores (nvElsewhere s) = stores s := by
  refine (foldSt_keeps stores _ _ (fun b u => ?_) _).trans (revert_stores _)
  rfl

theorem loadAuth_stores (auth : Sparse) : stores (loadAuth auth s) = stores s := by
  refine foldSt_keeps stores _ _ (fun n u => ?_) s
  rfl

/-- The watchdog's values and the verdict of the image come last: they leave the rest as the registers' loading left it. -/
theorem imageVerdict_stores {u : State} (bad : Bool) (h : stores u = stores s) :
    stores (modBoot (fun b => { b with nvFault := bad }) (wdFromNv u))
      = ({ s.pw with boot := { s.pw.boot with nvFault := bad } }, s.aon, s.cal, s.sec) := by
  simp only [stores, Prod.mk.injEq] at h
  obtain ⟨hpw, haon, hcal, hsec⟩ := h
  simp [stores, modBoot, wdFromNv, hpw, haon, hcal, hsec]

/-- The configuration image changes registers, and of the power state whether a pair was not applied (R579). -/
theorem loadConfig_stores : ∃ bad, stores (loadConfig s)
    = ({ s.pw with boot := { s.pw.boot with nvFault := bad } }, s.aon, s.cal, s.sec) := by
  have hregs : ∀ l : Sparse, stores (nvElsewhere (setNvList l (setCfgList l s))) = stores s := fun _ => nvElsewhere_stores
  unfold loadConfig
  split
  split
  exact ⟨_, imageVerdict_stores _ (hregs _)⟩

/-- The copy of the calibration store that is in use (R370). -/
def curCopy (c : Cal) : CalCopy := c.copies[calCopyIx c.cur]

theorem isOwned_congr (h : t.sec = s.sec) : isOwned t = isOwned s := by
  simp only [isOwned, curSlot, h]

/-- A good copy of the calibration store gives its trims (R91, R370). -/
theorem loadCal_good (hinj : s.aon.inj76 = false) (hgood : (curCopy s.cal).good = true) :
    (loadCal s).pw = s.pw ∧ (loadCal s).sec = s.sec ∧ (loadCal s).cal.trims = (curCopy s.cal).trims := by
  have hcopy : loadCal s = loadCopy (curCopy s.cal) (modAon (fun a => { a with inj76 := false }) s) := by
    rw [loadCal]
    dsimp only
    rw [if_pos (by rw [hinj]; exact hgood)]
    rfl
  have hauth := loadAuth_stores (s := modCal (fun c => { c with trims := (curCopy s.cal).trims })
    (modAon (fun a => { a with inj76 := false }) s)) (curCopy s.cal).auth
  simp only [stores, Prod.mk.injEq] at hauth
  obtain ⟨hpw, -, hcal, hsec⟩ := hauth
  rw [hcopy, loadCopy]
  exact ⟨hpw, hsec, by rw [hcal]; rfl⟩

/-- Without an owner there is no seal to load (R492). -/
theorem loadSeal_free (h : isOwned s = false) : loadSeal s = s := by
  simp [loadSeal, h]

/-- The row t0 + 60 ms of a BOOT in order: the groups come next. -/
theorem bootLoad_good (howned : isOwned s = false) (hsec : s.pw.boot.secFail = 0)
    (hgood : (curCopy s.cal).good = true) (hinj : s.aon.inj76 = false) :
    ∃ bad, (bootLoad s).pw = { s.pw with boot := { s.pw.boot with nvFault := bad, phase := .groups } }
      ∧ (bootLoad s).sec = s.sec ∧ (bootLoad s).cal.trims = (curCopy s.cal).trims := by
  obtain ⟨bad, hconf⟩ := loadConfig_stores (s := s)
  simp only [stores, Prod.mk.injEq] at hconf
  obtain ⟨hpw, haon, hcal, hstore⟩ := hconf
  obtain ⟨kpw, kstore, ktrims⟩ := loadCal_good (s := loadConfig s) (by rw [haon, hinj]) (by rw [hcal, hgood])
  have hseal : loadSeal (loadCal (loadConfig s)) = loadCal (loadConfig s) :=
    loadSeal_free (by rw [isOwned_congr (kstore.trans hstore), howned])
  have hload : bootLoad s = modBoot (fun b => { b with phase := .groups }) (loadCal (loadConfig s)) := by
    rw [bootLoad, hseal]
    simp [kpw, hpw, hsec]
  rw [hload]
  refine ⟨bad, ?_, kstore.trans hstore, ?_⟩
  · simp [modBoot, kpw, hpw]
  · rw [show (modBoot _ (loadCal (loadConfig s))).cal = (loadCal (loadConfig s)).cal from rfl, ktrims, hcal]

/-- The bank that boots is named, and its configuration sequence with it (R487, R488). -/
def bankNamed (s : State) : State :=
  match bootBank s with
  | some (b, fb) => modSec (fun x => { x with cfgSeq := (s.sec.banks[b]).commitSeq.getD 0 })
      (modPw (fun p => { p with bank := b == 1, fallback := fb }) s)
  | none => s

/-- The state in which the findings of the row t0 + 40 ms take effect. -/
def cellarChecked (s : State) : State :=
  modSec (fun x => { x with cellarOk := (bankNamed s).sec.cellar.factoryOk && cellsRun (bankNamed s) }) (bankNamed s)

theorem cellarChecked_bank {k : Fin 2} {fb : Bool} (h : bootBank s = some (k, fb)) :
    (cellarChecked s).pw = { s.pw with bank := k == 1, fallback := fb }
      ∧ (cellarChecked s).sec.cfgSeq = (s.sec.banks[k]).commitSeq.getD 0 := by
  simp [cellarChecked, bankNamed, h]

theorem cellarChecked_keeps : (cellarChecked s).pw.boot = s.pw.boot ∧ (cellarChecked s).pw.dev = s.pw.dev
    ∧ (cellarChecked s).cal = s.cal ∧ (cellarChecked s).aon = s.aon ∧ (cellarChecked s).sec.cellar = s.sec.cellar := by
  unfold cellarChecked bankNamed
  cases bootBank s <;> exact ⟨rfl, rfl, rfl, rfl, rfl⟩

theorem execFirmwareVerify_eq {ok : Bool} (h : bootAt s .firmware = true) :
    exec (.firmwareVerify ok) s = match bootCauses ok s with
      | [] => .next (bootLoad (cellarChecked s))
      | c :: l => .next (foldSt l (fun c s => report 9 c 63 s) (bootLockdown (report 9 c 63 (cellarChecked s)))) := by
  have hexec : exec (.firmwareVerify ok) s = execFirmwareVerify ok s := rfl
  rw [hexec, execFirmwareVerify, if_pos h]
  rfl

/-- No security failure (R87, R91, R488): the bank that boots is named, its configuration and calibration come into force. -/
theorem execFirmwareVerify_good {ok : Bool} (h : bootAt s .firmware = true) (hbad : bootCauses ok s = [])
    (howned : isOwned s = false) (hsec : s.pw.boot.secFail = 0) (hgood : (curCopy s.cal).good = true)
    (hinj : s.aon.inj76 = false) :
    ∃ t, exec (.firmwareVerify ok) s = .next t ∧ t.pw.dev = .boot ∧ t.pw.boot.phase = .groups
      ∧ t.cal.trims = (curCopy s.cal).trims
      ∧ ∀ k fb, bootBank s = some (k, fb) → t.pw.bank = (k == 1) ∧ t.pw.fallback = fb
        ∧ t.sec.cfgSeq = (s.sec.banks[k]).commitSeq.getD 0 := by
  obtain ⟨hboot, hdev, hcal, haon, hcellar⟩ := cellarChecked_keeps (s := s)
  have howned' : isOwned (cellarChecked s) = false := by simpa only [isOwned, curSlot, hcellar] using howned
  obtain ⟨bad, kpw, kstore, ktrims⟩ := bootLoad_good howned' (by rw [hboot, hsec]) (by rw [hcal, hgood]) (by rw [haon, hinj])
  refine ⟨bootLoad (cellarChecked s), by rw [execFirmwareVerify_eq h, hbad], ?_, by rw [kpw], by rw [ktrims, hcal],
    fun k fb hbank => ?_⟩
  · rw [kpw]
    exact hdev.trans (bootAt_iff.1 h).1
  · obtain ⟨hpw, hseq⟩ := cellarChecked_bank hbank
    rw [kpw, kstore, hpw]
    exact ⟨rfl, rfl, hseq⟩

/-! ### Time and power state under the operations that end BOOT -/

@[simp] theorem now_ite {c : Prop} [Decidable c] : (if c then s else t).now = if c then s.now else t.now := apply_ite ..
@[simp] theorem pw_ite {c : Prop} [Decidable c] : (if c then s else t).pw = if c then s.pw else t.pw := apply_ite ..

/-- A fold of steps that keep time and power state keeps them. -/
@[simp] theorem foldSt_clock {α : Type} {l : List α} {f : α → State → State}
    (hf : ∀ a t, (f a t).now = t.now ∧ (f a t).pw = t.pw) : (foldSt l f s).now = s.now ∧ (foldSt l f s).pw = s.pw :=
  ⟨foldSt_keeps State.now l f (fun a t => (hf a t).1) s, foldSt_keeps State.pw l f (fun a t => (hf a t).2) s⟩

theorem RecStep.clock (h : RecStep s t) : t.now = s.now ∧ t.pw = s.pw := ⟨h.now_eq, h.pw_eq⟩
theorem TrkStep.clock (h : TrkStep s t) : t.now = s.now ∧ t.pw = s.pw := by
  rw [h.1]
  exact ⟨rfl, rfl⟩

@[simp] theorem recState_clock : (recState s).now = s.now ∧ (recState s).pw = s.pw := (RecStep.refl s).recState.clock
@[simp] theorem segClose_clock (c l) : (segClose c l s).now = s.now ∧ (segClose c l s).pw = s.pw :=
  ((RecStep.refl s).segClose ..).clock
@[simp] theorem segNext_clock : (segNext s).now = s.now ∧ (segNext s).pw = s.pw := (RecStep.refl s).segNext.clock
@[simp] theorem dropActs_clock (e) : (dropActs e s).now = s.now ∧ (dropActs e s).pw = s.pw := ((TrkStep.refl s).dropActs e).clock
@[simp] theorem closePans_clock (g n r w) : (closePans g n r w s).now = s.now ∧ (closePans g n r w s).pw = s.pw :=
  ((TrkStep.refl s).closePans ..).clock
@[simp] theorem trkRestart_clock : (trkRestart s).now = s.now ∧ (trkRestart s).pw = s.pw := (TrkStep.refl s).trkRestart.clock

@[simp] theorem setBank_clock (b k) : (setBank b k s).now = s.now ∧ (setBank b k s).pw = s.pw := by simp [setBank]
@[simp] theorem stopWalk_clock : (stopWalk s).now = s.now ∧ (stopWalk s).pw = s.pw := by simp [stopWalk]
@[simp] theorem syncWait_clock : (syncWait s).now = s.now ∧ (syncWait s).pw = s.pw := by simp [syncWait]

/-! #### Replies -/

@[simp] theorem encCells_clock (m ws) : (encCells m ws s).2.now = s.now ∧ (encCells m ws s).2.pw = s.pw := by
  unfold encCells
  split <;> simp

@[simp] theorem queueReply_clock (p st tag w ws) :
    (queueReply p st tag w ws s).now = s.now ∧ (queueReply p st tag w ws s).pw = s.pw := by
  simp [queueReply]

@[simp] theorem completeDeferred_clock (d st ws) :
    (completeDeferred d st ws s).now = s.now ∧ (completeDeferred d st ws s).pw = s.pw := by
  simp [completeDeferred]

@[simp] theorem abortPort_clock (p) : (abortPort p s).now = s.now ∧ (abortPort p s).pw = s.pw := by
  unfold abortPort
  dsimp only
  split <;> simp

@[simp] theorem abortJobs_clock : (abortJobs s).now = s.now ∧ (abortJobs s).pw = s.pw := by
  unfold abortJobs
  dsimp only
  repeat' split
  all_goals simp

/-! #### The end of deferred commands -/

@[simp] theorem replayRelease_clock : (replayRelease s).now = s.now ∧ (replayRelease s).pw = s.pw := by
  simp [replayRelease]

@[simp] theorem dropSecJob_clock (d) : (dropSecJob d s).now = s.now ∧ (dropSecJob d s).pw = s.pw := by
  simp [dropSecJob]

/-- What the end of BOOT shows of the power state. -/
structure BootPart where
  dev : DevState
  phase : BootPhase
  t0 : Nat
  bootMs : BitVec 8

def bootPart (p : Power) : BootPart := ⟨p.dev, p.boot.phase, p.boot.t0, p.bootMs⟩

@[simp] theorem dropJob_bootPart (op) : (dropJob op s).now = s.now ∧ bootPart (dropJob op s).pw = bootPart s.pw := by
  unfold dropJob
  repeat' split
  all_goals simp [bootPart]

@[simp] theorem completeAll_bootPart (st w) :
    (completeAll st w s).now = s.now ∧ bootPart (completeAll st w s).pw = bootPart s.pw :=
  ⟨foldSt_keeps State.now _ _ (fun d t => by simp) s, foldSt_keeps (fun t => bootPart t.pw) _ _ (fun d t => by simp) s⟩

/-! #### The change of state -/

@[simp] theorem injCancel_clock : (injCancel s).now = s.now ∧ (injCancel s).pw = s.pw := by
  unfold injCancel
  split <;> simp

@[simp] theorem closeSession_clock (n) : (closeSession n s).now = s.now ∧ (closeSession n s).pw = s.pw := by
  unfold closeSession
  split <;> simp

@[simp] theorem sendConf_clock (g m) : (sendConf g m s).now = s.now ∧ (sendConf g m s).pw = s.pw := by
  simp [sendConf]

@[simp] theorem putReg_clock (r w) : (putReg r w s).now = s.now ∧ (putReg r w s).pw = s.pw := by
  simp [putReg]

@[simp] theorem bundleApply_clock (b) : (bundleApply b s).now = s.now ∧ (bundleApply b s).pw = s.pw := by
  unfold bundleApply
  extract_lets old v s1 s2 s3
  have h1 : s1.now = s.now ∧ s1.pw = s.pw := ⟨modWd_now .., modWd_pw ..⟩
  have h2 : s2.now = s1.now ∧ s2.pw = s1.pw := foldSt_clock fun r t => by split <;> simp
  have h3 : s3.now = s2.now ∧ s3.pw = s2.pw := ⟨modSec_now .., modSec_pw ..⟩
  clear_value s1 s2 s3
  simp [h3, h2, h1]

/-- BOOT ends in a state other than RUN: the time stands, and of what shows only the state has changed (R95). -/
theorem changeState_boot {new : DevState} (hboot : s.pw.dev = .boot) (hnew : new ≠ .boot) (hrun : new ≠ .run) :
    (changeState new s).now = s.now ∧ bootPart (changeState new s).pw = ⟨new, s.pw.boot.phase, s.pw.boot.t0, s.pw.bootMs⟩ := by
  unfold changeState
  extract_lets old s1 s2 s3 s4 s5 s6 s7 s8 s9
  have h2 : s2 = s1 := if_neg (by simp [old, hboot])
  have h3 : s3 = s1 := (if_neg (by simp [old, hboot])).trans h2
  have h5 : s5.now = s.now ∧ bootPart s5.pw = ⟨new, s.pw.boot.phase, s.pw.boot.t0, s.pw.bootMs⟩ := by
    simp [s5, s4, h3, s1, bootPart]
  have h6 : s6.now = s5.now ∧ bootPart s6.pw = bootPart s5.pw := completeAll_bootPart ..
  have h8 : s8 = s6 := if_neg hrun
  have h9 : s9.now = s8.now ∧ s9.pw = s8.pw := by
    unfold s9
    split <;> simp
  rw [if_neg (by simp [old, hboot, hnew.symm])]
  simp [h9, h8, h6, h5]

/-- What BOOT leaves behind when it ends (R87, R109): its duration is shown. -/
theorem bootDone_bootPart : bootPart (bootDone s).pw
    = ⟨s.pw.dev, .idle, s.pw.boot.t0, BitVec.ofNat 8 (min 255 ((s.now - s.pw.boot.t0) / ms))⟩ := by
  simp [bootDone, bootPart]

/-! #### Field dies that lose their links -/

@[simp] theorem doCmd_clock (n on) : (doCmd n on s).now = s.now ∧ (doCmd n on s).pw = s.pw := by
  simp [doCmd, switchOn, switchOff]

@[simp] theorem pulseEnd_clock (g m) : (pulseEnd g m s).now = s.now ∧ (pulseEnd g m s).pw = s.pw := by
  simp [pulseEnd]

@[simp] theorem dieLost_clock (g) : (dieLost g s).now = s.now ∧ (dieLost g s).pw = s.pw := by
  simp [dieLost, dieDiscard]

@[simp] theorem linksStop_clock : (linksStop s).now = s.now ∧ (linksStop s).pw = s.pw := by
  simp [linksStop]

/-- An entry to standby leaves in place what the end of BOOT shows. -/
theorem beginStandby_bootPart : bootPart (beginStandby s).pw = bootPart s.pw := by
  have hall : bootPart (completeAll stAborted (fun _ => true) s).pw = bootPart s.pw := (completeAll_bootPart ..).2
  simpa [beginStandby, wdStop, bootPart] using hall

/-! ### BOOT ends in LOCKDOWN -/

theorem bootLockdown_dev (h : s.pw.dev = .boot) : (bootLockdown s).pw.dev = .lockdown := by
  have hchange := changeState_boot (s := modBoot (fun b => { b with noImage := true })
    (modPw (fun p => { p with stbyRemembered := false }) s)) h (by decide : DevState.lockdown ≠ .boot) (by decide)
  exact (congrArg BootPart.dev bootDone_bootPart).trans (congrArg BootPart.dev hchange.2)

/-- Further causes found in LOCKDOWN leave the device there (R442, R502). -/
theorem reports_lockdown {l : List Nat} (h : s.pw.dev = .lockdown) :
    (foldSt l (fun c s => report 9 c 63 s) s).pw.dev = .lockdown :=
  List.foldlRecOn (motive := fun t : State => t.pw.dev = .lockdown) l _ h fun t ht c _ =>
    ((FltStep.refl t).report (.inr (.inr ht)) c 63).dev.trans ht

/-- A security failure ends BOOT in LOCKDOWN (R90, R486). -/
theorem execFirmwareVerify_bad {ok : Bool} (h : bootAt s .firmware = true) (hbad : bootCauses ok s ≠ []) :
    ∃ t, exec (.firmwareVerify ok) s = .next t ∧ t.pw.dev = .lockdown := by
  obtain ⟨-, hdev, -⟩ := cellarChecked_keeps (s := s)
  have hboot : (cellarChecked s).pw.dev = .boot := hdev.trans (bootAt_iff.1 h).1
  obtain ⟨c, l, hcauses⟩ := List.exists_cons_of_ne_nil hbad
  have hreport := (FltStep.refl (cellarChecked s)).report (.inr (.inl hboot)) c 63 (d := 9)
  exact ⟨_, by rw [execFirmwareVerify_eq h, hcauses], reports_lockdown (bootLockdown_dev (hreport.dev.trans hboot))⟩

/-! ### BOOT ends in CONFIG or SAFE -/

@[simp] theorem slotMissed_clock (g) :
    (slotMissed g s).now = s.now ∧ (slotMissed g s).pw = s.pw ∧ (slotMissed g s).aon = s.aon := by
  unfold slotMissed
  dsimp only
  split <;> simp

theorem slotsMissed_clock : (foldSt groups slotMissed s).now = s.now ∧ (foldSt groups slotMissed s).pw = s.pw
    ∧ (foldSt groups slotMissed s).aon = s.aon :=
  ⟨foldSt_keeps State.now _ _ (fun g t => by simp) s, foldSt_keeps State.pw _ _ (fun g t => by simp) s,
    foldSt_keeps State.aon _ _ (fun g t => by simp) s⟩

theorem FltStep.bootPart_eq (h : FltStep s t) : bootPart t.pw = bootPart s.pw := by
  rw [h.1]
  rfl

@[simp] theorem advanceCounter_clock : (advanceCounter s).now = s.now ∧ (advanceCounter s).pw = s.pw := by
  simp [advanceCounter]

@[simp] theorem wdStart_clock (w) : (wdStart w s).now = s.now ∧ (wdStart w s).pw = s.pw := by
  simp [wdStart, wdZero]

@[simp] theorem caskBegin_clock : (caskBegin s).now = s.now ∧ (caskBegin s).pw = s.pw := by
  simp [caskBegin]

/-- A configuration that fell back to factory values is reported once BOOT has ended (R579). -/
theorem nvReport_bootPart : bootPart (if s.pw.nvDefault then report 7 8 63 s else s).pw = bootPart s.pw := by
  split
  · exact ((FltStep.refl s).report (.inl (by decide)) 8 63).bootPart_eq
  · rfl

/-- BOOT ends in SAFE (R87, R95, R443). -/
def endsSafe (s : State) : Bool := s.aon.fatalHeld || s.pw.patternFail || s.pw.safePin

theorem bootFinish_bootPart (h : s.pw.dev = .boot) : bootPart (bootFinish s).pw
    = ⟨if endsSafe s then .safe else .config, .idle, s.pw.boot.t0,
        BitVec.ofNat 8 (min 255 ((s.now - s.pw.boot.t0) / ms))⟩ := by
  unfold bootFinish
  extract_lets safe s1 s2 s3 s4 s5 s6
  have hchange := changeState_boot (new := if safe then .safe else .config) h (by split <;> decide) (by split <;> decide)
  have h1 : bootPart s1.pw = ⟨if safe then .safe else .config, .idle, s.pw.boot.t0,
      BitVec.ofNat 8 (min 255 ((s.now - s.pw.boot.t0) / ms))⟩ := by
    obtain ⟨hnow, hpart⟩ := hchange
    simp only [bootPart, BootPart.mk.injEq] at hpart
    obtain ⟨hdev, -, ht0, -⟩ := hpart
    rw [bootDone_bootPart, hnow, hdev, ht0]
  have h2 : s2.pw = s1.pw := by simp [s2]
  have h3 : bootPart s3.pw = bootPart s2.pw := nvReport_bootPart
  have h5 : s5.pw = s3.pw := by simp [s5, s4]
  have h6 : bootPart s6.pw = bootPart s5.pw := rfl
  have hend : bootPart s5.pw = bootPart s1.pw := by rw [h5, h3, h2]
  split
  · split
    · exact beginStandby_bootPart.trans (h6.trans (hend.trans h1))
    · exact h6.trans (hend.trans h1)
  · exact hend.trans h1

/-- BOOT ends (R87, R95, R443): in SAFE with a fatal record held, a failed pattern test or SAFE_N asserted. -/
theorem execBootEnd_ends (h : bootAt s .groups = true) : ∃ t, exec (.bootEnd true true) s = .next t
    ∧ t.pw.dev = (if s.aon.fatalHeld ∨ s.pw.patternFail ∨ s.pw.safePin then .safe else .config)
    ∧ t.pw.boot.phase = .idle
    ∧ t.pw.bootMs = BitVec.ofNat 8 (min 255 ((s.now - s.pw.boot.t0) / 250000)) := by
  obtain ⟨hnow, hpw, haon⟩ := slotsMissed_clock (s := s)
  have hexec : exec (.bootEnd true true) s = .next (bootFinish (foldSt groups slotMissed s)) := by
    have hrow : exec (.bootEnd true true) s = execBootEnd true true s := rfl
    rw [hrow, execBootEnd, if_pos h]
    rfl
  have hpart := bootFinish_bootPart (s := foldSt groups slotMissed s) (by rw [hpw, (bootAt_iff.1 h).1])
  rw [endsSafe, hnow, hpw, haon, bootPart, BootPart.mk.injEq] at hpart
  obtain ⟨hdev, hphase, -, hms⟩ := hpart
  refine ⟨_, hexec, hdev.trans ?_, hphase, hms⟩
  simp [or_assoc]

/-- Settles O34: each row of BOOT by the lemma of its row. -/
theorem bootRuns : Obligations.BootRuns := by
  unfold Obligations.BootRuns
  intro a b ok l g s
  exact ⟨execBootBegin_waiting, execPllLock_locks, execPllLockTimeout_restarts, execPatternTestEnd_clears,
    fun h => ⟨execFirmwareVerify_bad h, execFirmwareVerify_good h⟩, execGroupBringUp_ranges, execBootEnd_ends⟩

end Sys2Proof.Machine
end

section
/-! The step (O1), the take-up of packets, the queuing of replies, and the refusals that no opcode's own rules touch (O8):
05_packet_protocol R153 to R163. -/

namespace Sys2Proof.Machine

variable {s : State} {p : Port} {op : Op} {m : Msg}

/-! ### The step -/

theorem step_cons {c : Instr} {l : List Instr} (h : s.pending = c :: l) : step s = exec c { s with pending := l } := by
  simp only [step, h]

theorem step_nil (h : s.pending = []) : step s = .next (tick s) := by simp only [step, h]

/-- Settles O1: one lemma for a queue with a command, one for the empty queue. -/
theorem stepRunsFrontCommand : Obligations.StepRunsFrontCommand :=
  ⟨fun _ _ _ => step_cons, fun _ => step_nil⟩

/-! ### Updates of a port -/

theorem modPort_modPort (f g : PortSt → PortSt) : modPort p g (modPort p f s) = modPort p (fun x => g (f x)) s := by
  simp [modPort, vmod]

theorem modPort_congr {f g : PortSt → PortSt} (h : f (prt s p) = g (prt s p)) : modPort p f s = modPort p g s := by
  unfold modPort vmod
  rw [show f s.ports[pidx p] = g s.ports[pidx p] from h]

/-! ### Take-up -/

theorem recCmd_unrecorded (h : cfgBit s .caskCfg 3 = false) : recCmd op m s = s := by simp [recCmd, h]

theorem takenUp_unrecorded (h : cfgBit s .caskCfg 3 = false) : takenUp op m s = popped m s :=
  recCmd_unrecorded (s := popped m s) h

theorem takenUp_turn : (takenUp op m s).turn = some m.port := by
  have h := (recCmd_rec op m (popped m s)).1
  rw [takenUp, h]
  rfl

/-! ### Replies -/

/-- A reply enters a list of its port: its source is raised, and WAKE in the command sets the WAKE level (R158, R159, R429). -/
def replyNoted (p : Port) (wake : Bool) (n : Fin 96) (f : PortSt → PortSt) (s : State) : State :=
  let t := raise n (modPort p f s)
  if wake then modPort p (fun x => { x with wakeLvl := true }) t else t

variable {wake : Bool} {n : Fin 96} {f : PortSt → PortSt}

theorem queueReply_unarmed {st : Status} {tag : BitVec 7} {ws : List Word} (h : s.mi.fArmed = false) :
    queueReply p st tag wake ws s =
      let r : Reply := { status := st, tag := tag, wake := wake, cells := ws.map encWord, queuedAt := s.now }
      if (prt s p).waiting = [] ∧ replyFits (prt s p) ws.length = true then
        replyNoted p wake (srcReply p) (fun x => { x with replyQ := x.replyQ ++ [r] }) s
      else replyNoted p wake (srcWaiting p) (fun x => { x with waiting := x.waiting ++ [r] }) s := by
  simp only [queueReply, encCells, h, Bool.false_eq_true, false_and, if_false, List.length_map, List.isEmpty_iff]
  by_cases hfit : (prt s p).waiting = [] ∧ replyFits (prt s p) ws.length = true
  · simp only [if_pos hfit, replyNoted]
  · simp only [if_neg hfit, replyNoted]

theorem replyNoted_ports_irq :
    replyNoted p wake n f s
      = { s with ports := (replyNoted p wake n f s).ports, irq := (replyNoted p wake n f s).irq } := by
  have h := raise_only n (modPort p f s)
  unfold replyNoted
  cases wake
  · simpa using h
  · dsimp only [if_true]
    rw [h]
    rfl

theorem prt_raise {q : Port} : prt (raise n s) q = prt s q := prt_of_ports (raise_ports ..) q

theorem replyNoted_port :
    prt (replyNoted p wake n f s) p = { f (prt s p) with wakeLvl := (f (prt s p)).wakeLvl || wake } := by
  cases wake <;> simp [replyNoted, prt_raise, prt_modPort_same]

theorem replyNoted_other : prt (replyNoted p wake n f s) (pother p) = prt s (pother p) := by
  cases wake <;> simp [replyNoted, prt_raise, prt_modPort_other]

theorem replyNoted_shows (h : isLive s = true) : shows (replyNoted p wake n f s) n = true := by
  have hr := raise_shows n (modPort p f s) h
  cases wake
  · exact hr
  · exact (shows_irq rfl rfl rfl n).trans hr

/-! ### Refusals that no opcode's own rules touch -/

/-- An opcode that adds nothing to a refusal by the check word, the vintage or the device state (R94, R146, R161). -/
structure Handler.RefusesPlainly (h : Handler) (op : Op) : Prop where
  refused {st : Status} {u : State} (hp : st ≠ stState ∨ opPermitted op u.pw.dev = false) (m : Msg) :
    h.refused st m u = u := by exact fun _ _ => rfl
  words {st : Status} {u : State} (hp : st ≠ stState ∨ opPermitted op u.pw.dev = false) (m : Msg) :
    h.words op st u m = refusalWords op st (devStateWord u) := by exact fun _ _ => rfl

theorem armRefusal_false {st : Status} (h : st ≠ stState ∨ opPermitted op s.pw.dev = false) : armRefusal op st s m = false := by
  rcases h with h | h <;> simp [armRefusal, h]

theorem trellisArmH_refusesPlainly : trellisArmH.RefusesPlainly Op.trellisArm where
  refused h m := by simp [trellisArmH, armRefusal_false h]
  words h m := by simp [trellisArmH, armRefusal_false h]

theorem chanSetH_refusesPlainly : chanSetH.RefusesPlainly Op.chanSet where
  words {st u} h m := by
    have hnot : ¬(st = stState ∧ opPermitted Op.chanSet u.pw.dev = true) := by
      rcases h with h | h <;> simp [h]
    have hwords : refusalWords Op.chanSet st (devStateWord u) = [] := rfl
    simp only [chanSetH, hnot, if_false, hwords]
    split <;> rfl

/-- Each packet row is its opcode's handler in the interpreter. -/
theorem exec_packet {c : Instr} (hc : packetOf c = some (op, m)) :
    ∃ h : Handler, h.RefusesPlainly op ∧ ∀ s, exec c s = interp op h m s := by
  cases c with
  | hello => cases hc; exact ⟨helloH, {}, fun _ => rfl⟩
  | status => cases hc; exact ⟨statusH, {}, fun _ => rfl⟩
  | regRead => cases hc; exact ⟨regReadH, {}, fun _ => rfl⟩
  | regWrite => cases hc; exact ⟨regWriteH, {}, fun _ => rfl⟩
  | tapTake => cases hc; exact ⟨tapTakeH, {}, fun _ => rfl⟩
  | tapRelease => cases hc; exact ⟨tapReleaseH, {}, fun _ => rfl⟩
  | chanConfig => cases hc; exact ⟨chanConfigH, {}, fun _ => rfl⟩
  | chanSet => cases hc; exact ⟨chanSetH, chanSetH_refusesPlainly, fun _ => rfl⟩
  | chanGet => cases hc; exact ⟨chanGetH, {}, fun _ => rfl⟩
  | safeNow | relink | groupCmdClrCnt => cases hc; exact ⟨groupH, {}, fun _ => rfl⟩
  | trellisLoad => cases hc; exact ⟨trellisLoadH, {}, fun _ => rfl⟩
  | trellisArm | trellisStop | trellisHalt => cases hc; exact ⟨trellisArmH, trellisArmH_refusesPlainly, fun _ => rfl⟩
  | trellisRead => cases hc; exact ⟨trellisReadH, {}, fun _ => rfl⟩
  | panRead => cases hc; exact ⟨panReadH, {}, fun _ => rfl⟩
  | wdServe => cases hc; exact ⟨wdServeH, {}, fun _ => rfl⟩
  | wdConfigSet | wdConfigStart | wdConfigStop => cases hc; exact ⟨wdConfigH, {}, fun _ => rfl⟩
  | irqAck => cases hc; exact ⟨irqAckH, {}, fun _ => rfl⟩
  | caskStatus | caskStart | caskStop | caskFreeze | caskClear | caskNote =>
    cases hc; exact ⟨caskCtrlH, {}, fun _ => rfl⟩
  | caskRead => cases hc; exact ⟨caskReadH, {}, fun _ => rfl⟩
  | rack => cases hc; exact ⟨rackH, {}, fun _ => rfl⟩
  | replayStart | replayAbort => cases hc; exact ⟨replayH, {}, fun _ => rfl⟩
  | calSet => cases hc; exact ⟨calSetH, {}, fun _ => rfl⟩
  | calArm | calArmCancel => cases hc; exact ⟨calArmH, {}, fun _ => rfl⟩
  | attest => cases hc; exact ⟨attestH, {}, fun _ => rfl⟩
  | sealLoad => cases hc; exact ⟨sealH, {}, fun _ => rfl⟩
  | ownerEnroll => cases hc; exact ⟨enrollH, {}, fun _ => rfl⟩
  | ownerRelease => cases hc; exact ⟨releaseH, {}, fun _ => rfl⟩
  | nvUpdateBegin | nvUpdateAbort => cases hc; exact ⟨beginH, {}, fun _ => rfl⟩
  | nvUpdateData => cases hc; exact ⟨dataH, {}, fun _ => rfl⟩
  | nvUpdateCommit => cases hc; exact ⟨commitH, {}, fun _ => rfl⟩
  | stateReq => cases hc; exact ⟨stateReqH, {}, fun _ => rfl⟩
  | inject => cases hc; exact ⟨injectH, {}, fun _ => rfl⟩
  | faultRead => cases hc; exact ⟨faultReadH, {}, fun _ => rfl⟩
  | faultAck => cases hc; exact ⟨faultAckH, {}, fun _ => rfl⟩
  | portSleep => cases hc; exact ⟨portSleepH, {}, fun _ => rfl⟩
  | _ => cases hc

theorem takenUp_devStateWord : devStateWord (takenUp op m s) = devStateWord s := by
  have h := (takenUp_took op m s).1
  simp only [devStateWord]
  rw [h]

/-- A whole packet that is refused plainly is answered with the words of its opcode and has no effect (R154). -/
theorem interp_refusedPlainly (h : PacketHead op m s) {hd : Handler} (hpl : hd.RefusesPlainly op) (hs : m.stream = .none)
    {st : Status} (hp : st ≠ stState ∨ opPermitted op s.pw.dev = false)
    (hj : judge op hd m false (takenUp op m s) = some st) :
    interp op hd m s = .next (replied m st (refusalWords op st (devStateWord s)) (takenUp op m s)) := by
  have hpu : st ≠ stState ∨ opPermitted op (takenUp op m s).pw.dev = false := by rwa [(takenUp_took op m s).pw_eq]
  rw [interp_refused h hd st hj]
  simp [hs, hpl.refused hpu, hpl.words hpu, answer_reply (takenUp_noReset op m s h.noReset), takenUp_devStateWord]

/-! The first of the checks that fails (R154), on a whole packet taken up without an error. -/

variable {hd : Handler} {i : OpInfo}

theorem judge_badCheck (hi : opInfo op = some i) (hs : m.stream = .none) (hg : m.good = false) (hw : m.words ≠ []) :
    judge op hd m false s = some stCheck := by
  simp [judge, hi, hs, hg, hw]

theorem judge_vintage (hi : opInfo op = some i) (hs : m.stream = .none) (hg : m.good = true)
    (hv : portVintage s m.port < i.vintage) :
    judge op hd m false s = some (if portVintage s m.port = 1 then stUnknown else stVintage) := by
  simp [judge, hi, hs, hg, hv]

theorem judge_notPermitted (hi : opInfo op = some i) (hs : m.stream = .none) (hg : m.good = true)
    (hv : i.vintage ≤ portVintage s m.port) (hp : opPermitted op s.pw.dev = false) :
    judge op hd m false s = some stState := by
  simp [judge, hi, hs, hg, Nat.not_lt.2 hv, hp]

/-- Settles O8: the take-up by its laws, a reply by `queueReply_unarmed` and what `replyNoted` changes, and a refusal by the
first check that fails, which no opcode's handler treats in a way of its own. -/
theorem packetsAndReplies : Obligations.PacketsAndReplies := by
  refine ⟨fun op m s h => ?_, fun p st tag wake ws s harm hlive => ?_, fun c op m i s hc hi h hs => ?_⟩
  · exact ⟨takenUp_took .., takenUp_port .., takenUp_other .., takenUp_turn, takenUp_unrecorded⟩
  · have hfits : replyFits (prt s p) ws.length = true
        ↔ (prt s p).replyQ.length < 128 ∧ storeUsed (prt s p) + ws.length ≤ 4096 := by simp [replyFits]
    simp only [queueReply_unarmed harm, hfits]
    split <;> exact ⟨_, rfl, replyNoted_ports_irq, replyNoted_other, by rw [replyNoted_port], by rw [replyNoted_port],
      replyNoted_shows hlive⟩
  · obtain ⟨hd, hpl, hexec⟩ := exec_packet hc
    simp only [hexec]
    have hv := takenUp_vintage op m s
    refine ⟨fun hg hw => ?_, fun hg hlow st hst => ?_, fun hg hv' hp => ?_⟩
    · exact interp_refusedPlainly h hpl hs (.inl (by decide)) (judge_badCheck hi hs hg hw)
    · have hj := judge_vintage (hd := hd) hi hs hg (hv.symm ▸ hlow)
      rw [hv, ← hst] at hj
      refine interp_refusedPlainly h hpl hs (.inl ?_) hj
      rw [hst]
      split <;> decide
    · refine interp_refusedPlainly h hpl hs (.inr hp) (judge_notPermitted hi hs hg (hv.symm ▸ hv') ?_)
      rwa [(takenUp_took op m s).pw_eq]

end Sys2Proof.Machine
end

section
/-! Headers, payloads and stream beats of a port in packet mode (O38): 04_host_ports R120 to R126, 05_packet_protocol R142 to
R151. -/

namespace Sys2Proof.Machine

variable {s : State} {p : Port} {h0 h1 : Word}

/-! ### Headers -/

theorem cfgDue_none (h : s.cfgJob = none) : cfgDue s = s := by simp [cfgDue, h]

/-- With no injection armed a header stands or falls by its CRC (R151). -/
theorem headerIn_uninjected (hcfg : s.cfgJob = none) (hinj : injAt s 8 1 = none) :
    headerIn p h0 h1 s = if hdrWord1 h0 (hdrLen h1) ≠ h1 then setRx p .ignore (countHdrBad p s)
      else if hdrOp h0 = Op.fetch then fetchHdr p h0 h1 s else commandHdr p h0 h1 s := by
  simp [headerIn, cfgDue_none hcfg, hinj, whenSt]

theorem execHeaderBeat_taken (ht : takesBeat s p = true) (hrx : (prt s p).rx = .header) :
    execHeaderBeat p h0 h1 s = .next (headerIn p h0 h1 s) := by
  simp [execHeaderBeat, ht, hrx]

theorem dropPayload_payload (hlen : hdrLen h1 ≠ 0) (hlen' : hdrLen h1 ≠ 4095) (hlanes : hdrLanes h0 ≠ 3) :
    dropPayload p h0 h1 s = setRx p (.payload h0 h1 .drop) s := by
  simp [dropPayload, hlen, hlen', hlanes]

/-- Where a refused packet leaves its port: what it receives next, and whether the packet was whole (R125). -/
theorem dropPayload_update : ∃ rx got, dropPayload p h0 h1 s = modPort p (fun x => { x with rx := rx, gotPacket := got }) s := by
  unfold dropPayload
  split
  · exact ⟨.header, true, rfl⟩
  · split
    · exact ⟨.ignore, (prt s p).gotPacket, modPort_congr rfl⟩
    · exact ⟨.payload h0 h1 .drop, (prt s p).gotPacket, modPort_congr rfl⟩

/-- A packet under a tag in flight is discarded without an answer (R125, R144). -/
theorem commandHdr_inFlight (h : bit (prt s p).tags (hdrTag h0).toNat = true) :
    ∃ rx got, commandHdr p h0 h1 s = modPort p (fun x => { x with discard := satInc x.discard, rx := rx, gotPacket := got }) s := by
  obtain ⟨rx, got, hdrop⟩ := dropPayload_update (p := p) (h0 := h0) (h1 := h1) (s := countDiscard p s)
  have hdiscard : commandHdr p h0 h1 s = dropPayload p h0 h1 (countDiscard p s) := by simp [commandHdr, h]
  exact ⟨rx, got, by rw [hdiscard, hdrop, countDiscard, modPort_modPort]⟩

/-- Why a well-formed command header is refused by opcode, length and room, if it is (R125, R126, R151, log entry 30). -/
def hdrRefusal (s : State) (p : Port) (op : Op) (len : Nat) : Option Status :=
  match opInfo op with
  | none => some (if 2048 < len then stLength else stUnknown)
  | some i =>
    if i.hi < len ∨ 2048 < len then some stLength
    else if cmdFree s (prt s p) < packetWords len then some stFull
    else none

theorem countDiscard_wakeOk : wakeOk (countDiscard p s) p h0 = wakeOk s p h0 := by
  have hv : portVintage (countDiscard p s) p = portVintage s p := by
    simp only [portVintage, countDiscard, prt_modPort_same]
  simp only [wakeOk, hv]

theorem refuseHdr_wakeOk {st : Status} (hwake : wakeOk s p h0 = true) :
    refuseHdr p h0 st s = queueReply p st (hdrTag h0) (bit h0 2) (refusalWords (hdrOp h0) st (devStateWord s))
      (setTag p (hdrTag h0) true s) := by
  simp [refuseHdr, hwake]

/-- A refusal under a tag that was free: discarded, counted and answered (R125, R126). -/
theorem refuseHdr_countDiscard {st : Status} (hwake : wakeOk s p h0 = true) :
    refuseHdr p h0 st (countDiscard p s)
      = queueReply p st (hdrTag h0) (bit h0 2) (refusalWords (hdrOp h0) st (devStateWord s)) (modPort p (fun x => { x with
          tags := setBit x.tags (hdrTag h0).toNat true, discard := satInc x.discard }) s) := by
  rw [refuseHdr_wakeOk (countDiscard_wakeOk.trans hwake), setTag, countDiscard, modPort_modPort]
  rfl

/-- The command packet that a header and its payload make. -/
def packetMsg (p : Port) (h0 : Word) (ws : List Word) (good : Bool) : Msg :=
  { port := p, tag := hdrTag h0, lanes := h0.extractLsb' 3 2, wake := bit h0 2, words := ws, good := good, stream := .none }

theorem pushCmd_stored {ws : List Word} {good : Bool} (h : s.mi.fArmed = false ∨ ws = []) :
    pushCmd p h0 ws good .none s = modPort p (fun x => { x with
      cmdBuf := x.cmdBuf ++ [{ op := hdrOp h0, cells := ws.map encWord, msg := packetMsg p h0 ws good }] }) s := by
  rcases h with h | h <;> simp [pushCmd, encCells, packetMsg, h]

/-! A header whose tag is free, whose fields are in order, and that announces no stream (R144, R151). -/

section WellFormed
variable (htag : bit (prt s p).tags (hdrTag h0).toNat = false) (hlanes : hdrLanes h0 ≠ 3) (hres : fld h0 0 2 = 0)
  (hwake : wakeOk s p h0 = true)
include htag hlanes hres hwake

/-- It is refused by its opcode, its length or the room, or it is received. -/
theorem commandHdr_judged (hlen : hdrLen h1 ≠ 4095) :
    commandHdr p h0 h1 s = match hdrRefusal s p (hdrOp h0) (hdrLen h1) with
      | some st => dropPayload p h0 h1 (refuseHdr p h0 st (countDiscard p s))
      | none =>
        if hdrLen h1 = 0 then
          modPort p (fun x => { x with rx := .header, gotPacket := true }) (pushCmd p h0 [] true .none (setTag p (hdrTag h0) true s))
        else setRx p (.payload h0 h1 .accept) (setTag p (hdrTag h0) true s) := by
  simp only [commandHdr, htag, hlanes, hres, hwake, hlen, hdrRefusal, Bool.false_eq_true, if_false, ne_eq, not_true,
    Bool.not_true, or_self, false_or]
  cases opInfo (hdrOp h0) with
  | none => by_cases h : 2048 < hdrLen h1 <;> simp [h]
  | some i =>
    by_cases h : i.hi < hdrLen h1 ∨ 2048 < hdrLen h1
    · simp [h]
    · by_cases hfull : cmdFree s (prt s p) < packetWords (hdrLen h1) <;> simp [h, hfull]

/-- A refused header is answered, and its payload will be discarded (R125, R126). -/
theorem commandHdr_refused {st : Status} (hlen : hdrLen h1 ≠ 0) (hstream : hdrLen h1 ≠ 4095)
    (hst : hdrRefusal s p (hdrOp h0) (hdrLen h1) = some st) :
    commandHdr p h0 h1 s = modPort p (fun x => { x with rx := .payload h0 h1 .drop })
      (queueReply p st (hdrTag h0) (bit h0 2) (refusalWords (hdrOp h0) st (devStateWord s))
        (modPort p (fun x => { x with tags := setBit x.tags (hdrTag h0).toNat true, discard := satInc x.discard }) s)) := by
  rw [commandHdr_judged htag hlanes hres hwake hstream, hst]
  dsimp only
  rw [dropPayload_payload hlen hstream hlanes, refuseHdr_countDiscard hwake, setRx]

variable (hnone : hdrRefusal s p (hdrOp h0) (hdrLen h1) = none)
include hnone

/-- The payload of an accepted header is received under its tag (R126). -/
theorem commandHdr_received (hlen : hdrLen h1 ≠ 0) (hstream : hdrLen h1 ≠ 4095) :
    commandHdr p h0 h1 s = modPort p (fun x => { x with
      tags := setBit x.tags (hdrTag h0).toNat true, rx := .payload h0 h1 .accept }) s := by
  rw [commandHdr_judged htag hlanes hres hwake hstream, hnone]
  simp only [if_neg hlen, setRx, setTag, modPort_modPort]

/-- An accepted header without a payload is a whole command (R126). -/
theorem commandHdr_whole (hlen : hdrLen h1 = 0) :
    commandHdr p h0 h1 s = modPort p (fun x => { x with
      tags := setBit x.tags (hdrTag h0).toNat true, rx := .header, gotPacket := true
      cmdBuf := x.cmdBuf ++ [{ op := hdrOp h0, cells := [], msg := packetMsg p h0 [] true }] }) s := by
  rw [commandHdr_judged htag hlanes hres hwake (by omega), hnone]
  simp only [if_pos hlen, pushCmd_stored (.inr rfl), setTag, modPort_modPort, List.map_nil]

end WellFormed

/-! ### Payloads and stream beats -/

theorem execPacketComplete_accept {ws : List Word} {c : Word} (ht : takesBeat s p = true)
    (hrx : (prt s p).rx = .payload h0 h1 .accept) (hlen : ws.length = hdrLen h1) :
    execPacketComplete p ws c s = .next (payloadIn p h0 ws (checkGood ws c) (cfgDue s)) := by
  simp [execPacketComplete, hrx, ht, hlen]

theorem execPacketComplete_drop {ws : List Word} {c : Word} (ht : takesBeat s p = true)
    (hrx : (prt s p).rx = .payload h0 h1 .drop) (hlen : ws.length = hdrLen h1) :
    execPacketComplete p ws c s = .next (modPort p (fun x => { x with rx := .header, gotPacket := true }) s) := by
  simp [execPacketComplete, hrx, ht, hlen]

theorem payloadIn_stored {ws : List Word} {good : Bool} (hinj : injAt s 8 2 = none) (harm : s.mi.fArmed = false)
    (hop : hdrOp h0 ≠ Op.wdServe) :
    payloadIn p h0 ws good s = modPort p (fun x => { x with
      rx := .header, gotPacket := true
      cmdBuf := x.cmdBuf ++ [{ op := hdrOp h0, cells := ws.map encWord, msg := packetMsg p h0 ws good }] }) s := by
  simp only [payloadIn, hinj, hop, false_and, Bool.false_eq_true, if_false]
  exact (pushCmd_stored (.inl (by exact harm))).trans (modPort_modPort ..)

section Beat
variable {l : List Word} {n k : Nat} {w0 w1 : Word}

theorem beatIn_overran (hrx : (prt s p).rx = .stream h0 l n k true) : beatIn p w0 w1 s = s := by
  simp [beatIn, hrx]

theorem beatIn_full (hrx : (prt s p).rx = .stream h0 l n k false) (hfree : cmdFree s (prt s p) < 2) :
    beatIn p w0 w1 s = modPort p (fun x => { x with rx := .stream h0 l 2048 k true, overrun := satInc x.overrun }) s := by
  simp [beatIn, hrx, hfree]

theorem beatIn_room (hrx : (prt s p).rx = .stream h0 l n k false) (hfree : 2 ≤ cmdFree s (prt s p)) :
    ∃ k', beatIn p w0 w1 s
      = modPort p (fun x => { x with rx := .stream h0 (l ++ [w0, w1]) (streamFill s (prt s p) + 2) k' false }) s := by
  simp only [beatIn, hrx, Nat.not_lt.2 hfree, Bool.false_eq_true, if_false]
  exact ⟨_, rfl⟩

end Beat

/-- Settles O38: a header by the lemma of its outcome, and payload and stream beats by the lemma of theirs. -/
theorem headersAndPayloads : Obligations.HeadersAndPayloads := by
  refine ⟨fun p h0 h1 s ht hrx hcfg hinj => ?_, fun p h0 h1 c w0 w1 ws s ht => ⟨?_, ?_, ?_⟩⟩
  · have hbeat : exec (.headerBeat p h0 h1) s = .next (headerIn p h0 h1 s) := execHeaderBeat_taken ht hrx
    rw [hbeat, headerIn_uninjected hcfg hinj]
    refine ⟨fun hcrc => congrArg _ (if_pos hcrc), fun hcrc hop => ?_⟩
    rw [if_neg (Classical.not_not.2 hcrc), if_neg hop]
    refine ⟨fun htag => ?_, fun htag hlanes hres hwake => ⟨fun i hi hhi hmax hroom => ?_, fun st hlen hstream hwhy => ?_⟩⟩
    · obtain ⟨rx, got, hdiscard⟩ := commandHdr_inFlight (h1 := h1) htag
      rw [hdiscard]
      exact ⟨_, rfl, rfl, prt_modPort_other .., by rw [prt_modPort_same]⟩
    · have hnone : hdrRefusal s p (hdrOp h0) (hdrLen h1) = none := by
        simp [hdrRefusal, hi, Nat.not_lt.2 hhi, Nat.not_lt.2 hmax, Nat.not_lt.2 hroom]
      exact ⟨fun hlen => congrArg _ (commandHdr_received htag hlanes hres hwake hnone hlen (by omega)),
        fun hlen => congrArg _ (commandHdr_whole htag hlanes hres hwake hnone hlen)⟩
    · have hsome : hdrRefusal s p (hdrOp h0) (hdrLen h1) = some st := by
        rcases hwhy with ⟨hi, hle, rfl⟩ | ⟨hi, hlt, rfl⟩ | ⟨⟨i, hi, hlong⟩, rfl⟩ | ⟨⟨i, hi, hhi, hmax, hfull⟩, rfl⟩
        · simp [hdrRefusal, hi, Nat.not_lt.2 hle]
        · simp [hdrRefusal, hi, hlt]
        · simp [hdrRefusal, hi, hlong]
        · simp [hdrRefusal, hi, Nat.not_lt.2 hhi, Nat.not_lt.2 hmax, hfull]
      exact congrArg _ (commandHdr_refused htag hlanes hres hwake hlen hstream hsome)
  · intro hrx hlen hcfg hinj harm hop
    have hdone : exec (.packetComplete p ws c) s = _ := execPacketComplete_accept ht hrx hlen
    rw [hdone, cfgDue_none hcfg, payloadIn_stored hinj harm hop]
    rfl
  · exact execPacketComplete_drop ht
  · intro l n k overran hrx
    have hbeat : exec (.streamBeat p w0 w1) s = .next (beatIn p w0 w1 s) := if_pos ht
    rw [hbeat]
    refine ⟨fun ho => ?_, fun ho hfree => ?_, fun ho hfree => ?_⟩ <;> subst ho
    · rw [beatIn_overran hrx]
    · rw [beatIn_full hrx hfree]
    · obtain ⟨k', hroom⟩ := beatIn_room (w0 := w0) (w1 := w1) hrx hfree
      exact ⟨k', congrArg _ hroom⟩

end Sys2Proof.Machine
end

section
/-! Daisy ports (O39): 04_host_ports R128 to R138. -/

namespace Sys2Proof.Machine

variable {s : State} {p : Port}

/-- The front ends work only in a powered device that neither is in STANDBY nor enters it (R83, R86, R100, R113). -/
theorem portOpen_powered (h : portOpen s = true) : s.pw.dev ≠ .off ∧ s.pw.dev ≠ .standby ∧ s.pw.stby ≠ .entering := by
  refine ⟨fun hdev => ?_, fun hdev => ?_, fun hentry => ?_⟩
  · simp [portOpen, isLive, hdev] at h
  · simp [portOpen, isLive, hdev] at h
  · simp [portOpen, hentry] at h

/-- A select wakes nothing while the front ends work (R101). -/
theorem csWake_open (h : portOpen s = true) : csWake p s = s := by
  obtain ⟨-, hstandby, hentry⟩ := portOpen_powered h
  unfold csWake wakeBy
  rw [if_neg hstandby, ite_eq_left_iff]
  intro
  split
  · contradiction
  · rfl

/-- A select captures the configuration and the input image (R113, R128, R133, R138). -/
theorem execDaisySelectBegin_captures (hd : (prt s p).daisy = true) (ho : portOpen s = true) (hsel : (prt s p).selected = false) :
    execDaisySelectBegin p s = .next (modPort p (fun y => { y with
      selected := true, ignoring := false, dcfg := cfgGet s (.portDcfg p), dmap := cfgGet s (.portDmap p), lastCs := s.now
      inImage := inputImage s (cfgGet s (.portDcfg p)) (cfgGet s (.portDmap p)) }) s) := by
  have hoff := (portOpen_powered ho).1
  simp only [execDaisySelectBegin, daisyOn, hd, hsel, hoff, ho, Bool.not_true, Bool.false_eq_true, or_self, if_true, if_false]
  rw [csWake_open (by exact ho)]

/-- The select of a daisy port ends. -/
def daisyDone (p : Port) (s : State) : State := modPort p (fun x => { x with selected := false, ignoring := false }) s

/-- The image that a frame brings: its last W bits (R134). -/
def daisyImage (c : Word) (bits : BitVec 32) : BitVec 32 := bits &&& BitVec.ofNat 32 (2 ^ daisyW c - 1)

/-- An image carries no CRC or the right one (R130, R134). -/
def daisyCrcOk (c : Word) (img : BitVec 32) : Bool := decide (daisyW c < 12) || imageCrc c img == img.extractLsb' 0 4

/-! With no injection armed, a frame is judged by its length, then by its CRC (R134, R136, log entry 30). -/

section Frame
variable {edges : Nat} {bits : BitVec 32} (hign : (prt s p).ignoring = false) (hinj : injAt s 8 3 = none)
include hign hinj

theorem daisyOff_badLength (hlen : daisyLenOk (prt s p).dcfg edges = false) :
    daisyOff p edges bits s = daisyDone p (daisyReject p false s) := by
  simp [daisyOff, hign, hinj, whenSt, hlen, daisyDone]

theorem daisyOff_badCrc (hlen : daisyLenOk (prt s p).dcfg edges = true)
    (hcrc : daisyCrcOk (prt s p).dcfg (daisyImage (prt s p).dcfg bits) = false) :
    daisyOff p edges bits s = daisyDone p (daisyReject p true s) := by
  simp only [daisyCrcOk, daisyImage, Bool.or_eq_false_iff, decide_eq_false_iff_not, Nat.not_lt, beq_eq_false_iff_ne] at hcrc
  simp [daisyOff, hign, hinj, whenSt, hlen, hcrc, daisyDone]

theorem daisyOff_good (hlen : daisyLenOk (prt s p).dcfg edges = true)
    (hcrc : daisyCrcOk (prt s p).dcfg (daisyImage (prt s p).dcfg bits) = true) :
    daisyOff p edges bits s = daisyDone p (daisyAccept p (daisyImage (prt s p).dcfg bits) s) := by
  have hgood : (decide (12 ≤ daisyW (prt s p).dcfg) && imageCrc (prt s p).dcfg (daisyImage (prt s p).dcfg bits)
      != (daisyImage (prt s p).dcfg bits).extractLsb' 0 4) = false := by
    simp only [daisyCrcOk, Bool.or_eq_true, decide_eq_true_eq, beq_iff_eq] at hcrc
    rcases hcrc with hshort | hcrc
    · simp [Nat.not_le.2 hshort]
    · simp [hcrc]
  simp only [daisyImage] at hgood
  simp [daisyOff, hign, hinj, whenSt, hlen, hgood, daisyDone, daisyImage]

end Frame

/-- The state in which an accepted frame's bits act: the output image is set, and the frame is counted (R134). -/
def daisyTaken (p : Port) (img : BitVec 32) (s : State) : State :=
  modPort p (fun y => { y with
    outImage := img, accepted := y.accepted + 1, lastFrame := 1, lastAccept := s.now, timerOff := false
    fresh := y.fresh && !decide (s.pw.dev = .run) }) s

theorem daisyAccept_notRun {img : BitVec 32} (h : s.pw.dev ≠ .run) : daisyAccept p img s = daisyTaken p img s := by
  simp [daisyAccept, daisyTaken, h]

theorem daisyAccept_run {img : BitVec 32} (h : s.pw.dev = .run) :
    daisyAccept p img s = foldSt (List.range (daisyD (prt s p).dcfg)) (fun i v =>
      let k := i + daisyLow (prt s p).dcfg
      if ((prt s p).fresh || bit img k != bit (prt s p).outImage k) && fld (prt s p).dmap 0 6 != 63 then
        daisyAct p (fld (prt s p).dmap 0 6 + i) (bit img k) v else v) (daisyTaken p img s) := by
  simp [daisyAccept, daisyTaken, h, modPort_modPort]

theorem foldSt_skip {α : Type} {l : List α} : foldSt l (fun _ v => v) s = s := by
  induction l with
  | nil => rfl
  | cons a l ih => exact ih

/-- In RUN each bit that changes acts, in the first frame every bit (R135). -/
theorem daisyAccept_acts {img : BitVec 32} (h : s.pw.dev = .run) (hbase : fld (prt s p).dmap 0 6 ≠ 63) :
    daisyAccept p img s = foldSt (List.range (daisyD (prt s p).dcfg)) (fun i v =>
      let k := i + daisyLow (prt s p).dcfg
      if (prt s p).fresh = true ∨ bit img k ≠ bit (prt s p).outImage k then
        daisyAct p (fld (prt s p).dmap 0 6 + i) (bit img k) v else v) (daisyTaken p img s) := by
  rw [daisyAccept_run h]
  simp [hbase]

/-- Base 63 maps no output (R132). -/
theorem daisyAccept_unmapped {img : BitVec 32} (h : s.pw.dev = .run) (hbase : fld (prt s p).dmap 0 6 = 63) :
    daisyAccept p img s = daisyTaken p img s := by
  rw [daisyAccept_run h]
  simp [hbase, foldSt_skip]

/-- The end of an open select judges its frame (R134). -/
theorem execDaisyFrame_selected {edges : Nat} {bits : BitVec 32} (hd : (prt s p).daisy = true) (ho : portOpen s = true)
    (hsel : (prt s p).selected = true) : execDaisyFrame p edges bits s = .next (daisyOff p edges bits s) := by
  simp [execDaisyFrame, hd, hsel, (portOpen_powered ho).1]

theorem execDaisyTimeout_expires (hd : (prt s p).daisy = true) (ho : portOpen s = true) (hon : (prt s p).timerOff = false)
    (hticks : daisyTicks (prt s p).dcfg ≠ 0) :
    execDaisyTimeout p s = .next (daisyExpire p (reach ((prt s p).lastAccept + daisyTicks (prt s p).dcfg) s)) := by
  simp [execDaisyTimeout, hd, ho, hon, hticks]

theorem execDaisyTimeout_off (h : (prt s p).timerOff = true) : execDaisyTimeout p s = .next s := by
  simp [execDaisyTimeout, h]

/-- Settles O39: a select by what it captures, a frame by its judgement (length, CRC, then its bits), and the timeout. -/
theorem daisyFrames : Obligations.DaisyFrames := by
  intro p edges bits s hdaisy hopen x done img crcOk
  refine ⟨execDaisySelectBegin_captures hdaisy hopen, fun hsel hign hinj => ?_,
    execDaisyTimeout_expires hdaisy hopen, execDaisyTimeout_off⟩
  have hexec : exec (.daisyFrame p edges bits) s = .next (daisyOff p edges bits s) :=
    execDaisyFrame_selected hdaisy hopen hsel
  rw [hexec]
  refine ⟨fun hlen => congrArg _ (daisyOff_badLength hign hinj hlen),
    fun hlen hcrc => congrArg _ (daisyOff_badCrc hign hinj hlen hcrc), fun hlen hcrc => ?_⟩
  rw [daisyOff_good hign hinj hlen hcrc]
  exact ⟨fun hrun => congrArg _ (congrArg _ (daisyAccept_notRun hrun)),
    fun hrun hbase => congrArg _ (congrArg _ (daisyAccept_acts hrun hbase)),
    fun hrun hbase => congrArg _ (congrArg _ (daisyAccept_unmapped hrun hbase))⟩

end Sys2Proof.Machine
end

section
/-! HELLO and STATUS (O9): 05_packet_protocol R161, R162, R167. Both are answered at once; what their replies show of the
device is not touched by the take-up of the packet. -/

namespace Sys2Proof.Machine

variable {s : State} {op : Op} {m : Msg}

/-- The command of a packet whose checks are passed is answered as its execution says (R156). -/
theorem interp_answers (h : PacketHead op m s) {hd : Handler} {i : OpInfo} (hi : opInfo op = some i) (hnow : i.deferred = false)
    (hj : judge op hd m false (takenUp op m s) = none) {st : Status} {ws : List Word} {t : State}
    (hrun : hd.run m (takenUp op m s) = (.reply st ws, t)) (ht : resetting t = false) :
    interp op hd m s = .next (replied m st ws t) := by
  rw [interp_ready h hd i hi hj, hrun, hnow, if_neg Bool.false_ne_true, answer_reply ht]

/-! ### The vintage (R162) -/

/-- The vintage that HELLO chooses, where it can choose one. -/
theorem helloVintage_eq (w : Word) :
    helloVintage w
      = if 1 ≤ fld w 4 4 ∧ fld w 4 4 ≤ fld w 0 4 ∧ fld w 4 4 ≤ 3 then some (min (fld w 0 4) 3) else none := by
  unfold helloVintage
  dsimp only
  by_cases hcommon : 1 ≤ fld w 4 4 ∧ fld w 4 4 ≤ fld w 0 4 ∧ fld w 4 4 ≤ 3
  · rw [if_pos hcommon, if_neg (by omega)]
  · rw [if_neg hcommon, if_pos (by omega)]

theorem judge_hello {w : Word} (h : PacketReady Op.hello m s) (hw : m.words = [w]) (hrange : fld w 8 12 = 0) :
    judge Op.hello helloH m false (takenUp Op.hello m s) = none :=
  judge_ready h helloH _ rfl rfl (by simp [hw]) (by simp [hw]) rfl rfl (by simp [helloH, pword, hw, hrange]) rfl rfl

theorem Took.linkVintage {t : State} (h : Took s t) : linkVintage t = linkVintage s := by
  rw [h.1]; rfl

theorem Took.fwVer {t : State} (h : Took s t) : fwVer t = fwVer s := by
  rw [h.1]; rfl

theorem exec_hello_none {w : Word} (h : PacketReady Op.hello m s) (hw : m.words = [w]) (hrange : fld w 8 12 = 0)
    (hv : helloVintage w = none) : exec (.hello m) s = .next (replied m stVintage [] (takenUp Op.hello m s)) :=
  interp_answers h.toPacketHead rfl rfl (judge_hello h hw hrange) (by simp [helloH, pword, hw, hv])
    (takenUp_noReset _ m s h.noReset)

theorem exec_hello_some {w : Word} {v : Nat} (h : PacketReady Op.hello m s) (hw : m.words = [w]) (hrange : fld w 8 12 = 0)
    (hv : helloVintage w = some v) :
    exec (.hello m) s = .next (replied m stOk
      [pack [(0, v), (4, 3), (8, linkVintage s)], 0x04860, fwVer s,
        pack [(0, (pidx m.port).val), (1, (prt s (pother m.port)).vintage.toNat)]]
      (modPort m.port (fun x => { x with vintage := BitVec.ofNat 2 v }) (takenUp Op.hello m s))) := by
  have htook := takenUp_took Op.hello m s
  refine interp_answers h.toPacketHead rfl rfl (judge_hello h hw hrange) ?_ (takenUp_noReset _ m s h.noReset)
  have hother := takenUp_other Op.hello m s
  simp only [helloH, pword, hw, List.getD_cons_zero, hv, prt_modPort_other, hother, ← htook.linkVintage, ← htook.fwVer]
  rfl

/-! ### The status words (R167) -/

/-- The tracker's angle depends on no protected memory but the tooth corrections (R237). -/
theorem Took.angNow {t : State} (h : Took s t) : angNow t = angNow s := by
  have hcor : memCell t 15 = memCell s 15 := by
    funext k
    rw [memCell, memCell, h.2 15 (by decide)]
  unfold Machine.angNow Machine.estAngle Machine.toothAngle Machine.tcorOf
  simp only [hcor]
  rw [h.1]
  rfl

theorem statusWords_takenUp : statusWords m.port (takenUp op m s) = statusWords m.port s := by
  have htook := takenUp_took op m s
  have hq : (prt (takenUp op m s) m.port).replyQ = (prt s m.port).replyQ := by rw [takenUp_port]
  rw [statusWords, statusWords, takenUp_devStateWord, htook.angNow, hq]
  rw [htook.1]
  rfl

theorem exec_status (h : PacketReady Op.status m s) (hw : m.words = []) :
    exec (.status m) s = .next (replied m stOk (statusWords m.port s) (takenUp Op.status m s)) := by
  have hj : judge Op.status statusH m false (takenUp Op.status m s) = none :=
    judge_ready h statusH _ rfl rfl (by simp) (by simp [hw]) rfl rfl rfl rfl rfl
  refine interp_answers h.toPacketHead rfl rfl hj ?_ (takenUp_noReset _ m s h.noReset)
  rw [← statusWords_takenUp (op := Op.status)]
  rfl

/-- Settles O9: HELLO by whether it finds a vintage, STATUS by its words, which the take-up leaves as they are. -/
theorem helloAndStatus : Obligations.HelloAndStatus := by
  refine ⟨fun m w s h hw hrange => ?_, fun m s => exec_status⟩
  have hv := helloVintage_eq w
  split
  next hcommon => exact exec_hello_some h hw hrange (hv.trans (if_pos hcommon))
  next hnone => exact exec_hello_none h hw hrange (hv.trans (if_neg hnone))

end Sys2Proof.Machine
end

section
/-! Racking (O23): 18_recording_replay R524 to R528. Operations of the recorder that only write words leave
alone all that racking works on; the others, and the reports of faults, leave the ring of rack pages alone. -/

namespace Sys2Proof.Machine

variable {s t : State}

/-! ### What the recorder leaves alone -/

/-- What automatic racking keeps beside the slots: the configuration with the ring's limits, CASK_RNEXT, and the attempts at
the present page (R525, R528). -/
def pageRing (s : State) : Sparse × Word × Nat := (s.cfg, s.cask.rnext, s.cask.tries)

/-- All that racking works on: the ring of pages, the closed slots, the RACK commands, and the requests to the memory master
port (R525 to R528). -/
def racking (s : State) : (Sparse × Word × Nat) × List Nat × List RackJob × Mmp :=
  (pageRing s, s.cask.closed, s.cask.rack, s.mmp)

theorem pageRing_of_racking (h : racking t = racking s) : pageRing t = pageRing s := congrArg (·.1) h

theorem closed_of_racking (h : racking t = racking s) : t.cask.closed = s.cask.closed := congrArg (·.2.1) h

theorem racking_congr (hcfg : t.cfg = s.cfg) (hcask : t.cask = s.cask) (hmmp : t.mmp = s.mmp) : racking t = racking s := by
  simp only [racking, pageRing, hcfg, hcask, hmmp]

@[simp] theorem pageRing_modCask {f : Cask → Cask} (hnext : (f s.cask).rnext = s.cask.rnext)
    (htries : (f s.cask).tries = s.cask.tries) : pageRing (modCask f s) = pageRing s := by
  simp [pageRing, hnext, htries]

@[simp] theorem racking_modCask {f : Cask → Cask} (hnext : (f s.cask).rnext = s.cask.rnext)
    (htries : (f s.cask).tries = s.cask.tries) (hclosed : (f s.cask).closed = s.cask.closed)
    (hrack : (f s.cask).rack = s.cask.rack) : racking (modCask f s) = racking s := by
  simp [racking, hnext, htries, hclosed, hrack]

@[simp ↓] theorem pageRing_ite {c : Prop} [Decidable c] :
    pageRing (if c then s else t) = if c then pageRing s else pageRing t := apply_ite ..

@[simp ↓] theorem racking_ite {c : Prop} [Decidable c] :
    racking (if c then s else t) = if c then racking s else racking t := apply_ite ..

@[simp] theorem raise_racking (n) : racking (raise n s) = racking s :=
  racking_congr (raise_cfg ..) (raise_cask ..) (raise_mmp ..)

@[simp] theorem raise_pageRing (n) : pageRing (raise n s) = pageRing s := pageRing_of_racking (raise_racking n)

@[simp] theorem modMmp_pageRing (f) : pageRing (modMmp f s) = pageRing s := rfl

/-- A store of a word concerns the memories, their counts and the interrupt controller only. -/
@[simp] theorem memPut_racking (m a w) : racking (memPut m a w s) = racking s := by
  have hset : ∀ c (u : State), racking (memSet m a c u) = racking u := fun _ _ => rfl
  have hline : ∀ b n c (u : State), racking (setLineCrc b n c u) = racking u := fun _ _ _ _ => rfl
  have hmi : ∀ f (u : State), racking (modMi f u) = racking u := fun _ _ => rfl
  unfold memPut
  cases lineBank s m <;> simp [hset, hline, hmi]

@[simp] theorem memPuts_racking (m a ws) : racking (memPuts m a ws s) = racking s :=
  foldSt_keeps racking _ _ (fun _ _ => memPut_racking ..) s

@[simp] theorem memClearRange_racking (m a n) : racking (memClearRange m a n s) = racking s := rfl

/-! Records, and the hash of a segment (R516 to R519). -/

@[simp] theorem recWords_racking (ws) : racking (recWords ws s) = racking s := by simp [recWords]

@[simp] theorem recRaw_racking (type arg stamp ws) : racking (recRaw type arg stamp ws s) = racking s := by simp [recRaw]

@[simp] theorem recSession_racking : racking (recSession s) = racking s := recRaw_racking ..

@[simp] theorem recCheckpoint_racking : racking (recCheckpoint s) = racking s :=
  (foldSt_keeps racking _ _ (fun _ _ => recRaw_racking ..) _).trans (recRaw_racking ..)

@[simp] theorem recHeld_racking : racking (recHeld s) = racking s :=
  (foldSt_keeps racking _ _ (fun _ _ => recRaw_racking ..) _).trans (racking_modCask rfl rfl rfl rfl)

@[simp] theorem hashHead_racking : racking (hashHead s) = racking s := by
  unfold hashHead
  split
  · rfl
  · simp [whenSt]

@[simp] theorem hashBefore_racking (slot n) : racking (hashBefore slot n s) = racking s := by
  induction n generalizing s with
  | zero => rfl
  | succ n ih =>
    unfold hashBefore
    split
    · simp [ih]
    · rfl

@[simp] theorem memPut_pageRing (m a w) : pageRing (memPut m a w s) = pageRing s := pageRing_of_racking (memPut_racking ..)

@[simp] theorem recRaw_pageRing (type arg stamp ws) : pageRing (recRaw type arg stamp ws s) = pageRing s :=
  pageRing_of_racking (recRaw_racking ..)

@[simp] theorem hashBefore_pageRing (slot n) : pageRing (hashBefore slot n s) = pageRing s :=
  pageRing_of_racking (hashBefore_racking ..)

/-! Segments (R514, R515, R521). -/

/-- A slot in which a segment is opened holds no closed one any more (R514). -/
theorem segOpen_racking (first last) :
    racking (segOpen first last s) = (pageRing s, s.cask.closed.filter (· != s.cask.slot), s.cask.rack, s.mmp) :=
  (memPuts_racking ..).trans (memClearRange_racking ..)

@[simp] theorem segNext_pageRing : pageRing (segNext s) = pageRing s := by
  unfold segNext
  split
  · rfl
  · show (racking (recHeld _)).1 = _
    simp [segOpen_racking]

@[simp] theorem autoKick_pageRing : pageRing (autoKick s) = pageRing s := by
  unfold autoKick
  split
  · rfl
  · simp

@[simp] theorem segClose_pageRing (code last) : pageRing (segClose code last s) = pageRing s := by
  simp [segClose, highWater]

@[simp] theorem slotFreed_pageRing (slot) : pageRing (slotFreed slot s) = pageRing s := by
  unfold slotFreed
  simp

@[simp] theorem sessionEnding_pageRing (code) : pageRing (sessionEnding code s) = pageRing s := by
  have hend := (pageRing_modCask (s := segClose code false s)
    (f := fun k => { k with ending := some (BitVec.ofNat 3 code), freeze := none }) rfl rfl).trans (segClose_pageRing ..)
  unfold sessionEnding
  dsimp only
  split
  · exact hend
  · split
    · exact hend
    · exact (pageRing_modCask rfl rfl).trans hend

@[simp] theorem segRoll_pageRing (code) : pageRing (segRoll code s) = pageRing s := by
  unfold segRoll
  split <;> simp

@[simp] theorem recDrop_pageRing (kind) : pageRing (recDrop kind s) = pageRing s := by
  unfold recDrop
  refine pageRing_modCask ?_ ?_ <;> dsimp only <;> split <;> rfl

@[simp] theorem recLoss_pageRing : pageRing (recLoss s) = pageRing s := by simp [recLoss]

@[simp] theorem recOffer_pageRing (type arg stamp ws) : pageRing (recOffer type arg stamp ws s) = pageRing s := by
  unfold recOffer
  simp

/-! Reports of faults that are no security events (R437 to R445). -/

@[simp] theorem modFlt_pageRing (f) : pageRing (modFlt f s) = pageRing s := rfl

@[simp] theorem setFltCnt_pageRing (d c x) : pageRing (setFltCnt d c x s) = pageRing s := rfl

@[simp] theorem recFault_pageRing (d c cls promoted unit) : pageRing (recFault d c cls promoted unit s) = pageRing s := by
  simp [recFault, recNow]

@[simp] theorem logAdd_pageRing (d c cls promoted unit) : pageRing (logAdd d c cls promoted unit s) = pageRing s := rfl

@[simp] theorem holdFault_pageRing (d c unit promoted) : pageRing (holdFault d c unit promoted s) = pageRing s := by
  unfold holdFault
  split <;> rfl

@[simp] theorem startReset_pageRing (cause fatal) : pageRing (startReset cause fatal s) = pageRing s := rfl

@[simp] theorem modAon_pageRing (f) : pageRing (modAon f s) = pageRing s := rfl

@[simp] theorem writeFrec_pageRing (d c unit esc pc pu) : pageRing (writeFrec d c unit esc pc pu s) = pageRing s := rfl

@[simp] theorem fatal_pageRing (d c unit esc pc pu) : pageRing (fatal d c unit esc pc pu s) = pageRing s := by simp [fatal]

@[simp] theorem freezeOnFault_pageRing : pageRing (freezeOnFault s) = pageRing s := by simp [freezeOnFault, caskFreezeGo]

section
variable {d : Fin 12} (hd : d.val ≠ 9)
include hd

theorem contain_pageRing (c unit promoted) : pageRing (contain d c unit promoted s) = pageRing s := by
  unfold contain
  split <;> simp [securityEvent, hd]

theorem report_pageRing (c unit) : pageRing (report d c unit s) = pageRing s := by
  unfold report
  split <;> simp [securityEvent, hd, contain_pageRing, countCorrected]

end

/-! A slot is read before it is written (R524). -/

theorem memRead_caskM_pageRing (a) : pageRing (memRead .host caskM a s).2 = pageRing s := by
  have hset : ∀ c (u : State), pageRing (memSet caskM a c u) = pageRing u := fun _ _ => rfl
  have hcnt : ∀ f (u : State), pageRing (modCnt caskM f u) = pageRing u := fun _ _ => rfl
  have hreport : ∀ c unit (u : State), pageRing (report 7 c unit u) = pageRing u :=
    fun _ _ _ => report_pageRing (by decide) ..
  have hline : lineBank s caskM = none := rfl
  have hreact : ∀ u : State, badReaction .host caskM a u = u := fun _ => rfl
  unfold memRead
  rw [hline]
  dsimp only
  split
  · rfl
  · simp [noteCorrected, hset, hcnt, hreport]
  · simp [noteBad, hreact, hcnt, hreport]

theorem slotScan_pageRing (slot) : pageRing (slotScan slot s).2 = pageRing s :=
  List.foldlRecOn (motive := fun r : Bool × State => pageRing r.2 = pageRing s) _ _ rfl
    fun _ hr _ _ => (memRead_caskM_pageRing _).trans hr

/-! ### Closed slots -/

@[simp] theorem autoKick_closed : (autoKick s).cask.closed = s.cask.closed := by
  unfold autoKick
  split
  · rfl
  next slot _ _ =>
    split
    · show (hashBefore slot 256 s).cask.closed = s.cask.closed
      exact closed_of_racking (hashBefore_racking ..)
    · rfl

/-- A slot that holds no closed segment holds none when the next segment is opened. -/
theorem segNext_closed_notMem {slot : Nat} (h : slot ∉ s.cask.closed) : slot ∉ (segNext s).cask.closed := by
  unfold segNext
  split
  · exact h
  · show slot ∉ (racking (recHeld _)).2.1
    simp [segOpen_racking, h]

theorem slotFreed_closed_notMem (slot) : slot ∉ (slotFreed slot s).cask.closed := by
  have hfree : slot ∉ (modCask (fun k => { k with closed := k.closed.filter (· != slot) }) s).cask.closed := by simp
  unfold slotFreed
  dsimp only
  split
  · exact segNext_closed_notMem hfree
  · exact hfree

/-! ### Automatic racking (R525, R528) -/

theorem rackRing_congr (h : pageRing t = pageRing s) : rackRing t = rackRing s := by
  simp only [pageRing, Prod.mk.injEq] at h
  obtain ⟨hcfg, hnext, -⟩ := h
  rw [rackRing, rackRing, cfgGet, cfgGet, hcfg, hnext]
  rfl

section
variable {q : MmpReq} {slot : Nat} (hended : autoEnded s = some q) (hslot : s.cask.autoSlot = some slot)
include hended hslot

/-- A written page frees its slot, and the next page of the ring is up (R528). -/
theorem execAutoRackPageDone_written (hok : q.failed = none) :
    ∃ t, exec .autoRackPageDone s = .next t ∧ slot ∉ t.cask.closed ∧ t.cask.tries = 0 ∧ t.cask.rnext = rackRing s := by
  have hexec : exec .autoRackPageDone s = execAutoRackPageDone s := rfl
  simp only [hexec, execAutoRackPageDone, hended, hslot, hok, Option.isNone_none, if_true]
  have hscan := (slotScan_pageRing (s := modMmp (fun m => { m with reqs := m.reqs.filter (· != q) }) s) slot).trans
    (modMmp_pageRing _)
  generalize (slotScan slot _).2 = u at hscan ⊢
  have hring : ∀ v : State, pageRing (autoKick (slotFreed slot v)) = pageRing v := by simp
  have h := hring (modCask (fun k => { k with rnext := rackRing u, autoSlot := none, tries := 0 }) u)
  simp only [pageRing, Prod.mk.injEq] at h
  obtain ⟨-, hnext, htries⟩ := h
  exact ⟨_, rfl, by rw [autoKick_closed]; exact slotFreed_closed_notMem slot, htries, hnext.trans (rackRing_congr hscan)⟩

/-- A page that failed is tried again in the same place (R528). -/
theorem execAutoRackPageDone_again (hfail : q.failed.isSome = true) (htries : s.cask.tries = 0) :
    ∃ t, exec .autoRackPageDone s = .next t ∧ t.cask = { s.cask with tries := 1 }
      ∧ t.mmp.reqs = s.mmp.reqs.filter (· != q) ++ [rackReq s s.cask.rnext slot none] := by
  have hexec : exec .autoRackPageDone s = execAutoRackPageDone s := rfl
  have hno : q.failed.isNone = false := by simpa using hfail
  refine ⟨mmpSubmit (rackReq s s.cask.rnext slot none) (modCask (fun k => { k with tries := 1 })
    (modMmp (fun m => { m with reqs := m.reqs.filter (· != q) }) s)), ?_, rfl, rfl⟩
  simp only [hexec, execAutoRackPageDone, hended, hslot, hno, Bool.false_eq_true, if_false, modMmp_cask, htries, if_true]
  rfl

/-- The second failure of a page stops automatic racking (R528). -/
theorem execAutoRackPageDone_stops (hfail : q.failed.isSome = true) (htries : s.cask.tries ≠ 0) :
    exec .autoRackPageDone s = .next (raise 79 (modCask (fun k => { k with autoStop := true, autoSlot := none, tries := 0 })
      (modMmp (fun m => { m with reqs := m.reqs.filter (· != q) }) s))) := by
  have hexec : exec .autoRackPageDone s = execAutoRackPageDone s := rfl
  have hno : q.failed.isNone = false := by simpa using hfail
  simp only [hexec, execAutoRackPageDone, hended, hslot, hno, Bool.false_eq_true, if_false, modMmp_cask, htries]

end

/-! ### RACK of one page (R170, R526) -/

variable {m : Msg} {page : Word} {d : Deferred} {j : RackJob} {slot : Nat} {l : List Nat}

/-- An unstaged RACK of one page as it is taken up. -/
def onePage (d : Deferred) (page : Word) : RackJob :=
  { cmd := d, staged := false, pages := [page], slots := [], nDone := 0, wait := 0, ended := false, fail := none }

/-- A RACK command is under way. -/
def rackAdded (j : RackJob) (s : State) : State := modCask (fun k => { k with rack := k.rack ++ [j] }) s

/-- The state in which a RACK executes: its packet is taken up, and its reply is to come (R156). -/
def rackTaken (m : Msg) (s : State) : State := addDeferred (defOf Op.rack m) (takenUp Op.rack m s)

theorem answerDeferred_later {op : Op} : answerDeferred op m (.later, s) = s := by
  simp [answerDeferred, answer]

theorem rackGo_onePage (hw : m.words = [0, page]) :
    rackGo m s = (.later, rackUnit (onePage (defOf Op.rack m) page) (rackAdded (onePage (defOf Op.rack m) page) s)) := by
  have hstaged : staged m = false := by simp [staged, pword, hw, bit]
  simp [rackGo, hstaged, hw, onePage, rackAdded]

/-- A RACK without automatic racking begins its first unit. -/
theorem exec_rack_onePage (h : PacketReady Op.rack m s) (hw : m.words = [0, page]) (hauto : cfgBit s .caskCfg 1 = false) :
    exec (.rack m) s = .next (rackUnit (onePage (defOf Op.rack m) page)
      (rackAdded (onePage (defOf Op.rack m) page) (rackTaken m s))) := by
  have hcfg : cfgBit (takenUp Op.rack m s) .caskCfg 1 = false := by
    simpa [cfgBit, cfgGet, (takenUp_took Op.rack m s).cfg_eq] using hauto
  have hj : judge Op.rack rackH m false (takenUp Op.rack m s) = none :=
    judge_ready h rackH _ rfl (by simp [rackH, hcfg]) (by simp [hw]) (by simp [hw]) rfl rfl
      (by simp [rackH, stageOk, pword, hw, fld, bit]) rfl rfl
  have hexec : exec (.rack m) s = interp Op.rack rackH m s := rfl
  rw [hexec, interp_ready h.toPacketHead rackH _ rfl hj, if_pos rfl]
  exact congrArg _ ((congrArg _ (rackGo_onePage hw)).trans answerDeferred_later)

/-- The command added last is put in its place. -/
theorem rackSet_rack_last {x : RackJob} {js : List RackJob} (hrack : s.cask.rack = js ++ [x]) (hx : x.cmd = j.cmd)
    (hother : ∀ y ∈ js, y.cmd ≠ j.cmd) : (rackSet j s).cask.rack = js ++ [j] := by
  have hmap : js.map (fun y => if y.cmd = j.cmd then j else y) = js :=
    (List.map_congr_left fun y hy => if_neg (hother y hy)).trans (List.map_id' js)
  simp [rackSet, hrack, hx, hmap]

theorem rackable_rackAdded (hj : j.slots = []) : rackable (rackAdded j s) = rackable s := by
  simp [rackable, rackAdded, hj]

/-- Where no slot waits the unit fails with STATE (R526), whatever its page: the model's choice (log entry 45). -/
theorem rackUnit_onePage_noSlot (h : rackable s = []) :
    rackUnit (onePage d page) s = rackFail (onePage d page) stState page s := by
  simp [rackUnit, onePage, rackRefuses, h]

/-- The oldest waiting slot goes to the page, where window 1 holds it and no tap withholds the opcode (R526). -/
theorem rackUnit_onePage_begins (h : rackable s = slot :: l) (hwin : inWindowW s 1 (4096 * page.toNat) 4096 = true)
    (htap : opHeld s d.port Op.rack = false) :
    rackUnit (onePage d page) s = rackSet { onePage d page with slots := [slot], wait := 1 }
      (mmpSubmit (rackReq (hashBefore slot 256 s) page slot (some d)) (hashBefore slot 256 s)) := by
  simp [rackUnit, onePage, rackRefuses, rackBegin, h, hwin, htap]

/-- A window's limits and devices stand in the configuration (R543, R544). -/
theorem inWindowW_congr (h : t.cfg = s.cfg) (w : Fin 4) (word n : Nat) : inWindowW t w word n = inWindowW s w word n := by
  have hget : cfgGet t = cfgGet s := funext fun r => by rw [cfgGet, cfgGet, h]
  have hbit : cfgBit t = cfgBit s := by funext r i; rw [cfgBit, cfgBit, hget]
  have hfld : cfgFld t = cfgFld s := by funext r lo len; rw [cfgFld, cfgFld, hget]
  have hsize : selSize t = selSize s := funext fun k => by rw [selSize, selSize, selFld, selFld, hfld]
  have hsels : winSels t w = winSels s w := by rw [winSels, winSels, winFld, winFld, hfld]; rfl
  have hlocate : ∀ sels a, locate t sels a = locate s sels a := by
    intro sels
    induction sels with
    | nil => exact fun _ => rfl
    | cons k sels ih => exact fun a => by rw [locate, locate, hsize, ih]
  have hcovered : ∀ sels f a n, covered t sels f a n = covered s sels f a n := by
    intro sels f
    induction f with
    | zero => exact fun _ _ => rfl
    | succ f ih => exact fun a n => by simp only [covered, hlocate, hbit, ih]
  rw [inWindowW, inWindowW, hcovered, winByte, winByte, hsels, hbit, hget]

theorem inWindowW_rackAdded (w : Fin 4) (word n : Nat) : inWindowW (rackAdded j s) w word n = inWindowW s w word n :=
  inWindowW_congr (s := s) (t := rackAdded j s) rfl ..

theorem inWindowW_rackTaken (w : Fin 4) (word n : Nat) : inWindowW (rackTaken m s) w word n = inWindowW s w word n :=
  inWindowW_congr (t := rackTaken m s) (takenUp_took Op.rack m s).cfg_eq ..

section
variable (hnew : ∀ j ∈ s.cask.rack, j.cmd ≠ d)
include hnew

/-- Where no slot waits the command has failed with STATE (R526). -/
theorem rackUnit_added_noSlot (hslot : rackable s = []) :
    rackUnit (onePage d page) (rackAdded (onePage d page) s)
      = rackAdded { onePage d page with ended := true, fail := some (stState, page) } s := by
  rw [rackUnit_onePage_noSlot ((rackable_rackAdded rfl).trans hslot), rackFail]
  exact congrArg (fun l => modCask (fun k => { k with rack := l }) s)
    (rackSet_rack_last (s := rackAdded (onePage d page) s) (x := onePage d page) rfl rfl hnew)

/-- The oldest waiting slot is to be written to the page in window 1 (R525, R526). -/
theorem rackUnit_added_begins (hslot : rackable s = slot :: l) (hwin : inWindowW s 1 (4096 * page.toNat) 4096 = true)
    (htap : opHeld s d.port Op.rack = false) :
    ∃ t v, rackUnit (onePage d page) (rackAdded (onePage d page) s) = t ∧ t.deferred = s.deferred
      ∧ t.cask.rack = s.cask.rack ++ [{ onePage d page with slots := [slot], wait := 1 }]
      ∧ t.mmp.reqs = s.mmp.reqs ++ [rackReq v page slot (some d)] := by
  have hqueue := hashBefore_racking (s := rackAdded (onePage d page) s) slot 256
  have hstep := RecStep.hashBefore slot 256 (.refl (rackAdded (onePage d page) s))
  have hunit := rackUnit_onePage_begins (d := d) (page := page) ((rackable_rackAdded (j := onePage d page) rfl).trans hslot)
    ((inWindowW_rackAdded ..).trans hwin) ((opHeld_congr rfl rfl ..).trans htap)
  generalize hashBefore slot 256 (rackAdded (onePage d page) s) = v at hqueue hstep hunit
  simp only [racking, Prod.mk.injEq] at hqueue
  obtain ⟨-, -, hrack, hmmp⟩ := hqueue
  refine ⟨_, v, hunit, (show v.deferred = s.deferred by rw [hstep.1]; rfl), ?_, ?_⟩
  · exact rackSet_rack_last (x := onePage d page) hrack rfl hnew
  · exact congrArg (fun q : Mmp => q.reqs ++ [rackReq v page slot (some d)]) hmmp

end

/-! ### The end of a RACK (R526, R527) -/

section
variable (hj : s.cask.rack.find? (·.ended) = some j) (hd : s.deferred.contains j.cmd = true)
include hj hd

theorem exec_rackComplete_done (hfail : j.fail = none) :
    exec .rackComplete s = .next (raise 78 (completeDeferred j.cmd stOk (splitReply j.nDone stOk 0 0 false)
      (modCask (fun k => { k with rack := k.rack.filter (· != j) }) s))) := by
  have hexec : exec .rackComplete s = execRackComplete s := rfl
  have hmem : j.cmd ∈ s.deferred := by simpa using hd
  simp [hexec, execRackComplete, hj, hfail, hmem]

theorem exec_rackComplete_failed {st : Status} (hfail : j.fail = some (st, page)) (hunstaged : j.staged = false)
    (hsome : 1 ≤ j.nDone) :
    exec .rackComplete s = .next (raise 79 (raise 78 (completeDeferred j.cmd stPartial (splitReply j.nDone st page 0 false)
      (modCask (fun k => { k with rack := k.rack.filter (· != j) }) s)))) := by
  have hexec : exec .rackComplete s = execRackComplete s := rfl
  have hpos : j.nDone ≠ 0 := by omega
  have hmem : j.cmd ∈ s.deferred := by simpa using hd
  simp [hexec, execRackComplete, hj, hfail, hmem, hunstaged, hpos]

end

/-- Settles O23: the first unit of a RACK by whether a slot waits, its completion by whether it failed, and automatic racking
by how the page write has ended and which attempt it was. -/
theorem rackingWritesPages : Obligations.RackingWritesPages := by
  refine ⟨fun m page s => ⟨fun h hw hauto hnew => ⟨fun slot l hslot hwin => ?_, fun hslot => ?_⟩, fun j hj hd =>
    ⟨exec_rackComplete_done hj hd, fun st p => exec_rackComplete_failed hj hd⟩⟩, fun q slot s hended hslot =>
    ⟨execAutoRackPageDone_written hended hslot, execAutoRackPageDone_again hended hslot,
      execAutoRackPageDone_stops hended hslot⟩⟩
  · have htook := takenUp_took Op.rack m s
    have htap : opHeld (rackTaken m s) m.port Op.rack = false :=
      (opHeld_congr (s := s) htook.taps_eq htook.cfg_eq ..).trans h.bound
    have hdeferred : (rackTaken m s).deferred = s.deferred ++ [defOf Op.rack m] := congrArg (· ++ _) htook.deferred_eq
    obtain ⟨t, v, ht, htd, hrack, hreqs⟩ := rackUnit_added_begins (s := rackTaken m s) hnew hslot
      ((inWindowW_rackTaken ..).trans hwin) htap
    exact ⟨t, _, (exec_rack_onePage h hw hauto).trans (congrArg _ ht), htd.trans hdeferred, hrack, hreqs,
      rfl, rfl, rfl, rfl, rfl, rfl, rfl⟩
  · exact (exec_rack_onePage h hw hauto).trans (congrArg _ (rackUnit_added_noSlot (s := rackTaken m s) hnew hslot))

end Sys2Proof.Machine
end

section
/-! Taps (O10, O11): 06_registers_taps R188 to R190. What TAP_TAKE and TAP_RELEASE do depends on the holder of the tap alone,
which the take-up of the packet leaves as it is. -/

namespace Sys2Proof.Machine

variable {s : State} {m : Msg} {w : Word} {k : Fin 32}

/-! ### The packet of a tap command -/

theorem tapNo_val (hw : m.words = [w]) : (tapNo m).val = fld w 0 5 := by simp [tapNo, pword, hw]

theorem tapRange_word (hw : m.words = [w]) (hrange : fld w 5 15 = 0) : tapRange s m = true := by
  simp [tapRange, pword, hw, hrange]

theorem pother_ne (p : Port) : pother p ≠ p := by cases p <;> decide

theorem takenUp_holder (op : Op) (m : Msg) (s : State) (k : Fin 32) : (takenUp op m s).taps[k].holder = s.taps[k].holder := by
  rw [(takenUp_took op m s).taps_eq]

/-! ### TAP_TAKE (R188, R189) -/

/-- The reply word of TAP_TAKE: the tap and its holder (R189). -/
def tapWord (k : Fin 32) (o : Option Port) : Word := pack [(0, k.val), (5, holderCode o)]

theorem tapTakeH_run_free (hfree : s.taps[tapNo m].holder = none) :
    tapTakeH.run m s = (.reply stOk [tapWord (tapNo m) (some m.port)],
      modTap (tapNo m) (fun t => { t with holder := some m.port, since := s.now }) s) := by
  simp only [tapTakeH, tapHeld, hfree, if_true, modTap_taps, vmod_get]
  rfl

theorem tapTakeH_run_held {p : Port} (hheld : s.taps[tapNo m].holder = some p) :
    tapTakeH.run m s = (.reply (if p = pother m.port then stTap else stOk) [tapWord (tapNo m) (some p)], s) := by
  simp only [tapTakeH, tapHeld, hheld, reduceCtorEq, if_false, Option.some.injEq, decide_eq_true_eq]
  rfl

section
variable (h : PacketReady Op.tapTake m s) (hw : m.words = [w]) (hrange : fld w 5 15 = 0)
include h hw hrange

theorem judge_tapTake : judge Op.tapTake tapTakeH m false (takenUp Op.tapTake m s) = none :=
  judge_ready h tapTakeH _ rfl rfl (by simp [hw]) (by simp [hw]) rfl rfl (tapRange_word (s := takenUp Op.tapTake m s) hw hrange)
    rfl rfl

theorem exec_tapTake {st : Status} {ws : List Word} {t : State}
    (hrun : tapTakeH.run m (takenUp Op.tapTake m s) = (.reply st ws, t)) (hpw : t.pw = (takenUp Op.tapTake m s).pw) :
    exec (.tapTake m) s = .next (replied m st ws t) :=
  interp_answers h.toPacketHead rfl rfl (judge_tapTake h hw hrange) hrun
    ((congrArg (·.resetSeq.isSome) hpw).trans (takenUp_noReset _ m s h.noReset))

theorem exec_tapTake_free (hfree : s.taps[tapNo m].holder = none) :
    exec (.tapTake m) s = .next (replied m stOk [tapWord (tapNo m) (some m.port)]
      (modTap (tapNo m) (fun t => { t with holder := some m.port, since := s.now }) (takenUp Op.tapTake m s))) := by
  have hrun := tapTakeH_run_free ((takenUp_holder Op.tapTake m s _).trans hfree)
  rw [(takenUp_took ..).now_eq] at hrun
  exact exec_tapTake h hw hrange hrun rfl

theorem exec_tapTake_held {p : Port} (hheld : s.taps[tapNo m].holder = some p) :
    exec (.tapTake m) s = .next (replied m (if p = pother m.port then stTap else stOk) [tapWord (tapNo m) (some p)]
      (takenUp Op.tapTake m s)) :=
  exec_tapTake h hw hrange (tapTakeH_run_held ((takenUp_holder ..).trans hheld)) rfl

end

/-- Settles O10: a free tap, one that the sending port holds, and one that the other port holds. -/
theorem tapTakeReply : Obligations.TapTakeReply := by
  refine fun m w s h hw hrange => ⟨tapNo_val hw, fun hfree => ?_, fun hown => ?_, fun hother => ?_⟩
  · rw [exec_tapTake_free h hw hrange hfree]
    cases m.port <;> rfl
  · rw [exec_tapTake_held h hw hrange hown]
    cases m.port <;> rfl
  · rw [exec_tapTake_held h hw hrange hother]
    cases m.port <;> rfl

/-! ### TAP_RELEASE (R188) -/

/-- A check and those after it are passed when it does not refuse and they are passed (R154). -/
theorem check_eq_none {c : Prop} [Decidable c] {st : Status} {o : Option Status} :
    (if c then some st else o) = none ↔ ¬c ∧ o = none := by
  by_cases hc : c <;> simp only [hc, if_true, if_false, reduceCtorEq, not_true, not_false_eq_true, true_and, false_and]

/-- Where every other check is passed, authority decides (R154). -/
theorem judge_authority {op : Op} {hd : Handler} {bad : Bool}
    (hrest : judge op { hd with auth := fun _ _ => true } m bad s = none) :
    judge op hd m bad s = if hd.auth s m then none else some stDenied := by
  unfold judge at *
  split at hrest
  · cases hrest
  · simp only [check_eq_none] at hrest
    simp only [hrest, Bool.false_eq_true, if_false]
    cases hd.auth s m <;> rfl

section
variable (h : PacketReady Op.tapRelease m s) (hw : m.words = [w]) (hrange : fld w 5 15 = 0)
include h hw hrange

theorem judge_tapRelease :
    judge Op.tapRelease tapReleaseH m false (takenUp Op.tapRelease m s)
      = if s.taps[tapNo m].holder = some (pother m.port) then some stDenied else none := by
  have hauth : tapReleaseH.auth (takenUp Op.tapRelease m s) m = !decide (s.taps[tapNo m].holder = some (pother m.port)) :=
    congrArg (!·) (tapHeld_of_taps (takenUp_took ..).taps_eq ..)
  rw [judge_authority (judge_ready h _ _ rfl rfl (by simp [hw]) (by simp [hw]) rfl rfl
    (tapRange_word (s := takenUp Op.tapRelease m s) hw hrange) rfl rfl), hauth]
  by_cases hother : s.taps[tapNo m].holder = some (pother m.port)
  · rw [if_pos hother, decide_eq_true hother]
    rfl
  · rw [if_neg hother, decide_eq_false hother]
    rfl

theorem exec_tapRelease_denied (hother : s.taps[tapNo m].holder = some (pother m.port)) :
    exec (.tapRelease m) s = .next (replied m stDenied [] (takenUp Op.tapRelease m s)) := by
  have hexec : exec (.tapRelease m) s = interp Op.tapRelease tapReleaseH m s := rfl
  have hlost : (m.stream != .none && (stDenied == stAborted || stDenied == stLength || stDenied == stCheck)) = false :=
    Bool.and_false _
  rw [hexec, interp_refused h.toPacketHead _ _ ((judge_tapRelease h hw hrange).trans (if_pos hother)), hlost]
  exact congrArg _ (answer_reply (takenUp_noReset _ m s h.noReset))

/-- Unless the other port holds the tap, the command passes; it frees the tap where the sending port holds it. -/
theorem exec_tapRelease_ok (hmine : s.taps[tapNo m].holder ≠ some (pother m.port)) :
    exec (.tapRelease m) s = .next (replied m stOk [] (if s.taps[tapNo m].holder = some m.port then
      freeTap (tapNo m) 1 (takenUp Op.tapRelease m s) else takenUp Op.tapRelease m s)) := by
  have hreset := takenUp_noReset Op.tapRelease m s h.noReset
  refine interp_answers h.toPacketHead rfl rfl ((judge_tapRelease h hw hrange).trans (if_neg hmine)) ?_ ?_
  · rw [← takenUp_holder Op.tapRelease m s (tapNo m)]
    rfl
  · split
    · simpa [freeTap, resetting] using hreset
    · exact hreset

theorem exec_tapRelease_own (hown : s.taps[tapNo m].holder = some m.port) :
    exec (.tapRelease m) s = .next (replied m stOk [] (freeTap (tapNo m) 1 (takenUp Op.tapRelease m s))) := by
  have hmine : s.taps[tapNo m].holder ≠ some (pother m.port) := fun hother =>
    pother_ne _ (Option.some.inj (hother.symm.trans hown))
  rw [exec_tapRelease_ok h hw hrange hmine, if_pos hown]

theorem exec_tapRelease_free (hfree : s.taps[tapNo m].holder = none) :
    exec (.tapRelease m) s = .next (replied m stOk [] (takenUp Op.tapRelease m s)) := by
  have hnone : ∀ p, s.taps[tapNo m].holder ≠ some p := fun _ => hfree ▸ nofun
  rw [exec_tapRelease_ok h hw hrange (hnone _), if_neg (hnone _)]

end

/-! ### The idle timeout (R190) -/

/-- The tap is freed at its timeout, to which time moves where it has not passed it (log entry 3). -/
theorem execTapIdleTimeout_held (hlive : isLive s = true) (hheld : s.taps[k].holder.isSome = true) :
    execTapIdleTimeout k s = .next (freeTap k 2 (reach (s.taps[k].since + 2 ^ (cfgFld s (.tapCfg k) 0 4 - 1) * ms) s)) :=
  if_pos ⟨hheld, hlive⟩

/-- Settles O11: a release by the holder of the tap, and the idle timeout. -/
theorem tapIsFreed : Obligations.TapIsFreed := by
  refine fun m w k s => ⟨fun h hw hrange hk => ?_, execTapIdleTimeout_held⟩
  obtain rfl : tapNo m = k := Fin.ext ((tapNo_val hw).trans hk)
  exact ⟨exec_tapRelease_own h hw hrange, exec_tapRelease_free h hw hrange, exec_tapRelease_denied h hw hrange⟩

end Sys2Proof.Machine
end

section
/-! The register map (O55): 06_registers_taps R175. An address leads the lookup to one row of the map, and the row gives the
register's index back; that no two registers share an address follows, and so does the width of the addresses. -/

namespace Sys2Proof.Machine

variable {a : Nat}

/-! ### Rows and blocks of registers -/

theorem inRange_eq {n lo : Nat} {i : Fin n} (h : a = lo + i.val) (f : Fin n → Reg) : inRange n lo a f = some (f i) := by
  subst h
  simp [inRange]

theorem strided_eq {n st lo : Nat} {i : Fin n} (h : a = lo + st * i.val) (hst : 0 < st) (f : Fin n → Reg) :
    strided n st lo a f = some (f i) := by
  subst h
  simp [strided, hst]

theorem ChReg.ofOfs_ofs (r : ChReg) : ChReg.ofOfs r.ofs = some r := by
  cases r with
  | cnt k | fper k | lcnt k | lstamp k | tzero k | tgain k => revert k; decide
  | _ => rfl

theorem ChReg.ofs_lt (r : ChReg) : r.ofs < 64 := by
  cases r <;> simp only [ChReg.ofs] <;> omega

theorem GrpReg.ofOfs_ofs (r : GrpReg) : GrpReg.ofOfs r.ofs = some r := by cases r <;> rfl

theorem GrpReg.ofs_lt (r : GrpReg) : r.ofs < 64 := by cases r <;> decide

/-! ### The lookup at an address -/

theorem Reg.ofAddr_window (h : 0xA000 ≤ a) : Reg.ofAddr a = inRange 16384 0xA000 a .panWindow := by
  unfold Reg.ofAddr
  simp (disch := omega) only [↓if_neg]

/-- A channel's block holds its registers by offset (R305). -/
theorem Reg.ofAddr_chan {n : Chan} {o : Nat} (h : a = 0x6000 + 64 * n.val + o) (ho : o < 64) :
    Reg.ofAddr a = (ChReg.ofOfs o).map (.ch n) := by
  have hn : (a - 0x6000) / 64 = n.val := by omega
  have hofs : (a - 0x6000) % 64 = o := by omega
  unfold Reg.ofAddr Reg.ofChan
  simp (disch := omega) only [↓if_pos, ↓if_neg, ↓dif_pos, hn, hofs]

/-- A group's block holds its registers by offset (R374). -/
theorem Reg.ofAddr_grp {g : Grp} {o : Nat} (h : a = 0x7000 + 64 * g.val + o) (ho : o < 64) :
    Reg.ofAddr a = (GrpReg.ofOfs o).map (.grp g) := by
  have hg : (a - 0x7000) / 64 = g.val := by omega
  have hofs : (a - 0x7000) % 64 = o := by omega
  unfold Reg.ofAddr Reg.ofChan
  simp (disch := omega) only [↓if_pos, ↓if_neg, ↓dif_pos, ↓dif_neg, hg, hofs]

/-- The four registers of a pan stand next to one another (R303). -/
theorem Reg.ofAddr_pan {g : Grp} {p : Fin 16} {i : Fin 4} (h : a = 0x7600 + 64 * g.val + 4 * p.val + i.val) :
    Reg.ofAddr a = some #v[.panCfg g p, .panRegion g p, .panDecim g p, .panStat g p][i] := by
  have hg : (a - 0x7600) / 64 = g.val := by omega
  have hp : (a - 0x7600) % 64 / 4 = p.val := by omega
  have hi : a % 4 = i.val := by omega
  unfold Reg.ofAddr Reg.ofChan
  simp (disch := omega) only [↓if_pos, ↓if_neg, ↓dif_neg, ↓dif_pos, hg, hp, hi]
  obtain rfl | rfl | rfl | rfl : i = 0 ∨ i = 1 ∨ i = 2 ∨ i = 3 := by omega
  all_goals rfl

/-- The three registers of a protected memory stand next to one another (R481). -/
theorem Reg.ofAddr_mi {m : Fin 16} {i : Fin 3} (h : a = 0x8C40 + 4 * m.val + i.val) :
    Reg.ofAddr a = some #v[.miCnt m, .miLcor m, .miLbad m][i] := by
  have hm : (a - 0x8C40) / 4 = m.val := by omega
  have hi : a % 4 = i.val := by omega
  unfold Reg.ofAddr Reg.ofHigh
  simp (disch := omega) only [↓if_pos, ↓if_neg, ↓dif_neg, ↓dif_pos, hm, hi]
  obtain rfl | rfl | rfl : i = 0 ∨ i = 1 ∨ i = 2 := by omega
  all_goals rfl

/-- The lookup finds every register: one with a row of its own by evaluation, one of a row of many by the row's index, and
one of a block by its place in the block. -/
theorem Reg.ofAddr_eq (r : Reg) (h : a = r.addr) : Reg.ofAddr a = some r := by
  cases r with
  | portStat p | portPrio p | portDcfg p | portDmap p | portDstat p | portDstat2 p | portClr p =>
    subst h; cases p <;> decide
  | portErr p k => subst h; cases p <;> revert k <;> decide
  | wdErr k | bankCfg k | bankPeriod k | bankCheck k | bankChkExp k | bankStat k | caskSeg k | caskLoss k | secSer k
  | miRefbase k | govCnt k | caskRpofs k | mmpErr k | meminj k | govDefer k => subst h; revert k; decide
  | intCfg k | ipend k | ien k | iactA k | iactB k | fltCfg k | frec k | fltDom k | tapSum k =>
    simp only [Reg.addr] at h
    unfold Reg.ofAddr Reg.ofLow
    simp (disch := omega) only [↓if_pos, ↓if_neg, ↓dif_neg, inRange_eq h]
  | ivec p =>
    simp only [Reg.addr] at h
    unfold Reg.ofAddr Reg.ofLow
    simp (disch := omega) only [↓if_pos, ↓if_neg, inRange_eq h]
    cases p <;> rfl
  | modCfg k | modStat k | tapStat k | tapCfg k =>
    simp only [Reg.addr] at h
    unfold Reg.ofAddr Reg.ofLow
    simp (disch := omega) only [↓if_pos, ↓if_neg, ↓dif_neg, strided_eq h]
  | fltCnt d c =>
    simp only [Reg.addr] at h
    have hd : (a - 0xC40) / 32 = d.val := by omega
    have hc : (a - 0xC40) % 32 = c.val := by omega
    unfold Reg.ofAddr Reg.ofLow
    simp (disch := omega) only [↓if_pos, ↓if_neg, ↓dif_pos, hd, hc]
  | tb k | tbErr k | ang k | trkCnt k | tcor k | seqCnt k | toff k | mark k =>
    simp only [Reg.addr] at h
    unfold Reg.ofAddr Reg.ofMid
    simp (disch := omega) only [↓if_pos, ↓if_neg, inRange_eq h]
  | entry b i =>
    simp only [Reg.addr] at h
    unfold Reg.ofAddr Reg.ofMid
    obtain rfl | rfl : b = 0 ∨ b = 1 := by omega
    · simp (disch := omega) only [↓if_pos, ↓if_neg]
      exact inRange_eq h _
    · simp (disch := omega) only [↓if_pos, ↓if_neg]
      exact inRange_eq h _
  | ch n r => exact (Reg.ofAddr_chan h r.ofs_lt).trans (congrArg _ r.ofOfs_ofs)
  | grp g r => exact (Reg.ofAddr_grp h r.ofs_lt).trans (congrArg _ r.ofOfs_ofs)
  | smpCfg k | smpMask k | smpT k | smpCnt k | panSkip k =>
    simp only [Reg.addr] at h
    unfold Reg.ofAddr Reg.ofChan
    simp (disch := omega) only [↓if_pos, ↓if_neg, ↓dif_neg, inRange_eq h]
  | smpLast n k =>
    simp only [Reg.addr] at h
    have hn : (a - 0x7480) / 8 = n.val := by omega
    have hk : (a - 0x7480) % 8 = k.val := by omega
    unfold Reg.ofAddr Reg.ofChan
    simp (disch := omega) only [↓if_pos, ↓if_neg, ↓dif_neg, ↓dif_pos, hn, hk]
  | panCfg g p => exact Reg.ofAddr_pan (i := 0) h
  | panRegion g p => exact Reg.ofAddr_pan (i := 1) (h.trans (by simp only [Reg.addr]; omega))
  | panDecim g p => exact Reg.ofAddr_pan (i := 2) (h.trans (by simp only [Reg.addr]; omega))
  | panStat g p => exact Reg.ofAddr_pan (i := 3) (h.trans (by simp only [Reg.addr]; omega))
  | caskGrp k | caskDisel k | mmpHdata k | govGcfg k | govGstat k | govGpwr k =>
    simp only [Reg.addr] at h
    unfold Reg.ofAddr Reg.ofHigh
    simp (disch := omega) only [↓if_pos, ↓if_neg, ↓dif_neg, inRange_eq h]
  | mmpSel s k =>
    simp only [Reg.addr] at h
    have hs : (a - 0x8410) / 4 = s.val := by omega
    have hk : (a - 0x8410) % 4 = k.val := by omega
    unfold Reg.ofAddr Reg.ofHigh
    simp (disch := omega) only [↓if_pos, ↓if_neg, ↓dif_pos, hs, hk]
  | mmpWin w k =>
    simp only [Reg.addr] at h
    have hw : (a - 0x8440) / 4 = w.val := by omega
    have hk : (a - 0x8440) % 4 = k.val := by omega
    unfold Reg.ofAddr Reg.ofHigh
    simp (disch := omega) only [↓if_pos, ↓if_neg, ↓dif_neg, ↓dif_pos, hw, hk]
  | miCnt m => exact Reg.ofAddr_mi (i := 0) h
  | miLcor m => exact Reg.ofAddr_mi (i := 1) (h.trans (by simp only [Reg.addr]; omega))
  | miLbad m => exact Reg.ofAddr_mi (i := 2) (h.trans (by simp only [Reg.addr]; omega))
  | panWindow k => exact (Reg.ofAddr_window (h ▸ Nat.le_add_right ..)).trans (inRange_eq h _)
  | _ => subst h; rfl

theorem lt_of_inRange_eq_some {n lo : Nat} {f : Fin n → Reg} {r : Reg} (h : inRange n lo a f = some r) : a < lo + n := by
  refine Nat.lt_of_not_le fun hout => ?_
  rw [inRange, dif_neg (by omega)] at h
  cases h

/-- The map ends with the pan window. -/
theorem Reg.lt_of_ofAddr_eq_some {r : Reg} (h : Reg.ofAddr a = some r) : a < 0xE000 := by
  by_cases ha : a < 0xA000
  · omega
  · exact lt_of_inRange_eq_some ((Reg.ofAddr_window (Nat.le_of_not_lt ha)).symm.trans h)

/-- Settles O55: the lookup at a register's address finds that register, so it tells registers apart. -/
theorem registerMapRoundTrip : Obligations.RegisterMapRoundTrip := by
  intro r
  have h := r.ofAddr_eq rfl
  exact ⟨h, Nat.lt_trans (Reg.lt_of_ofAddr_eq_some h) (by decide),
    fun q hq => Option.some.inj ((q.ofAddr_eq hq.symm).symm.trans h)⟩

end Sys2Proof.Machine
end

section
/-! Reserved combinations in WHEEL (O57): 07_angle_tracking R209. The range rule of WHEEL refuses them; the record of a command
leaves the cask in its state, so a packet that brings one is judged as a single access is. -/

namespace Sys2Proof.Machine

variable {s t : State} {p : Port} {m : Msg} {v : Word}

/-! ### The recorder leaves the cask in its state -/

@[simp ↓] theorem cask_ite {c : Prop} [Decidable c] : (if c then s else t).cask = if c then s.cask else t.cask := apply_ite ..

@[simp ↓] theorem caskSt_ite {c : Prop} [Decidable c] {k l : Cask} : (if c then k else l).st = if c then k.st else l.st :=
  apply_ite ..

@[simp] theorem memPut_cask (m a w) : (memPut m a w s).cask = s.cask := by
  have hline : ∀ b n c (u : State), (setLineCrc b n c u).cask = u.cask := fun _ _ _ _ => rfl
  unfold memPut
  cases lineBank s m <;> simp [hline]

@[simp] theorem memPuts_cask (m a ws) : (memPuts m a ws s).cask = s.cask :=
  foldSt_keeps State.cask _ _ (fun _ _ => memPut_cask ..) s

@[simp] theorem memClearRange_cask (m a n) : (memClearRange m a n s).cask = s.cask := rfl

@[simp] theorem highWater_cask : (highWater s).cask = s.cask := by simp [highWater]

@[simp] theorem recRaw_caskSt (type arg stamp ws) : (recRaw type arg stamp ws s).cask.st = s.cask.st := by
  simp [recRaw, recWords]

@[simp] theorem recCheckpoint_caskSt : (recCheckpoint s).cask.st = s.cask.st :=
  (foldSt_keeps (·.cask.st) _ _ (fun _ _ => recRaw_caskSt ..) _).trans (recRaw_caskSt ..)

@[simp] theorem recHeld_caskSt : (recHeld s).cask.st = s.cask.st :=
  foldSt_keeps (·.cask.st) _ _ (fun _ _ => recRaw_caskSt ..) _

@[simp] theorem hashBefore_caskSt (slot n) : (hashBefore slot n s).cask.st = s.cask.st := by
  have hhead : ∀ u : State, (hashHead u).cask.st = u.cask.st := fun u => by
    unfold hashHead
    split <;> simp [whenSt]
  induction n generalizing s with
  | zero => rfl
  | succ n ih =>
    unfold hashBefore
    split
    · simp [ih, hhead]
    · rfl

@[simp] theorem segClose_caskSt (code last) : (segClose code last s).cask.st = s.cask.st := by
  have hkick : ∀ u : State, (autoKick u).cask.st = u.cask.st := fun u => by
    unfold autoKick
    split <;> simp
  simp [segClose, hkick]

@[simp] theorem segNext_caskSt : (segNext s).cask.st = s.cask.st := by
  simp [segNext, segOpen, recSession]

@[simp] theorem sessionEnding_caskSt (code) : (sessionEnding code s).cask.st = s.cask.st := by
  unfold sessionEnding
  dsimp only
  repeat' split
  all_goals simp

@[simp] theorem segRoll_caskSt (code) : (segRoll code s).cask.st = s.cask.st := by
  unfold segRoll
  split <;> simp

@[simp] theorem recDrop_caskSt (kind) : (recDrop kind s).cask.st = s.cask.st := by
  simp only [recDrop, modCask_cask]
  split <;> rfl

@[simp] theorem recOffer_caskSt (type arg stamp ws) : (recOffer type arg stamp ws s).cask.st = s.cask.st := by
  simp [recOffer, recLoss]

theorem takenUp_caskSt (op m) : (takenUp op m s).cask.st = s.cask.st := by
  have hpop : (popped m s).cask = s.cask := rfl
  simp [takenUp, recCmd, recNow, hpop]

/-! ### Check 5 of WHEEL (R209) -/

/-- The reserved combinations (R209). -/
def WheelReserved (v : Word) : Prop :=
  fld v 11 2 = 0 ∧ bit v 15 = false ∨ fld v 13 2 = 2 ∧ bit v 17 = false ∨ fld v 13 2 = 3 ∨ fld v 0 11 < 12 ∨ 1024 < fld v 0 11

theorem toNat_maskW_wheel : (maskW .wheel v).toNat = v.toNat % 2 ^ 18 := Nat.and_two_pow_sub_one_eq_mod v.toNat 18

theorem fld_maskW_wheel {lo len : Nat} (h : lo + len ≤ 18) : fld (maskW .wheel v) lo len = fld v lo len := by
  rw [fld, fld, toNat_maskW_wheel]
  refine Nat.eq_of_testBit_eq fun i => ?_
  simp only [Nat.testBit_mod_two_pow, Nat.testBit_shiftRight]
  by_cases hi : i < len
  · simp [hi, show lo + i < 18 by omega]
  · simp [hi]

theorem bit_maskW_wheel {i : Nat} (h : i < 18) : bit (maskW .wheel v) i = bit v i := by
  rw [bit, bit, ← BitVec.testBit_toNat, ← BitVec.testBit_toNat, toNat_maskW_wheel, Nat.testBit_mod_two_pow, decide_eq_true h,
    Bool.true_and]

theorem regRange_wheel : regRange t .wheel v
    = (decide (12 ≤ fld v 0 11) && decide (fld v 0 11 ≤ 1024) && fld v 13 2 != 3 && !(fld v 11 2 == 0 && !bit v 15)
      && !(fld v 13 2 == 2 && !bit v 17)) := rfl

theorem regRange_wheel_reserved (h : WheelReserved v) : regRange t .wheel (maskW .wheel v) = false := by
  rw [regRange_wheel, fld_maskW_wheel (by decide), fld_maskW_wheel (by decide), fld_maskW_wheel (by decide),
    bit_maskW_wheel (by decide), bit_maskW_wheel (by decide)]
  rcases h with ⟨hmissing, hzen⟩ | ⟨hbmode, hcycle⟩ | hbmode | hteeth | hteeth
  · simp [hmissing, hzen]
  · simp [hbmode, hcycle]
  · simp [hbmode]
  · simp [Nat.not_le.2 hteeth]
  · simp [Nat.not_le.2 hteeth]

/-- A unit of one register whose value is out of range. -/
theorem judgeUnit_range {op : Op} {a : Nat} {r : Reg} (htarget : targetOf a = some r) (hstate : regStateOk s r (maskW r v) = true)
    (hrange : regRange (afterWrite r (maskW r v) s) r (maskW r v) = false) : judgeUnit op p [(a, v)] s = some stRange := by
  simp [judgeUnit, htarget, hstate, hrange]

/-- A unit that writes one is refused with RANGE (R20). -/
theorem judgePair_wheel_reserved (h : WheelReserved v) (hcm : inConfMaint s = true) (hplay : s.cask.st ≠ .replaying) (op p) :
    judgePair op p (BitVec.ofNat 20 Reg.wheel.addr, v) s = some stRange := by
  have htarget : targetOf Reg.wheel.addr = some .wheel := by
    simp only [targetOf, Reg.ofAddr_eq .wheel rfl]
    rfl
  have hrule : regStateRule s .wheel (maskW .wheel v) = true := hcm
  have hstate : regStateOk s .wheel (maskW .wheel v) = true := by simp [regStateOk, hrule, hplay]
  have hunit : judgeUnit op p [((BitVec.ofNat 20 Reg.wheel.addr).toNat, v)] s = some stRange :=
    judgeUnit_range htarget hstate (regRange_wheel_reserved h)
  rw [judgePair, if_neg (show ¬fld (BitVec.ofNat 20 Reg.wheel.addr) 16 4 ≠ 0 by decide), hunit]
  rfl

theorem writeUnits_wheel_reserved (h : WheelReserved v) (hcm : inConfMaint s = true) (hplay : s.cask.st ≠ .replaying) (p cmd) :
    writeUnits p cmd [(BitVec.ofNat 20 Reg.wheel.addr, v)] 0 s
      = (some (stRange, splitReply 0 stRange (BitVec.ofNat 20 Reg.wheel.addr) 0 false), s) := by
  simp [writeUnits, judgePair_wheel_reserved h hcm hplay, pairReply]

theorem exec_wheelWrite_reserved (h : WheelReserved v) (hcm : inConfMaint s = true) (hplay : s.cask.st ≠ .replaying)
    (hrow : RowReady Op.regWrite p s) : exec (.trackerConfigWrite p .wheel v) s = .next s := by
  show regRow p .wheel v s = .next s
  simp [regRow, hrow.open, cfgWait_none hrow.noCfg, writeUnits_wheel_reserved h hcm hplay]

theorem exec_regWrite_wheel_reserved (h : WheelReserved v) (hcm : inConfMaint s = true) (hplay : s.cask.st ≠ .replaying)
    (hm : PacketReady Op.regWrite m s) (hw : m.words = [0, BitVec.ofNat 20 Reg.wheel.addr, v]) :
    exec (.regWrite m) s = .next (replied m stRange (splitReply 0 stRange (BitVec.ofNat 20 Reg.wheel.addr) 0 false)
      (takenUp Op.regWrite m s)) := by
  have hrange : stageOk (takenUp Op.regWrite m s) m = true := by simp [stageOk, pword, hw, fld, bit]
  have hj : judge Op.regWrite regWriteH m false (takenUp Op.regWrite m s) = none :=
    judge_ready hm regWriteH _ rfl rfl (by simp [hw]) (by simp [hw]) (by simp [regWriteH, hw]) rfl hrange rfl rfl
  have hunits := writeUnits_wheel_reserved (s := takenUp Op.regWrite m s) h
    (by rwa [inConfMaint, isState, (takenUp_took ..).pw_eq]) (by rwa [takenUp_caskSt]) m.port
  refine interp_answers hm.toPacketHead rfl rfl hj ?_ (takenUp_noReset _ m s hm.noReset)
  simp [regWriteH, regWriteGo, staged, pword, hw, bit, pairsOf, hunits, ansOf]

/-- Settles O57: the range rule of WHEEL refuses each reserved combination, in a single access and in a packet. -/
theorem wheelCombinationsRefused : Obligations.WheelCombinationsRefused :=
  fun _ _ _ hcm hplay hv => ⟨exec_wheelWrite_reserved hv hcm hplay, fun _ => exec_regWrite_wheel_reserved hv hcm hplay⟩

end Sys2Proof.Machine
end

section
/-! Banks (O41): 08_trellis_sequencer R247, R255, R256, R264, and the cycle boundary of 07_angle_tracking R219. With no entry of
the cycle before left to enter, a decision, a boundary and a period each come down to one short chain of the sequencer's
operations; what such a chain does is read off its links. Time moves on to the instant of the row before it acts (log entry
3); the first period of a time bank is counted as log entry 34 reads R256. -/

namespace Sys2Proof.Machine

variable {s t : State} {b : Fin 2}

/-! ### The sequencer's operations -/

/-- From `s` to `t` nothing but the sequencer has changed. -/
def SeqStep (s t : State) : Prop := t = { s with seq := t.seq }

theorem SeqStep.refl (s : State) : SeqStep s s := rfl

theorem SeqStep.trans {u : State} (h : SeqStep s t) (k : SeqStep t u) : SeqStep s u := by
  unfold SeqStep at *
  rw [h] at k
  exact k

theorem SeqStep.modSeq (h : SeqStep s t) (f : Seq → Seq) : SeqStep s (modSeq f t) := h.trans rfl

theorem SeqStep.modBank (h : SeqStep s t) (c : Fin 2) (f : Bank → Bank) : SeqStep s (modBank c f t) := h.trans rfl

theorem SeqStep.setBank (h : SeqStep s t) (c : Fin 2) (st : BankState) : SeqStep s (setBank c st t) := h.modBank ..

theorem SeqStep.stopWalk (h : SeqStep s t) : SeqStep s (stopWalk t) := h.modSeq _

theorem SeqStep.syncWait (h : SeqStep s t) : SeqStep s (syncWait t) := h.modSeq _

theorem SeqStep.startWalk (h : SeqStep s t) (c : Fin 2) (cyc : BitVec 40) : SeqStep s (startWalk c cyc t) := by
  unfold Machine.startWalk
  split <;> exact h.modSeq _

theorem SeqStep.bankCount (h : SeqStep s t) : bankCount t b = bankCount s b := by
  rw [h]
  rfl

/-- Only the sequencer and the time have changed. -/
theorem SeqStep.reached {n : Nat} (h : SeqStep (reach n s) t) : t = { s with now := max s.now n, seq := t.seq } := h

theorem bnk_modBank_same (f : Bank → Bank) : bnk (modBank b f s) b = f (bnk s b) := by
  simp only [bnk, modBank_seq, vmod_get, if_true]

theorem bnk_modBank_other {c : Fin 2} (h : b ≠ c) (f : Bank → Bank) : bnk (modBank b f s) c = bnk s c := by
  simp only [bnk, modBank_seq, vmod_get, if_neg h]

theorem bnk_setBank_same (st : BankState) : bnk (setBank b st s) b = { bnk s b with st := st, stopPend := false } :=
  bnk_modBank_same _

theorem bnk_setBank_other {c : Fin 2} (h : b ≠ c) (st : BankState) : bnk (setBank b st s) c = bnk s c := bnk_modBank_other h _

theorem bnk_of_banks (h : t.seq.banks = s.seq.banks) (b : Fin 2) : bnk t b = bnk s b := by rw [bnk, bnk, h]

@[simp] theorem syncWait_seq : (syncWait s).seq = { s.seq with wait := seqWait s } := rfl

@[simp] theorem bnk_stopWalk : bnk (stopWalk s) b = bnk s b := rfl

@[simp] theorem bnk_syncWait : bnk (syncWait s) b = bnk s b := rfl

@[simp] theorem bnk_reachTb (n) : bnk (reachTb n s) b = bnk s b := rfl

theorem active_of_activeBank (h : activeBank s = some b) : (bnk s b).st = .active := by
  simpa using List.find?_some h

/-! Walks (R258). -/

/-- With no entry of the cycle before left, a walk starts afresh. -/
theorem startWalk_fresh (h : s.seq.left = 0) (cyc : BitVec 40) : startWalk b cyc s
    = modSeq (fun q => { q with
        walking := true, walkCyc := cyc, left := bankCount s b, next := BitVec.ofNat 10 (walkFirst s b) }) s :=
  if_neg fun hpaused => hpaused.2.1 h

@[simp] theorem startWalk_stopWalk_seq (cyc : BitVec 40) : (startWalk b cyc (stopWalk s)).seq
    = { s.seq with
        walking := true, walkCyc := cyc, left := bankCount s b, next := BitVec.ofNat 10 (walkFirst (stopWalk s) b)
        decided := none } := by
  rw [startWalk_fresh rfl]
  rfl

@[simp] theorem bnk_startWalk (c cyc) : bnk (startWalk c cyc s) b = bnk s b := by
  unfold startWalk
  split <;> exact bnk_of_banks rfl b

theorem finishWalk_done (h : s.seq.left = 0) (n : Nat) : finishWalk b n s = s := by
  cases n with
  | zero => rfl
  | succ n => exact if_pos (.inl h)

/-! Takeovers (R255, R256). -/

def otherBank (b : Fin 2) : Fin 2 := if b = 0 then 1 else 0

theorem otherBank_ne (b : Fin 2) : otherBank b ≠ b := by decide +revert

/-- The bank that takes over turns ACTIVE, and the other one may lose its arming: it does where it was ACTIVE. -/
theorem takeBank_cases (b : Fin 2) (s : State) :
    (bnk s (otherBank b)).st ≠ .active ∧ takeBank b s = setBank b .active s
      ∨ takeBank b s = setBank b .active (setBank (otherBank b) .unarmed s) := by
  unfold takeBank
  extract_lets o drop
  by_cases hdrop : drop = true
  · exact .inr (by rw [if_pos hdrop]; rfl)
  · refine .inl ⟨fun hactive => hdrop ?_, by rw [if_neg hdrop]⟩
    have ho : (bnk s o).st = .active := hactive
    simp only [drop, ho]

theorem takeBank_step (b : Fin 2) (s : State) : SeqStep s (takeBank b s) := by
  rcases takeBank_cases b s with ⟨-, htake⟩ | htake <;> rw [htake]
  · exact (SeqStep.refl s).setBank ..
  · exact ((SeqStep.refl s).setBank ..).setBank ..

theorem takeBank_acts (b : Fin 2) (s : State) : (takeBank b s).seq.acts = s.seq.acts := by
  rcases takeBank_cases b s with ⟨-, htake⟩ | htake <;> rw [htake] <;> rfl

theorem takeBank_active (b : Fin 2) (s : State) : (bnk (takeBank b s) b).st = .active := by
  rcases takeBank_cases b s with ⟨-, htake⟩ | htake <;> rw [htake, bnk_setBank_same]

theorem takeBank_other (b : Fin 2) (s : State) : (bnk (takeBank b s) (otherBank b)).st ≠ .active := by
  rcases takeBank_cases b s with ⟨hother, htake⟩ | htake <;> rw [htake, bnk_setBank_other (otherBank_ne b).symm]
  · exact hother
  · rw [bnk_setBank_same]
    exact BankState.noConfusion

/-! ### The decision instant (R256) -/

/-- The bank is the one of the coming cycle. -/
def decidedFor (b : Fin 2) (s : State) : State := modSeq (fun q => { q with decided := some (some (bOf b)) }) s

@[simp] theorem decidedFor_seq : (decidedFor b s).seq = { s.seq with decided := some (some (bOf b)) } := rfl

@[simp] theorem bnk_decidedFor (c) : bnk (decidedFor c s) b = bnk s b := rfl

theorem decide_takes (hleft : s.seq.left = 0) (htaker : takerBank s = some b) :
    decide_ s = syncWait (decidedFor b (startWalk b (s.trk.cyc + 1) (stopWalk (takeBank b s)))) := by
  unfold decide_
  cases hactive : activeBank s with
  | none => simp only [htaker]; rfl
  | some c => simp only [finishWalk_done hleft, htaker]; rfl

theorem decide_goesOn (hleft : s.seq.left = 0) (htaker : takerBank s = none) (hactive : activeBank s = some b)
    (hangle : bankTime s b = false) (hstop : (bnk s b).stopPend = false) :
    decide_ s = syncWait (decidedFor b (startWalk b (s.trk.cyc + 1) s)) := by
  unfold decide_
  simp only [hactive, finishWalk_done hleft, htaker, hangle, hstop]
  rfl

theorem decide_stops (hleft : s.seq.left = 0) (htaker : takerBank s = none) (hactive : activeBank s = some b)
    (hangle : bankTime s b = false) (hstop : (bnk s b).stopPend = true) :
    decide_ s = syncWait (modSeq (fun q => { q with decided := some none }) s) := by
  unfold decide_
  simp only [hactive, finishWalk_done hleft, htaker, hangle, hstop]
  rfl

/-- The row moves time on to the lookahead before the boundary. -/
def decisionState (s : State) : State := reachTb (boundaryInstant s - lookTicks s) s

theorem exec_bankDecision (h : decides s = true) : exec .bankDecision s = .next (decide_ (decisionState s)) := if_pos h

/-- The WAITING angle bank that takes the cycle becomes ACTIVE. -/
theorem exec_bankDecision_takes (hdec : decides s = true) (hleft : s.seq.left = 0) (htaker : takerBank s = some b) :
    ∃ t, exec .bankDecision s = .next t
      ∧ t = { s with now := max s.now (tickOf s (boundaryInstant s - lookTicks s).toNat), seq := t.seq }
      ∧ (bnk t b).st = .active ∧ (bnk t (otherBank b)).st ≠ .active ∧ t.seq.decided = some (some (b != 0))
      ∧ t.seq.left = bankCount s b ∧ t.seq.walking = true ∧ t.seq.walkCyc = s.trk.cyc + 1 ∧ t.seq.acts = s.seq.acts := by
  have htook := takeBank_step b (decisionState s)
  have hcount : bankCount (takeBank b (decisionState s)) b = bankCount s b := htook.bankCount
  have hacts : (takeBank b (decisionState s)).seq.acts = s.seq.acts := takeBank_acts ..
  rw [exec_bankDecision hdec, decide_takes (s := decisionState s) hleft htaker]
  refine ⟨_, rfl, ((htook.stopWalk.startWalk ..).modSeq _).syncWait.reached, ?_, ?_, rfl, ?_⟩
  · simpa using takeBank_active b (decisionState s)
  · simpa using takeBank_other b (decisionState s)
  · simp only [syncWait_seq, decidedFor_seq, startWalk_stopWalk_seq, hcount, hacts]
    exact ⟨trivial, trivial, rfl, trivial⟩

/-- Without one, the ACTIVE angle bank keeps its state: it goes on, or its STOP is decided. -/
theorem exec_bankDecision_keeps (hdec : decides s = true) (hleft : s.seq.left = 0) (htaker : takerBank s = none)
    (hactive : activeBank s = some b) (hangle : bankTime s b = false) :
    ∃ t, exec .bankDecision s = .next t
      ∧ t = { s with now := max s.now (tickOf s (boundaryInstant s - lookTicks s).toNat), seq := t.seq }
      ∧ bnk t b = bnk s b ∧ t.seq.decided = if (bnk s b).stopPend then some none else some (some (b != 0)) := by
  rw [exec_bankDecision hdec]
  cases hstop : (bnk s b).stopPend with
  | true => exact ⟨_, congrArg _ (decide_stops (s := decisionState s) hleft htaker hactive hangle hstop), rfl, rfl, rfl⟩
  | false =>
    have hleft' : (decisionState s).seq.left = 0 := hleft
    rw [decide_goesOn (s := decisionState s) hleft htaker hactive hangle hstop, startWalk_fresh hleft']
    exact ⟨_, rfl, rfl, rfl, rfl⟩

/-! ### The cycle boundary (R219, R264) -/

/-- All but the field dies. -/
def logicDie (s : State) : State := { s with fields := State.reset.fields }

@[simp] theorem logicDie_ite {c : Prop} [Decidable c] : logicDie (if c then s else t) = if c then logicDie s else logicDie t :=
  apply_ite ..

@[simp] theorem modSlice_logicDie (n : Chan) (f : Slice → Slice) : logicDie (modSlice n f s) = logicDie s := rfl

@[simp] theorem trellisOff_logicDie (n : Chan) : logicDie (trellisOff n s) = logicDie s := by
  simp [trellisOff, outputOff, doCmd, pwmCmd, setCode, switchOff]

/-- Turning outputs off concerns the field dies alone. -/
theorem stopOwned_logicDie : logicDie (stopOwned s) = logicDie s := by
  refine foldSt_keeps logicDie _ _ (fun g u => ?_) s
  split
  · exact foldSt_keeps logicDie _ _ (fun n v => by simp) u
  · rfl

theorem now_of_logicDie (h : logicDie t = logicDie s) : t.now = s.now := (congrArg State.now h :)
theorem trk_of_logicDie (h : logicDie t = logicDie s) : t.trk = s.trk := (congrArg State.trk h :)
theorem seq_of_logicDie (h : logicDie t = logicDie s) : t.seq = s.seq := (congrArg State.seq h :)

/-- The count steps, and the decision for the cycle is used up. -/
def boundaryMarked (s : State) : State :=
  modSeq (fun q => { q with decided := none }) (modTrk (fun t => { t with cyc := t.cyc + 1 }) s)

theorem activeBank_boundaryMarked : activeBank (boundaryMarked s) = activeBank s := rfl

theorem markBoundary_goesOn (h : decides s = false) (hgo : s.seq.decided ≠ some none ∨ activeBank s = none) :
    markBoundary s = syncWait (boundaryMarked s) := by
  have hactive := activeBank_boundaryMarked (s := s)
  unfold markBoundary
  unfold boundaryMarked at hactive ⊢
  simp only [h, hactive, Bool.false_eq_true, if_false, modTrk_seq, decide_eq_true_eq]
  rcases hgo with hgo | hgo
  · rw [if_neg hgo]
  · simp only [hgo, ite_self]

theorem markBoundary_stops (h : decides s = false) (hstop : s.seq.decided = some none) (hactive : activeBank s = some b) :
    markBoundary s = syncWait (stopOwned (stopWalk (setBank b .unarmed (boundaryMarked s)))) := by
  rw [← activeBank_boundaryMarked] at hactive
  unfold markBoundary
  unfold boundaryMarked at hactive ⊢
  simp only [h, hactive, hstop, Bool.false_eq_true, if_false, modTrk_seq, decide_true, if_true]

/-- The row moves time on to the boundary. -/
def boundaryState (s : State) : State := reachTb (boundaryInstant s) s

theorem exec_cycleBoundary (hst : s.trk.st = .cycleSync ∨ s.trk.st = .holdover) (hpred : s.trk.predOk = true) :
    exec .cycleBoundary s = .next (markBoundary (boundaryState s)) := if_pos ⟨hst, hpred⟩

/-- What every boundary does (R219): the count steps, and the decision for the cycle is used up. -/
structure MarksCycle (s t : State) : Prop where
  now : t.now = max s.now (tickOf s (boundaryInstant s).toNat)
  trk : t.trk = { s.trk with cyc := s.trk.cyc + 1 }
  decided : t.seq.decided = none
  acts : t.seq.acts = s.seq.acts

theorem boundary_goesOn (h : decides s = false) (hgo : s.seq.decided ≠ some none ∨ activeBank s = none) :
    MarksCycle s (markBoundary (boundaryState s)) ∧ (markBoundary (boundaryState s)).fields = s.fields
      ∧ (markBoundary (boundaryState s)).seq.banks = s.seq.banks := by
  rw [markBoundary_goesOn (s := boundaryState s) h hgo]
  exact ⟨⟨rfl, rfl, rfl, rfl⟩, rfl, rfl⟩

/-- A STOP that was decided takes effect (R255, R264). -/
theorem boundary_stops (h : decides s = false) (hstop : s.seq.decided = some none) (hactive : activeBank s = some b) :
    MarksCycle s (markBoundary (boundaryState s)) ∧ (bnk (markBoundary (boundaryState s)) b).st = .unarmed
      ∧ (markBoundary (boundaryState s)).seq.walking = false := by
  have hoff := stopOwned_logicDie (s := stopWalk (setBank b .unarmed (boundaryMarked (boundaryState s))))
  have hseq := seq_of_logicDie hoff
  have hbank := bnk_of_banks (congrArg Seq.banks hseq) b
  have htrk := (trk_of_logicDie hoff).trans (show _ = { s.trk with cyc := s.trk.cyc + 1 } from rfl)
  have hnow := (now_of_logicDie hoff).trans (show _ = max s.now (tickOf s (boundaryInstant s).toNat) from rfl)
  rw [markBoundary_stops (s := boundaryState s) h hstop hactive]
  refine ⟨⟨syncWait_clock.1.trans hnow, (syncWait_trk _).trans htrk, ?_, ?_⟩, ?_, ?_⟩
  · rw [syncWait_seq, hseq]; rfl
  · rw [syncWait_seq, hseq]; rfl
  · rw [bnk_syncWait, hbank, bnk_stopWalk, bnk_setBank_same]
  · rw [syncWait_seq, hseq]; rfl

theorem boundary_marks (h : decides s = false) : MarksCycle s (markBoundary (boundaryState s)) := by
  by_cases hstop : s.seq.decided = some none
  · cases hactive : activeBank s with
    | none => exact (boundary_goesOn h (.inr hactive)).1
    | some b => exact (boundary_stops h hstop hactive).1
  · exact (boundary_goesOn h (.inl hstop)).1

/-! ### Periods of a time bank (R247, R256) -/

theorem waiting_of_timeTaker (h : timeTaker s = some b) : (bnk s b).st = .waiting := by
  have hw : (isWaiting s b && bankTime s b) = true := by
    unfold timeTaker at h
    dsimp only at h
    split at h
    next h0 h1 =>
      repeat' split at h
      all_goals cases h; assumption
    next h0 _ => cases h; exact h0
    next _ h1 => cases h; exact h1
    next => cases h
  simpa [isWaiting] using (Bool.and_eq_true_iff.1 hw).1

theorem timePeriod_first (start : Nat) (hactive : activeBank s = none) (hwait : (bnk s b).st = .waiting) :
    timePeriod b start s = syncWait (startWalk b s.trk.cyc (modBank b (fun k => { k with period0 := start })
      (stopWalk (takeBank b (reachTb ((start : Int) - lookTicks s) s))))) := by
  have hactive' : ∀ n, activeBank (reachTb n s) = none := fun _ => hactive
  have hcyc : ∀ n, (stopWalk (takeBank b (reachTb n s))).trk.cyc = s.trk.cyc := fun n => by
    rw [((takeBank_step b (reachTb n s)).stopWalk)]
    rfl
  unfold timePeriod
  simp only [hactive', bnk_reachTb, hwait, if_true, hcyc]

theorem timePeriod_next (start : Nat) (hleft : s.seq.left = 0) (hactive : activeBank s = some b) :
    timePeriod b start s = syncWait (startWalk b s.trk.cyc (modBank b (fun k => { k with period0 := start })
      (reachTb ((start : Int) - lookTicks s) s))) := by
  have hactive' : ∀ n, activeBank (reachTb n s) = some b := fun _ => hactive
  have hleft' : ∀ n, (reachTb n s).seq.left = 0 := fun _ => hleft
  have hwait : (bnk s b).st ≠ .waiting := by
    rw [active_of_activeBank hactive]
    decide
  unfold timePeriod
  simp only [hactive', finishWalk_done (hleft' _), ite_self, bnk_reachTb, if_neg hwait]
  rfl

theorem exec_timeBankPeriod_first (hwalk : walks s = true) (htaker : timeTaker s = some b) (hactive : activeBank s = none) :
    exec .timeBankPeriod s = .next (timePeriod b (firstPeriod s b) s) := by
  show execTimeBankPeriod s = _
  simp only [execTimeBankPeriod, hwalk, htaker, hactive, if_true]

theorem exec_timeBankPeriod_next (hwalk : walks s = true) (htaker : timeTaker s = none) (hactive : activeBank s = some b)
    (htime : bankTime s b = true) : exec .timeBankPeriod s = .next (periodNext b s) := by
  show execTimeBankPeriod s = _
  simp only [execTimeBankPeriod, hwalk, htaker, hactive, htime, if_true]

/-- A time bank becomes ACTIVE for its first period. -/
theorem exec_timeBankPeriod_starts (hwalk : walks s = true) (htaker : timeTaker s = some b) (hactive : activeBank s = none) :
    ∃ t, exec .timeBankPeriod s = .next t
      ∧ t = { s with now := max s.now (tickOf s ((firstPeriod s b : Int) - lookTicks s).toNat), seq := t.seq }
      ∧ (bnk t b).st = .active ∧ (bnk t b).period0 = firstPeriod s b ∧ t.seq.walking = true ∧ t.seq.left = bankCount s b := by
  have hstep := (takeBank_step b (reachTb ((firstPeriod s b : Int) - lookTicks s) s)).stopWalk.modBank b
    fun k => { k with period0 := firstPeriod s b }
  rw [exec_timeBankPeriod_first hwalk htaker hactive, timePeriod_first _ hactive (waiting_of_timeTaker htaker)]
  refine ⟨_, rfl, (hstep.startWalk ..).syncWait.reached, ?_, ?_, ?_⟩
  · simp [bnk_modBank_same, takeBank_active]
  · simp [bnk_modBank_same]
  · rw [startWalk_fresh rfl, syncWait_seq, modSeq_seq]
    exact ⟨rfl, hstep.bankCount⟩

/-- An ACTIVE time bank goes on to its next period. -/
theorem periodNext_goesOn (hleft : s.seq.left = 0) (hactive : activeBank s = some b) (hstop : (bnk s b).stopPend = false) :
    bnk (periodNext b s) b = { bnk s b with period0 := periodEnd s b } ∧ (periodNext b s).seq.walking = true
      ∧ (periodNext b s).now = max s.now (tickOf s ((periodEnd s b : Int) - lookTicks s).toNat) := by
  rw [periodNext, if_neg (by simp [hstop]), timePeriod_next _ hleft hactive, startWalk_fresh (by exact hleft)]
  exact ⟨bnk_modBank_same .., rfl, rfl⟩

/-- Its STOP takes effect at the start of the next period. -/
theorem periodNext_stops (hleft : s.seq.left = 0) (hstop : (bnk s b).stopPend = true) :
    (bnk (periodNext b s) b).st = .unarmed ∧ (periodNext b s).now = max s.now (tickOf s (periodEnd s b)) := by
  rw [periodNext, if_pos hstop, finishWalk_done hleft, bnk_syncWait, bnk_stopWalk, bnk_setBank_same]
  exact ⟨rfl, rfl⟩

/-- Settles O41: the decision by whether a bank takes over, the boundary by what was decided, a period by whether it is a time
bank's first, its next, or the one at whose start it stops. -/
theorem banksTakeTheirCycles : Obligations.BanksTakeTheirCycles := by
  intro b s hleft
  refine ⟨fun hdec => ⟨?_, ?_⟩, fun hst hpred hdec => ?_, exec_timeBankPeriod_starts, fun hwalk htaker hactive htime => ?_⟩
  · exact exec_bankDecision_takes hdec hleft
  · exact exec_bankDecision_keeps hdec hleft
  · obtain ⟨hnow, htrk, hdecided, hacts⟩ := boundary_marks hdec
    exact ⟨_, exec_cycleBoundary hst hpred, hnow, htrk, hdecided, hacts, fun hgo => (boundary_goesOn hdec (.inl hgo)).2,
      fun hstop hactive => (boundary_stops hdec hstop hactive).2⟩
  · exact ⟨_, exec_timeBankPeriod_next hwalk htaker hactive htime, periodNext_stops hleft, periodNext_goesOn hleft hactive⟩

end Sys2Proof.Machine
end

section
/-! Reads of protected memories by packets (O22): 08_trellis_sequencer R251, 09_sampling_pans R297, 16_memory_integrity R473,
18_recording_replay R529. Each command names a place and a number of words; its range check keeps them inside the memory. -/

namespace Sys2Proof.Machine

variable {s : State} {op : Op} {m : Msg} {a b : Word} {g : Grp} {q : Fin 16}

/-- The command of a packet whose checks are passed is executed and answered at once (R156). -/
theorem interp_runs (h : PacketHead op m s) {hd : Handler} {i : OpInfo} (hi : opInfo op = some i) (hnow : i.deferred = false)
    (hj : judge op hd m false (takenUp op m s) = none) :
    interp op hd m s = .next (answer m (hd.run m (takenUp op m s))) := by
  rw [interp_ready h hd i hi hj, hnow, if_neg Bool.false_ne_true]

/-- A memory that no test holds is read word by word (R473). -/
theorem hostRead_untested {k : Fin 16} (h : underTest s k = false) (i n : Nat) :
    hostRead k i n s = (if (memReads .host k i n s).1.2 then stFault else stOk,
      (memReads .host k i n s).1.1, (memReads .host k i n s).2) :=
  if_neg (by simp [h])

/-! ### TRELLIS_READ (R251) -/

theorem bankIx_bankOf (w : Word) : bankIx (bankOf w) = if bit w 0 then 1 else 0 := by
  unfold bankOf
  split <;> rfl

theorem exec_trellisRead (h : PacketReady Op.trellisRead m s) (hw : m.words = [a, b]) (hbank : fld a 1 19 = 0)
    (hpos : 1 ≤ fld b 10 10) (hnum : fld b 10 10 ≤ 682) (hend : fld b 0 10 + fld b 10 10 ≤ 1024)
    (hfree : underTest (takenUp Op.trellisRead m s) (if bit a 0 then 1 else 0) = false) :
    exec (.trellisRead m) s = .next (
      let r := memReads .host (if bit a 0 then 1 else 0) (3 * fld b 0 10) (3 * fld b 10 10) (takenUp Op.trellisRead m s)
      answer m (.reply (if r.1.2 then stFault else stOk) r.1.1, r.2)) := by
  have hj : judge Op.trellisRead trellisReadH m false (takenUp Op.trellisRead m s) = none :=
    judge_ready h trellisReadH _ rfl rfl (by simp [hw]) (by simp [hw]) rfl rfl
      (by simp [trellisReadH, pword, hw, hbank, hpos, hnum, hend]) rfl rfl
  refine (interp_runs h.toPacketHead rfl rfl hj).trans ?_
  simp only [trellisReadH, pword, hw, List.getD_cons_zero, List.getD_cons_succ, bankIx_bankOf, hostRead_untested hfree]

/-! ### CASK_READ (R529) -/

theorem exec_caskRead (h : PacketReady Op.caskRead m s) (hw : m.words = [a, b]) (hzero : bit a 19 = false)
    (hpos : 1 ≤ fld a 8 11) (hnum : fld a 8 11 ≤ 2046) (hzero' : fld b 12 8 = 0) (hend : fld b 0 12 + fld a 8 11 ≤ 4096)
    (hfree : underTest (takenUp Op.caskRead m s) 8 = false) :
    exec (.caskRead m) s = .next (
      let r := memReads .host 8 (4096 * fld a 0 8 + fld b 0 12) (fld a 8 11) (takenUp Op.caskRead m s)
      answer m (.reply (if r.1.2 then stFault else stOk) r.1.1, r.2)) := by
  have hj : judge Op.caskRead caskReadH m false (takenUp Op.caskRead m s) = none :=
    judge_ready h caskReadH _ rfl rfl (by simp [hw]) (by simp [hw]) rfl rfl
      (by simp [caskReadH, pword, hw, hzero, hpos, hnum, hzero', hend]) rfl rfl
  have hcask : underTest (takenUp Op.caskRead m s) caskM = false := hfree
  refine (interp_runs h.toPacketHead rfl rfl hj).trans ?_
  simp only [caskReadH, pword, hw, List.getD_cons_zero, List.getD_cons_succ, hostRead_untested hcask]
  rfl

/-! ### PAN_READ (R297) -/

theorem panReadGrp_eq (hw : m.words = [a, b]) (hg : fld a 0 3 = g.val) : panReadGrp m = g :=
  Fin.ext (by simp only [panReadGrp, pword, hw, List.getD_cons_zero, hg]; omega)

theorem panReadPan_eq (hw : m.words = [a, b]) (hq : fld a 3 4 = q.val) : panReadPan m = q :=
  Fin.ext (by simpa [panReadPan, pword, hw] using hq)

theorem Took.smp_eq {t : State} (h : Took s t) : t.smp = s.smp := by rw [h.1]

theorem Took.pan {t : State} (h : Took s t) (g : Grp) (q : Fin 16) : pan t g q = pan s g q := by
  rw [Machine.pan, Machine.pan, h.smp_eq]

theorem Took.panSize {t : State} (h : Took s t) (g : Grp) (q : Fin 16) : panSize t g q = panSize s g q := by
  simp only [Machine.panSize, cfgFld, cfgGet, h.cfg_eq]

theorem exec_panRead (h : PacketReady Op.panRead m s) (hw : m.words = [a, b]) (hg : fld a 0 3 = g.val)
    (hq : fld a 3 4 = q.val) (hzero : bit a 19 = false) (hpos : 1 ≤ fld a 8 11) (hnum : fld a 8 11 ≤ 2046)
    (hend : fld b 0 16 + fld a 8 11 ≤ panSize s g q) (hzero' : fld b 16 4 = 0)
    (hopen : bit a 7 = true → (pan s g q).st ≠ .opened) (hfree : underTest (takenUp Op.panRead m s) (panM g) = false) :
    exec (.panRead m) s = .next (
      let u := takenUp Op.panRead m s
      let r := memReads .host (panM g) (panBase u g q + fld b 0 16) (fld a 8 11) u
      answer m (.reply (if r.1.2 then stFault else stOk) r.1.1,
        if bit a 7 = true ∧ r.1.2 = false then panRelease g q r.2 else r.2)) := by
  have htook := takenUp_took Op.panRead m s
  have hgrp := panReadGrp_eq hw hg
  have hpan := panReadPan_eq hw hq
  have hstate : panReadH.stateOk (takenUp Op.panRead m s) m = true := by
    cases hrelease : bit a 7 with
    | false => simp [panReadH, pword, hw, hrelease]
    | true => simp [panReadH, pword, hw, hgrp, hpan, htook.pan, hopen hrelease]
  have hrange : panReadH.range (takenUp Op.panRead m s) m = true := by
    have hsix : g.val ≤ 5 := by omega
    simp [panReadH, pword, hw, hgrp, hpan, htook.panSize, hg, hsix, hzero, hpos, hnum, hend, hzero']
  have hj : judge Op.panRead panReadH m false (takenUp Op.panRead m s) = none :=
    judge_ready h panReadH _ rfl hstate (by simp [hw]) (by simp [hw]) rfl rfl hrange rfl rfl
  have hgood : ∀ bad : Bool, (if bad then stFault else stOk) = stOk ↔ bad = false := by decide
  refine (interp_runs h.toPacketHead rfl rfl hj).trans ?_
  simp only [panReadH, pword, hw, hgrp, hpan, List.getD_cons_zero, List.getD_cons_succ, hostRead_untested hfree, hgood]

/-- Settles O22: the checks of each command pass, so its words are those that the memory gives from its place on. -/
theorem memoriesAreReadByPackets : Obligations.MemoriesAreReadByPackets :=
  fun _ _ _ _ _ _ hw => ⟨fun h => exec_trellisRead h hw, fun h => exec_caskRead h hw, fun h => exec_panRead h hw⟩

end Sys2Proof.Machine
end

section
/-! Entries and placed actions (O42): 08_trellis_sequencer R240, R243, R244, R258 to R260, and the pan events of
09_sampling_pans R287. Time moves on to the instant of each row before it acts (log entry 3). The judgement of a skew may
report a fault; whatever that report records, it starts no replay. -/

namespace Sys2Proof.Machine

variable {s t v : State} {b : Fin 2} {a : Act} {w0 w1 w2 : Word}

/-! ### Folds -/

/-- A change of each of several links. -/
theorem lnk_foldSt_modLink {l : List Grp} (hl : l.Nodup) (f : Grp → Link → Link) (g : Grp) (s : State) :
    lnk (foldSt l (fun k => modLink k (f k)) s) g = if g ∈ l then f g (lnk s g) else lnk s g := by
  induction l generalizing s with
  | nil => rfl
  | cons k l ih =>
    obtain ⟨hk, hl⟩ := List.nodup_cons.1 hl
    rw [foldSt_cons, ih hl]
    by_cases hg : g = k
    · subst hg
      rw [if_neg hk, if_pos List.mem_cons_self, lnk_modLink_same]
    · simp only [List.mem_cons, hg, false_or, lnk_modLink_other hg]

/-- Pan events that wait one after another. -/
theorem foldSt_evs (l : List Grp) (e : Grp → PanEv) (s : State) :
    foldSt l (fun g => modSmp fun m => { m with evs := m.evs ++ [e g] }) s
      = modSmp (fun m => { m with evs := m.evs ++ l.map e }) s := by
  induction l generalizing s with
  | nil => simp [foldSt, modSmp]
  | cons g l ih =>
    rw [foldSt_cons, ih]
    simp [modSmp]

theorem groups_nodup : groups.Nodup := by decide

theorem targetGrps_nodup (k : Nat) : (targetGrps k).Nodup := by
  have hone : ∀ g : Grp, [g].Nodup := fun g => List.nodup_cons.2 ⟨List.not_mem_nil, List.nodup_nil⟩
  unfold targetGrps
  split
  · exact hone _
  · split
    · exact hone _
    · split
      · exact groups_nodup
      · exact List.nodup_nil

theorem actGroups_nodup (s : State) (w : Word) : (actGroups s w).Nodup := by
  unfold actGroups
  split
  · exact List.nodup_nil
  · exact (targetGrps_nodup _).filter _

/-! ### Entries (R240, R244, R258) -/

/-- An entry that is placed where no replay runs: its action is stored, and nobody has committed it. -/
def newAct (s : State) (b : Fin 2) (e : BitVec 10) (cyc : BitVec 40) (w0 w1 w2 : Word) : Act :=
  let st := entryStamp s (bankTime s b) cyc (bnk s b).period0 w0 w1 w2
  { id := s.seq.nextId, bank := bOf b, entry := e, cyc := cyc, timeBank := bankTime s b, w0 := w0, w1 := w1, w2 := w2
    stamp := st.1, committed := false, checked := bankTime s b, endStamp := st.2, endCommitted := false, deferred := false
    late := 0, grps := (actGroups s w1).map fun g => (g, none) }

theorem replayLate_zero (h : s.cask.st ≠ .replaying) (w : Word) (st : Nat) (en : Option Nat) : replayLate s w st en = 0 :=
  if_neg fun hreplay => h hreplay.1

theorem place_nop (h : entAction w1 = aNop) (e cyc) : place b e cyc w0 w1 w2 s = s := if_pos h

/-- Its first message is queued for each of its groups. -/
theorem place_action (hreplay : s.cask.st ≠ .replaying) (h : entAction w1 ≠ aNop) (e : BitVec 10) (cyc) :
    place b e.toNat cyc w0 w1 w2 s
      = foldSt (actGroups s w1) (fun g => modLink g fun l => { l with sched := l.sched ++ [schedOf (newAct s b e cyc w0 w1 w2) true 0] })
          (modSeq (fun q => { q with nextId := q.nextId + 1, acts := q.acts ++ [newAct s b e cyc w0 w1 w2] }) s) := by
  unfold place
  simp only [if_neg h, replayLate_zero hreplay, if_true, BitVec.ofNat_toNat, BitVec.setWidth_eq]
  rfl

/-- Messages concern the links alone. -/
theorem foldSt_modLink_eq (l : List Grp) (f : Grp → Link → Link) (s : State) :
    foldSt l (fun g => modLink g (f g)) s = { s with links := (foldSt l (fun g => modLink g (f g)) s).links } := by
  induction l generalizing s with
  | nil => rfl
  | cons g l ih =>
    rw [foldSt_cons, ih]
    rfl

/-- The walk goes on to the entry after one that has been taken (R245). -/
def entryTaken (b : Fin 2) (e : Nat) (s : State) : State :=
  syncWait (modSeq (fun q => { q with
    left := q.left - 1, next := BitVec.ofNat 10 (walkNext s b e)
    walkCyc := if walkNext s b e = walkFirst s b then q.walkCyc + 1 else q.walkCyc }) s)

theorem takeEntry_good
    (hread : memReads .sequencer (bankIx b) (3 * s.seq.next.toNat) 3 s = (([w0, w1, w2], false), v)) :
    takeEntry b s = entryTaken b s.seq.next.toNat (place b s.seq.next.toNat v.seq.walkCyc w0 w1 w2 v) := by
  simp only [takeEntry, hread, Bool.false_eq_true, if_false]
  rfl

theorem exec_lookaheadEntry {i : Int} (hactive : activeBank s = some b) (hnext : nextInstant s b = some i)
    (hwalk : walks s = true) (hplace : mayPlace s b = true) :
    exec .lookaheadEntry s = .next (takeEntry b (reachTb (i - lookTicks s) s)) := by
  show execLookaheadEntry s = _
  simp only [execLookaheadEntry, hactive, hnext, hwalk, hplace, Bool.and_self, if_true]

/-- What taking an entry that is not a NOP does (R240, R244, R258). -/
theorem entryTaken_action (hreplay : v.cask.st ≠ .replaying) (h : entAction w1 ≠ aNop) (e : BitVec 10) :
    let a := newAct v b e v.seq.walkCyc w0 w1 w2
    let t := entryTaken b e.toNat (place b e.toNat v.seq.walkCyc w0 w1 w2 v)
    t = { v with seq := t.seq, links := t.links } ∧ t.seq.left = v.seq.left - 1 ∧ t.seq.banks = v.seq.banks
      ∧ t.seq.acts = v.seq.acts ++ [a]
      ∧ ∀ g, (lnk t g).sched = if g ∈ actGroups v w1 then (lnk v g).sched ++ [schedOf a true 0] else (lnk v g).sched := by
  intro a t
  have hplaced := place_action (b := b) (w0 := w0) (w2 := w2) hreplay h e v.seq.walkCyc
  have hlnk := lnk_foldSt_modLink (actGroups_nodup v w1)
    (fun _ l => { l with sched := l.sched ++ [schedOf (newAct v b e v.seq.walkCyc w0 w1 w2) true 0] })
  rw [foldSt_modLink_eq] at hplaced
  refine ⟨?_, ?_, ?_, ?_, fun g => ?_⟩
  · simp only [t, hplaced]
    rfl
  · simp only [t, hplaced]
    rfl
  · simp only [t, hplaced]
    rfl
  · simp only [t, hplaced]
    rfl
  · exact (congrArg Link.sched ((lnk_of_links (congrArg State.links hplaced)).trans (hlnk g _))).trans (apply_ite ..)

/-! ### A report starts no replay (R437, R521, R533) -/

theorem replaying_of_caskSt (h : t.cask.st = s.cask.st) : replaying t = replaying s := by rw [replaying, h]; rfl

@[simp] theorem replaying_ite {c : Prop} [Decidable c] :
    replaying (if c then s else t) = if c then replaying s else replaying t := apply_ite ..

@[simp] theorem modSeq_replaying (f) : replaying (modSeq f s) = replaying s := rfl

@[simp] theorem setAct_replaying : replaying (setAct a s) = replaying s := rfl

@[simp] theorem raise_replaying (n) : replaying (raise n s) = replaying s :=
  replaying_of_caskSt (congrArg Cask.st (raise_cask ..))

@[simp] theorem recFault_replaying (d c cls promoted unit) : replaying (recFault d c cls promoted unit s) = replaying s :=
  replaying_of_caskSt (by simp [recFault, recNow])

@[simp] theorem logAdd_replaying (d c cls promoted unit) : replaying (logAdd d c cls promoted unit s) = replaying s := rfl

@[simp] theorem setFltCnt_replaying (d c x) : replaying (setFltCnt d c x s) = replaying s := rfl

@[simp] theorem countCorrected_replaying (d c) : replaying (countCorrected d c s) = replaying s := rfl

@[simp] theorem writeFrec_replaying (d c unit esc pc pu) : replaying (writeFrec d c unit esc pc pu s) = replaying s := rfl

@[simp] theorem startReset_replaying (cause fatal) : replaying (startReset cause fatal s) = replaying s := rfl

@[simp] theorem holdFault_replaying (d c unit promoted) : replaying (holdFault d c unit promoted s) = replaying s := by
  unfold holdFault
  split <;> rfl

section
variable (h : replaying s = false)
include h

theorem freezeOnFault_replaying : replaying (freezeOnFault s) = false := by
  unfold freezeOnFault
  split
  · rfl
  · exact h

/-- A reset stops the cask (R523). -/
theorem fatal_replaying (d c unit esc pc pu) : replaying (fatal d c unit esc pc pu s) = false := by
  have hrec : replaying (recFault d.val c 3 false unit s) = false := by simpa using h
  unfold fatal
  dsimp only
  split
  · exact (holdFault_replaying ..).trans hrec
  · rw [startReset_replaying, writeFrec_replaying]
    exact ite_keep replaying rfl hrec

variable {d : Fin 12} (hd : d.val ≠ 9)
include hd

theorem contain_replaying (c unit promoted) : replaying (contain d c unit promoted s) = false := by
  unfold contain
  split
  · split
    · simpa using h
    · exact fatal_replaying h ..
  · rw [securityEvent, if_neg hd]
    exact freezeOnFault_replaying (by simpa using h)

theorem report_replaying (c unit) : replaying (report d c unit s) = false := by
  unfold report
  split
  · exact h
  · simp only [securityEvent, if_neg hd]
    refine ite_keep replaying (contain_replaying ?_ hd ..) ?_ <;> simpa using h
  · exact contain_replaying (by exact h) hd ..
  · exact fatal_replaying (by exact h) ..

end

/-! ### Commitment (R259, R287) -/

theorem shadowAct_live (h : replaying s = false) (a : Act) (k : Int) : shadowAct a k s = s := by simp [shadowAct, h]

theorem exec_commitHorizon {t0 : Nat} (hfirst : firstAct s.seq.acts horizonOf = some (a, t0)) :
    exec .commitHorizon s = .next (commitAct a (reachTb ((t0 : Int) - us) s)) := by
  show execCommitHorizon s = _
  simp only [execCommitHorizon, hfirst]

theorem commitAct_end (hcommitted : a.committed = true) :
    commitAct a s = reapActs (setAct { a with endCommitted := true } s) := if_pos hcommitted

theorem panEvents_other (hother : entAction a.w1 ≠ aPanOpen) (hother' : entAction a.w1 ≠ aPanClose) : panEvents a s = s :=
  if_neg (not_or.2 ⟨hother, hother'⟩)

/-- The pan event of a committed open or close at a group (R287). -/
def panEvOf (a : Act) (g : Grp) : PanEv :=
  { g := g, pan := ⟨entArgA a.w1 % 16, Nat.mod_lt _ (by decide)⟩, opens := decide (entAction a.w1 = aPanOpen), stamp := a.stamp
    origin := if a.timeBank then 1 else 0, decim := a.w2, cycle := a.cyc.extractLsb' 0 20, angle := a.w0, entry := a.entry }

theorem panEvents_pan (hreplay : replaying s = false) (hpan : entAction a.w1 = aPanOpen ∨ entAction a.w1 = aPanClose) :
    panEvents a s = modSmp (fun m => { m with
      evs := m.evs ++ ((targetGrps (entTarget a.w1)).filter fun g => (lnk s g).st = .up).map (panEvOf a) }) s := by
  rw [← foldSt_evs]
  simp only [panEvents, if_pos hpan, hreplay, Bool.false_or]
  rfl

theorem panEvents_replaying : replaying (panEvents a s) = replaying s := by
  unfold panEvents
  split
  · refine foldSt_keeps replaying _ _ (fun _ _ => ?_) s
    rfl
  · rfl

theorem commitAct_start (hreplay : replaying s = false) (hcommitted : a.committed = false) :
    commitAct a s = reapActs (panEvents a (setAct { a with committed := true } s)) := by
  have hlive : replaying (panEvents a (setAct { a with committed := true } s)) = false := panEvents_replaying.trans hreplay
  simp only [commitAct, hcommitted, Bool.false_eq_true, if_false, shadowAct_live hlive, ite_self]

/-! ### Skew and MARK (R243, R260) -/

/-- The actions that wait for the judgement of their skew, by their stamps. -/
def skewDue (a : Act) : Option Nat := if a.committed ∧ !a.checked then some a.stamp else none

theorem exec_skewCheck {t0 : Nat} (hfirst : firstAct s.seq.acts skewDue = some (a, t0)) :
    exec .skewCheck s = .next (reapActs (judgeSkew a (reachTb t0 s))) := by
  show execSkewCheck s = _
  unfold execSkewCheck
  have hfirst' : firstAct s.seq.acts (fun a => if a.committed ∧ !a.checked then some a.stamp else none) = some (a, t0) := hfirst
  simp only [hfirst']

/-- The skew of an action: the prediction in force against its stamp. -/
def skewOf (a : Act) (s : State) : Nat := (instantOf s (distCyc s a.cyc a.w0) - a.stamp).natAbs

/-- A skew is judged, and the largest is kept (R260). -/
def skewNoted (a : Act) (s : State) : State :=
  modSeq (fun q => { q with skMax := BitVec.ofNat 20 (max q.skMax.toNat (min (skewOf a s) 0xFFFFF)) })
    (setAct { a with checked := true } s)

theorem judgeSkew_judges (hreplay : replaying s = false) (hpred : predicts s = true) (hinj : injStim s 6 5 = none)
    (hknown : 0 ≤ distCyc s a.cyc a.w0 ∨ s.trk.prevOk = true) :
    judgeSkew a s = if 2 ^ (cfgFld s .seqCfg 8 4 + 2) < skewOf a s then
        report 6 5 (actUnit a.w1) (modSeq (fun q => { q with skew := satInc q.skew }) (skewNoted a s)) else skewNoted a s := by
  have hpred' : predicts (setAct { a with checked := true } s) = true := hpred
  have hinj' : injStim (setAct { a with checked := true } s) 6 5 = none := hinj
  have hknown' : ¬(distCyc (setAct { a with checked := true } s) a.cyc a.w0 < 0
      ∧ !(setAct { a with checked := true } s).trk.prevOk) := by
    rintro ⟨hbehind, hprev⟩
    rcases hknown with hahead | hknown
    · exact absurd hbehind (Int.not_lt.2 hahead)
    · have hprev' : (!s.trk.prevOk) = true := hprev
      simp [hknown] at hprev'
  have hskew : (instantOf (setAct { a with checked := true } s)
      (distCyc (setAct { a with checked := true } s) a.cyc a.w0) - a.stamp).natAbs = skewOf a s := rfl
  have hlim : ∀ f u, cfgFld (modSeq f (setAct u s)) .seqCfg 8 4 = cfgFld s .seqCfg 8 4 := fun _ _ => rfl
  unfold judgeSkew
  simp only [hpred', if_true, if_neg hknown', hinj', Option.isSome_none, Bool.false_eq_true, if_false, Int.add_zero, whenSt,
    hskew, hlim, skewNoted]
  refine shadowAct_live ?_ ..
  exact ite_keep replaying (report_replaying (d := 6) (by simpa using hreplay) (by decide) ..) (by simpa using hreplay)

/-- The committed MARKs that have not executed, by their stamps. -/
def markDue (a : Act) : Option Nat := if a.committed ∧ entAction a.w1 = aMark ∧ !a.endCommitted then some a.stamp else none

theorem exec_markExecute {t0 : Nat} (hfirst : firstAct s.seq.acts markDue = some (a, t0)) :
    exec .markExecute s = .next (reapActs (markAct a (reachTb t0 s))) := by
  show execMarkExecute s = _
  unfold execMarkExecute
  have hfirst' : firstAct s.seq.acts (fun a =>
    if a.committed ∧ entAction a.w1 = aMark ∧ !a.endCommitted then some a.stamp else none) = some (a, t0) := hfirst
  simp only [hfirst']

theorem markAct_live (hreplay : replaying s = false) :
    markAct a s = raiseNat (54 + entArgA a.w1 % 8) (setAct { a with endCommitted := true } (modSeq (fun q => { q with
      marks := q.marks.set (entArgA a.w1 % 8) ((if a.timeBank then s.trk.cyc else a.cyc).extractLsb' 0 20)
        (Nat.mod_lt _ (by decide)) }) s)) := by
  unfold markAct
  exact if_neg (show ¬replaying s = true by simp [hreplay])

/-- Settles O42: what is placed is read off `place_action`, and the rest follows since neither a commitment nor the report of a
skew starts a replay. -/
theorem entriesBecomeActions : Obligations.EntriesBecomeActions := by
  refine ⟨fun b i w0 w1 w2 v s hactive hnext hwalk hplace _ hread hreplay => ?_, fun a t0 s hlive => ?_⟩
  · have hgood := takeEntry_good (s := reachTb (i - lookTicks s) s) hread
    have hexec := (exec_lookaheadEntry hactive hnext hwalk hplace).trans (congrArg _ hgood)
    refine ⟨_, hexec, ?_⟩
    by_cases hnop : entAction w1 = aNop
    · rw [place_nop hnop]
      exact ⟨rfl, rfl, rfl, fun _ => ⟨rfl, rfl⟩, fun h => absurd hnop h⟩
    · obtain ⟨hframe, hleft, hbanks, hacts, hsched⟩ := entryTaken_action (b := b) (w0 := w0) (w2 := w2) hreplay hnop s.seq.next
      exact ⟨hframe, hleft, hbanks, fun h => absurd h hnop, fun _ => ⟨_, hacts, rfl, rfl, rfl, rfl, rfl, rfl, rfl, hsched⟩⟩
  · have hreplay : replaying s = false := by simpa [replaying] using hlive
    refine ⟨fun hfirst => ⟨fun hcommitted => ?_, fun hcommitted => ⟨fun hother hother' => ?_, fun hpan => ?_⟩⟩,
      fun hfirst hpred hinj hknown => ?_, fun hfirst => ?_⟩
    · exact (exec_commitHorizon hfirst).trans (congrArg _ (commitAct_end hcommitted))
    · exact (exec_commitHorizon hfirst).trans (congrArg _ ((commitAct_start (s := reachTb _ s) hreplay hcommitted).trans
        (congrArg _ (panEvents_other hother hother'))))
    · exact (exec_commitHorizon hfirst).trans (congrArg _ ((commitAct_start (s := reachTb _ s) hreplay hcommitted).trans
        (congrArg _ (panEvents_pan hreplay hpan))))
    · exact (exec_skewCheck hfirst).trans (congrArg _ (congrArg _ (judgeSkew_judges hreplay hpred hinj hknown)))
    · exact (exec_markExecute hfirst).trans (congrArg _ (congrArg _ (markAct_live hreplay)))

end Sys2Proof.Machine
end

section
/-! TRELLIS_LOAD and TRELLIS_ARM (O40): 08_trellis_sequencer R246 to R255, R265, and the stored words of 16_memory_integrity
R468, R470. A load is a short chain of stores and bank changes, and an ARM is decided by the result of the validation. -/

namespace Sys2Proof.Machine

variable {s t : State} {op : Op} {m : Msg} {w : Word} {ws : List Word} {b c : Fin 2} {k : Fin 16}

/-! ### A state rule that fails (R154) -/

theorem judge_stateRule (h : PacketReady op m s) {hd : Handler} (hst : hd.stateOk (takenUp op m s) m = false) :
    judge op hd m false (takenUp op m s) = some stState := by
  obtain ⟨i, hi, hvintage⟩ := h.vintage
  rw [← takenUp_vintage op m s] at hvintage
  rcases h.whole with hs | hs <;> simp [judge, hi, hs, h.good, Nat.not_lt.2 hvintage, hst]

/-- Such a packet is answered with what its opcode makes of the refusal. -/
theorem interp_stateRefused (h : PacketReady op m s) {hd : Handler} (hst : hd.stateOk (takenUp op m s) m = false) :
    interp op hd m s = .next (answer m (.reply stState (hd.words op stState (hd.refused stState m (takenUp op m s)) m),
      hd.refused stState m (takenUp op m s))) := by
  have hlost : (m.stream != .none && (stState == stAborted || stState == stLength || stState == stCheck)) = false :=
    Bool.and_false _
  rw [interp_refused h.toPacketHead hd stState (judge_stateRule h hst), hlost]
  rfl

theorem Took.seq_eq (h : Took s t) : t.seq = s.seq := by rw [h.1]

theorem Took.bnk (h : Took s t) (b : Fin 2) : bnk t b = bnk s b := by rw [Machine.bnk, Machine.bnk, h.seq_eq]

theorem takenUp_replaying : replaying (takenUp op m s) = replaying s := replaying_of_caskSt (takenUp_caskSt op m)

theorem takenUp_canonical (h : s.canonical = true) : (takenUp op m s).canonical = true :=
  recCmd_canonical ((modPort_canonical ..).trans ((setTurn_canonical _).trans h)) op m

/-! ### Words that are stored with their code (R468, R470) -/

/-- A memory whose words are stored with the half-word code, and no flip is armed. -/
structure Coded (k : Fin 16) (s : State) : Prop where
  wf : s.memsWf = true
  unarmed : s.mi.fArmed = false
  noLines : lineBank s k = none

theorem memPut_coded (h : Coded k s) (i : Nat) (x : Word) :
    ∃ f : Mi → Mi, (f s.mi).fArmed = false ∧ memPut k i x s = modMi f (memSet k i (encWord x) s) := by
  have hmi : ∀ y, (memSet k i y s).mi = s.mi := fun _ => rfl
  unfold memPut
  simp only [h.noLines, Option.isSome_none, Bool.false_eq_true, if_false, hmi]
  split
  · exact ⟨_, h.unarmed, if_neg (by simp [h.unarmed])⟩
  · exact ⟨id, h.unarmed, if_neg (by simp [h.unarmed])⟩

theorem Coded.memPut (h : Coded k s) (i : Nat) (x : Word) : Coded k (memPut k i x s) := by
  obtain ⟨f, hunarmed, hput⟩ := memPut_coded h i x
  exact ⟨memPut_wf k i x s h.wf, by rw [hput]; exact hunarmed, by rw [hput]; exact h.noLines⟩

/-- From `s` to `t` words have been stored in a memory from a place on, and nothing else has changed but the counts of the
memories. -/
structure Stored (k : Fin 16) (i : Nat) (ws : List Word) (s t : State) : Prop where
  frame : t = { s with mems := t.mems, mi := t.mi }
  others : ∀ l : Fin 16, l ≠ k → t.mems[l] = s.mems[l]
  outside : ∀ j, j < i ∨ i + ws.length ≤ j → memCell t k j = memCell s k j
  inside : ∀ n (h : n < ws.length), memCell t k (i + n) = encWord ws[n]

theorem memPuts_cons (k : Fin 16) (i : Nat) (x : Word) (ws : List Word) (s : State) :
    memPuts k i (x :: ws) s = memPuts k (i + 1) ws (memPut k i x s) := by
  simp only [memPuts, List.length_cons, List.range_succ_eq_map, List.zip_cons_cons, List.foldl_cons, List.zip_map_left,
    List.foldl_map, Prod.map, id, Nat.add_zero, Nat.succ_eq_add_one, Nat.add_assoc, Nat.add_comm 1]

theorem memPuts_stored (h : Coded k s) (i : Nat) : Stored k i ws s (memPuts k i ws s) := by
  induction ws generalizing i s with
  | nil => exact ⟨rfl, fun _ _ => rfl, fun _ _ => rfl, fun _ hn => absurd hn (Nat.not_lt_zero _)⟩
  | cons x ws ih =>
    obtain ⟨hframe, hothers, houtside, hinside⟩ := ih (h.memPut i x) (i + 1)
    obtain ⟨f, -, hput⟩ := memPut_coded h i x
    have hcell : ∀ j, memCell (memPut k i x s) k j = memCell (memSet k i (encWord x) s) k j := fun j => by rw [hput]; rfl
    rw [memPuts_cons]
    refine ⟨?_, fun l hl => ?_, fun j hj => ?_, fun n hn => ?_⟩
    · rw [hframe, hput]
      rfl
    · rw [hothers l hl, hput, modMi_mems, memSet_mems, vmod_get, if_neg (Ne.symm hl)]
    · rw [List.length_cons] at hj
      rw [houtside j (by omega), hcell, memCell_memSet_other _ _ _ _ _ _ (.inr (by omega))]
    · cases n with
      | zero => exact (houtside i (.inl (Nat.lt_succ_self i))).trans ((hcell i).trans (memCell_memSet k i _ s h.wf))
      | succ n =>
        have hn' : n < ws.length := Nat.lt_of_succ_lt_succ hn
        simpa [Nat.add_assoc, Nat.add_comm 1] using hinside n hn'

/-! ### The count of a bank (R249) -/

theorem cfgGet_cfgSet_same (h : s.canonical = true) (r : Reg) (x : Word) : cfgGet (cfgSet r x s) r = x :=
  lookupD_insertKey_same _ _ _ _ (by simp) _ (canonical_iff.1 h).2

theorem cfgGet_cfgSet_other {r q : Reg} (h : q.addr ≠ r.addr) (x : Word) : cfgGet (cfgSet r x s) q = cfgGet s q :=
  lookupD_insertKey_other _ _ _ _ _ h _

theorem bankCount_setCount (h : s.canonical = true) {n : Nat} (hn : n < 2 ^ 11) : bankCount (setCount b n s) b = n := by
  have hword : (BitVec.ofNat 20 n).toNat = n := by
    rw [BitVec.toNat_ofNat]
    exact Nat.mod_eq_of_lt (by omega)
  have hmask : (0x3800#20).toNat % 2 ^ 11 = 0 := by decide
  rw [bankCount, cfgFld, setCount, cfgGet_cfgSet_same h, fld, BitVec.toNat_or, BitVec.toNat_and, hword, Nat.shiftRight_zero,
    Nat.or_mod_two_pow, Nat.and_mod_two_pow, hmask, Nat.and_zero, Nat.zero_or, Nat.mod_eq_of_lt hn]

/-! ### TRELLIS_LOAD (R246, R248, R249) -/

/-- A load begins: the bank is not loaded, and it counts no entries. -/
def loadBegun (b : Fin 2) (s : State) : State :=
  modBank b (fun k => { k with loaded := false, valid := false }) (setCount b 0 s)

/-- A FINAL load completes the bank. -/
def loadDone (b : Fin 2) (n : Nat) (s : State) : State :=
  modBank b (fun k => { k with loaded := true, check := bankCrc (setCount b n s) b }) (setCount b n s)

/-- A load in vintage 2 or 3 of a bank without line checks. -/
def loaded (b : Fin 2) (final : Bool) (first : Nat) (ws : List Word) (s : State) : State :=
  let t := memPuts (bankIx b) (3 * first) ws (loadBegun b s)
  if final then loadDone b (first + ws.length / 3) t else t

theorem toCode_plain (h : (bnk s b).lineChk = false) : toCode b s = s := if_pos (by simp [h])

theorem trellisLoadGo_coded (hw : m.words = w :: ws) (hvintage : 2 ≤ portVintage s m.port)
    (hline : (bnk s (bankOf w)).lineChk = false) :
    trellisLoadGo m s = (let t := loaded (bankOf w) (bit w 11) (fld w 1 10) ws s
      (.reply stOk [BitVec.ofNat 20 (bankCount t (bankOf w))], t)) := by
  have hv1 : (portVintage s m.port == 1) = false := beq_eq_false_iff_ne.2 (by omega)
  have hcode : toCode (bankOf w) (loadBegun (bankOf w) s) = loadBegun (bankOf w) s :=
    toCode_plain (by rw [loadBegun, bnk_modBank_same]; exact hline)
  unfold loadBegun at hcode
  simp only [trellisLoadGo, pword, hw, List.getD_cons_zero, List.drop_succ_cons, List.drop_zero, hv1, Bool.false_eq_true,
    if_false, hcode]
  rfl

theorem bankIx_ne {c : Fin 2} (h : c ≠ b) : bankIx c ≠ bankIx b := by decide +revert

theorem lineBank_bankIx (h : (bnk s b).lineChk = false) : lineBank s (bankIx b) = none := by
  unfold lineBank
  obtain rfl | rfl : b = 0 ∨ b = 1 := by omega
  · simp [bankIx, h]
  · simp [bankIx, h]

theorem loadBegun_coded (hwf : s.memsWf = true) (hunarmed : s.mi.fArmed = false) (hline : (bnk s b).lineChk = false) :
    Coded (bankIx b) (loadBegun b s) :=
  ⟨hwf, hunarmed, lineBank_bankIx (by rw [loadBegun, bnk_modBank_same]; exact hline)⟩

/-- What a load changes, and what it leaves as it was. -/
structure Loads (b : Fin 2) (final : Bool) (first : Nat) (ws : List Word) (s t : State) : Prop where
  frame : t = { s with cfg := t.cfg, seq := t.seq, mems := t.mems, mi := t.mi }
  count : bankCount t b = if final then first + ws.length / 3 else 0
  done : (bnk t b).loaded = final
  invalid : (bnk t b).valid = false
  regs : ∀ r : Reg, r.addr ≠ (Reg.bankCfg b).addr → cfgGet t r = cfgGet s r
  inside : ∀ n (h : n < ws.length), memCell t (bankIx b) (3 * first + n) = encWord ws[n]
  outside : ∀ i, i < 3 * first ∨ 3 * first + ws.length ≤ i → memCell t (bankIx b) i = memCell s (bankIx b) i
  mems : ∀ k : Fin 16, k ≠ bankIx b → t.mems[k] = s.mems[k]
  banks : ∀ c, c ≠ b → bnk t c = bnk s c

theorem cfgGet_of_cfg (h : t.cfg = s.cfg) (r : Reg) : cfgGet t r = cfgGet s r := by rw [cfgGet, cfgGet, h]

theorem bankCount_of_cfg (h : t.cfg = s.cfg) (b : Fin 2) : bankCount t b = bankCount s b := by
  rw [bankCount, bankCount, cfgFld, cfgFld, cfgGet_of_cfg h]

section
variable {first : Nat}

theorem memPuts_loads (hcan : s.canonical = true) (hunarmed : s.mi.fArmed = false) (hline : (bnk s b).lineChk = false) :
    Loads b false first ws s (memPuts (bankIx b) (3 * first) ws (loadBegun b s)) := by
  have hcode := loadBegun_coded (canonical_iff.1 hcan).1 hunarmed hline
  obtain ⟨hframe, hothers, houtside, hinside⟩ := memPuts_stored hcode (3 * first) (ws := ws)
  generalize memPuts (bankIx b) (3 * first) ws (loadBegun b s) = t at hframe hothers houtside hinside
  have hcfg : t.cfg = (setCount b 0 s).cfg := by rw [hframe]; rfl
  have hbnk := bnk_of_banks (s := loadBegun b s) (t := t) (by rw [hframe])
  have hself : bnk t b = { bnk s b with loaded := false, valid := false } := (hbnk b).trans (bnk_modBank_same _)
  refine ⟨by rw [hframe]; rfl, ?_, congrArg Bank.loaded hself, congrArg Bank.valid hself, fun r hr => ?_, hinside, houtside,
    hothers, fun c hc => ?_⟩
  · exact (bankCount_of_cfg hcfg b).trans (bankCount_setCount hcan (by decide))
  · exact (cfgGet_of_cfg hcfg r).trans (cfgGet_cfgSet_other hr _)
  · exact (hbnk c).trans (bnk_modBank_other hc.symm _)

theorem Loads.loadDone (h : Loads b false first ws s t) (hcan : t.canonical = true) (hend : first + ws.length / 3 ≤ 1024) :
    Loads b true first ws s (loadDone b (first + ws.length / 3) t) := by
  have hself := bnk_modBank_same (b := b) (s := setCount b (first + ws.length / 3) t)
    fun k => { k with loaded := true, check := bankCrc (setCount b (first + ws.length / 3) t) b }
  refine ⟨?_, ?_, congrArg Bank.loaded hself, (congrArg Bank.valid hself).trans h.invalid, fun r hr => ?_, h.inside, h.outside,
    h.mems, fun c hc => ?_⟩
  · rw [h.frame]
    rfl
  · exact bankCount_setCount hcan (by omega)
  · exact (cfgGet_cfgSet_other hr _).trans (h.regs r hr)
  · exact (bnk_modBank_other hc.symm _).trans (h.banks c hc)

theorem loaded_loads (hcan : s.canonical = true) (hunarmed : s.mi.fArmed = false) (hline : (bnk s b).lineChk = false)
    (hend : first + ws.length / 3 ≤ 1024) (final : Bool) : Loads b final first ws s (loaded b final first ws s) := by
  have hstored := memPuts_loads (first := first) (ws := ws) hcan hunarmed hline
  have hbegun : (loadBegun b s).canonical = true := (modBank_canonical ..).trans (cfgSet_canonical hcan ..)
  cases final with
  | false => exact hstored
  | true => exact hstored.loadDone (memPuts_canonical hbegun ..) hend

end

/-! The packet (R246, R248). -/

theorem exec_trellisLoad_armed (h : PacketReady Op.trellisLoad m s) (hw : m.words = w :: ws)
    (harmed : bankArmed s (bankOf w) = true) :
    exec (.trellisLoad m) s = .next (replied m stState [] (takenUp Op.trellisLoad m s)) := by
  have harmed' : bankArmed (takenUp Op.trellisLoad m s) (bankOf w) = true := by rwa [bankArmed, (takenUp_took ..).bnk]
  have hst : trellisLoadH.stateOk (takenUp Op.trellisLoad m s) m = false := by simp [trellisLoadH, pword, hw, harmed']
  exact (interp_stateRefused h hst).trans (congrArg _ (answer_reply (takenUp_noReset _ m s h.noReset)))

theorem exec_trellisLoad_loads (h : PacketReady Op.trellisLoad m s) (hw : m.words = w :: ws)
    (hmax : m.stream = .none → m.words.length ≤ 2046) (hreplay : replaying (takenUp Op.trellisLoad m s) = false)
    (hfree : bankArmed s (bankOf w) = false) (hthree : ws.length % 3 = 0) (hzero : fld w 12 8 = 0)
    (hend : fld w 1 10 + ws.length / 3 ≤ 1024) (htap : tapHeld s m.port 0 = false) (hvintage : 2 ≤ portVintage s m.port)
    (hline : (bnk s (bankOf w)).lineChk = false) (hunarmed : s.mi.fArmed = false) (hcan : s.canonical = true) :
    ∃ t, exec (.trellisLoad m) s = .next (replied m stOk [BitVec.ofNat 20 (bankCount t (bankOf w))] t)
      ∧ Loads (bankOf w) (bit w 11) (fld w 1 10) ws (takenUp Op.trellisLoad m s) t := by
  have htook := takenUp_took Op.trellisLoad m s
  have hfree' : bankArmed (takenUp Op.trellisLoad m s) (bankOf w) = false := by rwa [bankArmed, htook.bnk]
  have hst : trellisLoadH.stateOk (takenUp Op.trellisLoad m s) m = true := by simp [trellisLoadH, pword, hw, hfree', hreplay]
  have hlen : (ws.length + 1) % 3 = 1 ∧ (ws.length + 1) / 3 = ws.length / 3 := by omega
  have hshape : trellisLoadH.shape m = true := by simp [trellisLoadH, hw, hlen]
  have hrange : trellisLoadH.range (takenUp Op.trellisLoad m s) m = true := by
    simp [trellisLoadH, pword, hw, hlen, hzero, hend]
  have htap' : trellisLoadH.free (takenUp Op.trellisLoad m s) m = true := by
    simp [trellisLoadH, tapHeld_of_taps htook.taps_eq, htap]
  have hj := judge_ready h trellisLoadH _ rfl hst (by simp [hw]) hmax hshape rfl hrange htap' rfl
  have hline' : (bnk (takenUp Op.trellisLoad m s) (bankOf w)).lineChk = false := by rwa [htook.bnk]
  have hloads := loaded_loads (ws := ws) (takenUp_canonical hcan) (takenUp_fArmed _ m s hunarmed) hline' hend (bit w 11)
  have hrun := trellisLoadGo_coded (s := takenUp Op.trellisLoad m s) hw (by rwa [takenUp_vintage]) hline'
  refine ⟨_, interp_answers h.toPacketHead rfl rfl hj hrun ?_, hloads⟩
  rw [hloads.frame]
  exact takenUp_noReset _ m s h.noReset

end Sys2Proof.Machine
end

section
/-! TRELLIS_ARM (O40): 08_trellis_sequencer R252, R253, R255, R265. What the command does is decided by its operation and, for
ARM, by the result of the validation; an accepted one is then recorded in the cask (R509). -/

namespace Sys2Proof.Machine

variable {s t u : State} {m : Msg} {w : Word} {b : Fin 2} {r : ArmRes}

/-! ### The validation (R253) -/

theorem validate_unloaded (h : bankLoaded s b = false) : (validate s b).1 = { reason := 1 } := if_pos (by simp [h])

/-- A bank that passes every check is loaded, and the result names neither an entry nor a group. -/
theorem validate_accepts (h : (validate s b).1.reason = 0) : bankLoaded s b = true ∧ (validate s b).1 = { reason := 0 } := by
  generalize hr : (validate s b).1 = r at h ⊢
  unfold validate at hr
  dsimp only at hr
  split at hr
  · subst hr
    cases h
  next hloaded =>
    refine ⟨by simpa using hloaded, ?_⟩
    repeat' split at hr
    all_goals
      subst hr
      cases h
    all_goals rfl

theorem armStatus_ne {reason : Nat} (h : reason ≠ 0) : armStatus reason ≠ stOk := by
  unfold armStatus
  split
  · contradiction
  all_goals decide

/-! ### ARM that is refused (R253) -/

/-- A bank that is not ACTIVE is not armed after a refusal, and keeps the reason. -/
structure Refused (b : Fin 2) (r : ArmRes) (s t : State) : Prop where
  frame : SeqStep s t
  st : (bnk t b).st = .unarmed
  invalid : (bnk t b).valid = false
  reason : (bnk t b).reason = BitVec.ofNat 4 r.reason
  entry : (bnk t b).failEntry = BitVec.ofNat 10 r.entry
  other : ∀ c, c ≠ b → bnk t c = bnk s c
  acts : t.seq.acts = s.seq.acts

theorem refuseArm_step (b : Fin 2) (r : ArmRes) (s : State) : SeqStep s (refuseArm b r s) := by
  have hkept : SeqStep s (modBank b (fun k => { k with valid := false }) (keepArm b r s)) :=
    ((SeqStep.refl s).modBank ..).modBank ..
  unfold refuseArm
  dsimp only
  split
  · exact (hkept.setBank ..).syncWait
  · exact hkept.syncWait

theorem bnk_refuseArm_same : bnk (refuseArm b r s) b =
    let k := { bnk s b with reason := BitVec.ofNat 4 r.reason, failEntry := BitVec.ofNat 10 r.entry, valid := false }
    if (bnk s b).st = .waiting then { k with st := .unarmed, stopPend := false } else k := by
  have hkept : bnk (modBank b (fun k => { k with valid := false }) (keepArm b r s)) b
      = { bnk s b with reason := BitVec.ofNat 4 r.reason, failEntry := BitVec.ofNat 10 r.entry, valid := false } := by
    rw [bnk_modBank_same, keepArm, bnk_modBank_same]
  simp only [refuseArm, bnk_syncWait, isWaiting, hkept, decide_eq_true_eq]
  split
  · rw [bnk_setBank_same, hkept]
  · exact hkept

theorem bnk_refuseArm_other {c : Fin 2} (hc : c ≠ b) : bnk (refuseArm b r s) c = bnk s c := by
  have hkept : bnk (modBank b (fun k => { k with valid := false }) (keepArm b r s)) c = bnk s c := by
    rw [bnk_modBank_other hc.symm, keepArm, bnk_modBank_other hc.symm]
  rw [refuseArm, bnk_syncWait]
  split
  · rw [bnk_setBank_other hc.symm, hkept]
  · exact hkept

theorem refuseArm_acts (b : Fin 2) (r : ArmRes) (s : State) : (refuseArm b r s).seq.acts = s.seq.acts := by
  unfold refuseArm
  dsimp only
  split <;> rfl

theorem refuseArm_refused (h : (bnk s b).st ≠ .active) (r : ArmRes) : Refused b r s (refuseArm b r s) := by
  have hself := bnk_refuseArm_same (b := b) (r := r) (s := s)
  refine ⟨refuseArm_step b r s, ?_, ?_, ?_, ?_, fun c => bnk_refuseArm_other, refuseArm_acts b r s⟩ <;> rw [hself]
  · cases hst : (bnk s b).st with
    | unarmed => simp [hst]
    | waiting => simp
    | active => exact absurd hst h
  all_goals
    dsimp only
    split <;> rfl

/-! ### The operations (R252, R255) -/

/-- A bank that is accepted is WAITING and VALID, and its arming is the latest one. -/
def armed (b : Fin 2) (s : State) : State :=
  syncWait (modSeq (fun q => { q with arms := s.seq.arms + 1 }) (modBank b (fun k => { k with
    st := .waiting, valid := true, stopPend := false, order := s.seq.arms + 1, armedAt := tbNow s, worst := (validate s b).2.1
    period0 := tbNow s, targets := targetsOf (validate s b).2.2 })
    (keepArm b { reason := 0 } (modBank b (fun k => { k with check := bankCrc s b }) s))))

theorem armGo_accepts (hst : (bnk s b).st ≠ .active) (h : (validate s b).1.reason = 0) :
    armGo b s = (.reply stOk [armWord { reason := 0 }], armed b s) := by
  have hr := (validate_accepts h).2
  simp only [armGo, if_neg hst, hr, true_or, if_true, ne_eq, not_true_eq_false, if_false]
  rfl

/-- A refusal for the content or for the seal keeps the content check (R249, R253). -/
def checked (b : Fin 2) (r : ArmRes) (s : State) : State :=
  if 11 ≤ r.reason then modBank b (fun k => { k with check := bankCrc s b }) s else s

theorem armGo_refuses (hst : (bnk s b).st ≠ .active) (h : (validate s b).1.reason ≠ 0) :
    armGo b s = (.reply (armStatus (validate s b).1.reason) [armWord (validate s b).1],
      refuseArm b (validate s b).1 (checked b (validate s b).1 s)) := by
  simp only [armGo, if_neg hst, h, false_or, ne_eq, not_false_eq_true, if_true]
  rfl

theorem checked_step (b : Fin 2) (r : ArmRes) (s : State) : SeqStep s (checked b r s) := by
  unfold checked
  split
  · exact (SeqStep.refl s).modBank ..
  · exact SeqStep.refl s

theorem bnk_checked_other {c : Fin 2} (hc : c ≠ b) : bnk (checked b r s) c = bnk s c := by
  unfold checked
  split
  · exact bnk_modBank_other hc.symm _
  · rfl

theorem bnk_checked_st : (bnk (checked b r s) b).st = (bnk s b).st := by
  unfold checked
  split
  · rw [bnk_modBank_same]
  · rfl

theorem checked_acts (b : Fin 2) (r : ArmRes) (s : State) : (checked b r s).seq.acts = s.seq.acts := by
  unfold checked
  split <;> rfl

theorem refuseArm_checked (h : (bnk s b).st ≠ .active) (r : ArmRes) : Refused b r s (refuseArm b r (checked b r s)) := by
  obtain ⟨hframe, hst, hinvalid, hreason, hentry, hother, hacts⟩ :=
    refuseArm_refused (s := checked b r s) (by rwa [bnk_checked_st]) r
  exact ⟨(checked_step b r s).trans hframe, hst, hinvalid, hreason, hentry,
    fun c hc => (hother c hc).trans (bnk_checked_other hc), hacts.trans (checked_acts b r s)⟩

theorem armed_step (b : Fin 2) (s : State) : SeqStep s (armed b s) :=
  (((((SeqStep.refl s).modBank ..).modBank ..).modBank ..).modSeq _).syncWait

theorem bnk_armsCounted (n : Nat) : bnk (modSeq (fun q => { q with arms := n }) s) b = bnk s b := rfl

theorem bnk_armed_same : bnk (armed b s) b = { bnk s b with
    check := bankCrc s b, reason := 0, failEntry := 0, st := .waiting, valid := true, stopPend := false, order := s.seq.arms + 1
    armedAt := tbNow s, worst := (validate s b).2.1, period0 := tbNow s, targets := targetsOf (validate s b).2.2 } := by
  rw [armed, bnk_syncWait, bnk_armsCounted, bnk_modBank_same, keepArm, bnk_modBank_same, bnk_modBank_same]
  rfl

theorem bnk_armed_other {c : Fin 2} (hc : c ≠ b) : bnk (armed b s) c = bnk s c := by
  rw [armed, bnk_syncWait, bnk_armsCounted, bnk_modBank_other hc.symm, keepArm, bnk_modBank_other hc.symm,
    bnk_modBank_other hc.symm]

theorem armed_acts (b : Fin 2) (s : State) : (armed b s).seq.acts = s.seq.acts := by
  simp [armed, modBank, keepArm]

/-! STOP (R255). -/

/-- The bank after a STOP: a WAITING one is no longer armed, the ACTIVE one goes on to its boundary. -/
def stoppedBank (k : Bank) : Bank :=
  match k.st with
  | .unarmed => k
  | .waiting => { k with st := .unarmed, stopPend := false }
  | .active => { k with stopPend := true }

/-- What a STOP changes. -/
structure Stops (b : Fin 2) (s t : State) : Prop where
  frame : SeqStep s t
  bank : bnk t b = stoppedBank (bnk s b)
  other : ∀ c, c ≠ b → bnk t c = bnk s c
  acts : t.seq.acts = s.seq.acts

theorem stopGo_stops (b : Fin 2) (s : State) : ∃ t, stopGo b s = (.reply stOk [armWord { reason := 0 }], t) ∧ Stops b s t := by
  unfold stopGo
  cases hst : (bnk s b).st with
  | unarmed => exact ⟨_, rfl, (SeqStep.refl s).syncWait, by simp only [stoppedBank, hst]; rfl, fun _ _ => rfl, rfl⟩
  | waiting =>
    refine ⟨_, rfl, ((SeqStep.refl s).setBank ..).syncWait, ?_, fun c hc => bnk_setBank_other hc.symm _, rfl⟩
    simp only [stoppedBank, hst, bnk_syncWait, bnk_setBank_same]
  | active =>
    refine ⟨_, rfl, ((SeqStep.refl s).modBank ..).syncWait, ?_, fun c hc => bnk_modBank_other hc.symm _, rfl⟩
    simp only [stoppedBank, hst, bnk_syncWait, bnk_modBank_same]

/-! HALT (R255, R265). -/

theorem dropActs_seq (e : Extent) (s : State) :
    (dropActs e s).seq = { s.seq with acts := s.seq.acts.filter fun a => !inExtent e a.timeBank } :=
  foldSt_keeps State.seq _ _ (by intros; rfl) _

theorem dropActs_caskSt (e : Extent) (s : State) : (dropActs e s).cask.st = s.cask.st :=
  foldSt_keeps (fun s => s.cask.st) _ _ (by intros; rfl) _

/-- The links keep their states when actions are dropped. -/
theorem dropActs_linkSt (e : Extent) (s : State) (g : Grp) : (lnk (dropActs e s) g).st = (lnk s g).st := by
  refine (congrArg Link.st (lnk_foldSt_modLink groups_nodup _ g _)).trans ?_
  split <;> rfl

theorem withdraw_seq (h : replaying s = false) (e : Extent) : (withdraw e s).seq = { s.seq with
    acts := s.seq.acts.filter fun a => !inExtent e a.timeBank, withdraw := satInc s.seq.withdraw } := by
  have hlive : (dropActs e s).cask.st ≠ .replaying := by simpa [replaying, dropActs_caskSt] using h
  have hlinks := foldSt_keeps State.seq (groups.filter fun g => (lnk (dropActs e s) g).st = .up)
    (fun g => modLink g fun l => { l with withdraw := some (joinExtent e l.withdraw) }) (by intros; rfl) (dropActs e s)
  simp only [withdraw, if_neg hlive, modSeq_seq, hlinks, dropActs_seq]

theorem mem_groups : ∀ g : Grp, g ∈ groups := by decide

/-- Every group that is up is told (R265). -/
theorem withdraw_told (h : replaying s = false) {e : Extent} {g : Grp} (hup : (lnk s g).st = .up) :
    (lnk (withdraw e s) g).withdraw = some (joinExtent e (lnk (dropActs e s) g).withdraw) := by
  have hlive : (dropActs e s).cask.st ≠ .replaying := by simpa [replaying, dropActs_caskSt] using h
  have hmem : g ∈ groups.filter fun g => (lnk (dropActs e s) g).st = .up := by
    simp only [List.mem_filter, dropActs_linkSt, hup, decide_true, and_true]
    exact mem_groups g
  simp only [withdraw, if_neg hlive, lnk_of_links (modSeq_links ..)]
  rw [lnk_foldSt_modLink (groups_nodup.filter _) (fun _ l => { l with withdraw := some (joinExtent e l.withdraw) }), if_pos hmem]

/-- What a HALT changes. -/
structure Halts (s t : State) : Prop where
  step : TrkStep s t
  trk : t.trk = s.trk
  unarmed : ∀ c, (bnk t c).st = .unarmed
  acts : t.seq.acts = []
  walking : t.seq.walking = false
  count : t.seq.withdraw = satInc s.seq.withdraw
  told : ∀ g, (lnk s g).st = .up → (lnk t g).withdraw = some .all

theorem haltBanks_halts (h : replaying s = false) : Halts s (syncWait (haltBanks s)) := by
  have hseq := withdraw_seq h .all
  have hbnk : ∀ c, (bnk (syncWait (haltBanks s)) c).st = .unarmed := fun c => by
    rw [bnk_syncWait, haltBanks, bnk_stopWalk]
    obtain rfl | rfl : c = 0 ∨ c = 1 := by omega
    · rw [bnk_setBank_other (by decide), bnk_setBank_same]
    · rw [bnk_setBank_same]
  have hsync : ∀ u, (syncWait u).links = u.links := fun _ => rfl
  have hlinks : (syncWait (haltBanks s)).links = (withdraw .all s).links := by simp [hsync, haltBanks, setBank, stopWalk]
  have hjoin : ∀ x, joinExtent .all x = .all := fun x => by rcases x with _ | ⟨_ | _⟩ <;> rfl
  refine ⟨(TrkStep.refl s).haltBanks.syncWait, ?_, hbnk, ?_, ?_, ?_, fun g hup => ?_⟩
  · simp [haltBanks, setBank, stopWalk]
  · simp [haltBanks, setBank, stopWalk, hseq, inExtent]
  · simp [haltBanks, stopWalk]
  · simp [haltBanks, setBank, stopWalk, hseq]
  · rw [lnk_of_links hlinks, withdraw_told h hup, hjoin]

/-! ### The packet (R154, R252, R509) -/

theorem SeqStep.pw_eq (h : SeqStep s t) : t.pw = s.pw := by rw [h]

/-- What each operation does: ARM, STOP, HALT. -/
def armOpGo (n : Nat) (b : Fin 2) (s : State) : Ans × State :=
  match n with
  | 0 => armGo b s
  | 1 => stopGo b s
  | _ => (.reply stOk [armWord { reason := 0 }], syncWait (haltBanks s))

theorem trellisArmH_run (hw : m.words = [w]) (s : State) :
    trellisArmH.run m s = (let r := armOpGo (fld w 1 2) (bankOf w) s; (r.1, recBank (fld w 1 2) (bankOf w) r.1 r.2)) := by
  have hop : armOp m = fld w 1 2 := by simp [armOp, pword, hw]
  have hbank : bankOf (pword m 0) = bankOf w := by simp [pword, hw]
  simp only [trellisArmH, hop, hbank]
  rfl

/-- Check 1 of the validation is a state rule of an ARM (R154, R253). -/
theorem armLoaded_eq (hw : m.words = [w]) (s : State) :
    armLoaded s m = (fld w 1 2 != 0 || (bnk s (bankOf w)).st == .active || bankLoaded s (bankOf w)) := by
  simp [armLoaded, armOp, pword, hw]

theorem recBank_refused {st : Status} (h : st ≠ stOk) (n : Nat) (b : Fin 2) (ws : List Word) (s : State) :
    recBank n b (.reply st ws) s = s := by
  simp [recBank, whenSt, h]

section
variable (h : PacketReady Op.trellisArm m s) (hw : m.words = [w]) (hzero : fld w 3 17 = 0) (htap : tapHeld s m.port 0 = false)
  (hreplay : replaying (takenUp Op.trellisArm m s) = false)
include h hw hzero htap hreplay

theorem trellisArm_runs (hop : fld w 1 2 ≠ 3) (hload : armLoaded (takenUp Op.trellisArm m s) m = true) :
    interp Op.trellisArm trellisArmH m s = .next (answer m (
      let r := armOpGo (fld w 1 2) (bankOf w) (takenUp Op.trellisArm m s)
      (r.1, recBank (fld w 1 2) (bankOf w) r.1 r.2))) := by
  have hst : trellisArmH.stateOk (takenUp Op.trellisArm m s) m = true := by simp [trellisArmH, hreplay, hload]
  have hrange : trellisArmH.range (takenUp Op.trellisArm m s) m = true := by simp [trellisArmH, armOp, pword, hw, hzero, hop]
  have htap' : trellisArmH.free (takenUp Op.trellisArm m s) m = true := by
    simp [trellisArmH, tapHeld_of_taps (takenUp_took ..).taps_eq, htap]
  have hj := judge_ready h trellisArmH _ rfl hst (by simp [hw]) (by simp [hw]) rfl rfl hrange htap' rfl
  exact (interp_runs h.toPacketHead rfl rfl hj).trans (by rw [trellisArmH_run hw])

/-- An operation that is accepted is recorded, and its reply queued. -/
theorem trellisArm_accepts (hop : fld w 1 2 ≠ 3) (hload : armLoaded (takenUp Op.trellisArm m s) m = true) {ws : List Word}
    (hgo : armOpGo (fld w 1 2) (bankOf w) (takenUp Op.trellisArm m s) = (.reply stOk ws, t)) (hpw : t.pw = s.pw) :
    ∃ v, interp Op.trellisArm trellisArmH m s = .next (replied m stOk ws v) ∧ RecStep t v := by
  have hrec : RecStep t (recBank (fld w 1 2) (bankOf w) (.reply stOk ws) t) := (RecStep.refl t).recNow ..
  refine ⟨_, ?_, hrec⟩
  rw [trellisArm_runs h hw hzero htap hreplay hop hload, hgo]
  exact congrArg _ (answer_reply (by simpa [resetting, hrec.pw_eq, hpw] using h.noReset))

/-- An operation that is refused only answers. -/
theorem trellisArm_denies (hop : fld w 1 2 ≠ 3) (hload : armLoaded (takenUp Op.trellisArm m s) m = true) {st : Status}
    {ws : List Word} (hgo : armOpGo (fld w 1 2) (bankOf w) (takenUp Op.trellisArm m s) = (.reply st ws, t)) (hst : st ≠ stOk)
    (hpw : t.pw = s.pw) : interp Op.trellisArm trellisArmH m s = .next (replied m st ws t) := by
  rw [trellisArm_runs h hw hzero htap hreplay hop hload, hgo]
  dsimp only
  rw [recBank_refused hst]
  exact congrArg _ (answer_reply (by simpa [resetting, hpw] using h.noReset))

end

/-! ARM of a bank that is not loaded is refused at check 3 (R154, R253). -/

theorem armRefusal_unloaded (hpermitted : opPermitted Op.trellisArm s.pw.dev = true) (hreplay : replaying s = false)
    (hload : armLoaded s m = false) : armRefusal Op.trellisArm stState s m = true := by
  simp [armRefusal, hpermitted, hreplay, hload]

theorem bankLoaded_refuseArm : bankLoaded (refuseArm b r s) b = bankLoaded s b := by
  have hloaded : (bnk (refuseArm b r s) b).loaded = (bnk s b).loaded := by
    rw [bnk_refuseArm_same]
    dsimp only
    split <;> rfl
  rw [bankLoaded, bankLoaded, hloaded, (refuseArm_step b r s).bankCount]

section
variable (h : PacketReady Op.trellisArm m s) (hw : m.words = [w])
  (hreplay : replaying (takenUp Op.trellisArm m s) = false) (hop : fld w 1 2 = 0)
  (hst : (bnk (takenUp Op.trellisArm m s) (bankOf w)).st ≠ .active)
include h hw hreplay hop hst

theorem trellisArm_unloaded (hload : bankLoaded (takenUp Op.trellisArm m s) (bankOf w) = false) :
    interp Op.trellisArm trellisArmH m s = .next (replied m stState [armWord { reason := 1 }]
      (refuseArm (bankOf w) { reason := 1 } (takenUp Op.trellisArm m s))) := by
  have hpermitted : opPermitted Op.trellisArm (takenUp Op.trellisArm m s).pw.dev = true := by
    rw [(takenUp_took ..).pw_eq]
    exact h.permitted
  have hbank : bankOf (pword m 0) = bankOf w := by simp [pword, hw]
  have hnot : armLoaded (takenUp Op.trellisArm m s) m = false := by simp [armLoaded_eq hw, hop, hst, hload]
  have hrule : trellisArmH.stateOk (takenUp Op.trellisArm m s) m = false := by simp [trellisArmH, hnot]
  have hrefused : trellisArmH.refused stState m (takenUp Op.trellisArm m s)
      = refuseArm (bankOf w) { reason := 1 } (takenUp Op.trellisArm m s) := by
    simp [trellisArmH, armRefusal_unloaded hpermitted hreplay hnot, hbank]
  rw [interp_stateRefused h hrule, hrefused]
  have hreset := takenUp_noReset Op.trellisArm m s h.noReset
  generalize takenUp Op.trellisArm m s = u at *
  have hself := (refuseArm_refused hst { reason := 1 }).st
  have hstep := refuseArm_step (bankOf w) { reason := 1 } u
  have hagain : armRefusal Op.trellisArm stState (refuseArm (bankOf w) { reason := 1 } u) m = true := by
    refine armRefusal_unloaded ?_ ?_ ?_
    · rw [hstep]
      exact hpermitted
    · rw [hstep]
      exact hreplay
    · simp [armLoaded_eq hw, hop, hself, bankLoaded_refuseArm, hload]
  have hwords : trellisArmH.words Op.trellisArm stState (refuseArm (bankOf w) { reason := 1 } u) m
      = [armWord { reason := 1 }] := if_pos hagain
  rw [hwords]
  refine congrArg _ (answer_reply ?_)
  rw [hstep]
  exact hreset

variable (hzero : fld w 3 17 = 0) (htap : tapHeld s m.port 0 = false)
include hzero htap

/-- An ARM that the validation refuses, by whichever check. -/
theorem trellisArm_refuses (hbad : (validate (takenUp Op.trellisArm m s) (bankOf w)).1.reason ≠ 0) :
    let r := (validate (takenUp Op.trellisArm m s) (bankOf w)).1
    ∃ t, interp Op.trellisArm trellisArmH m s = .next (replied m (armStatus r.reason) [armWord r] t)
      ∧ Refused (bankOf w) r (takenUp Op.trellisArm m s) t := by
  intro r
  cases hload : bankLoaded (takenUp Op.trellisArm m s) (bankOf w) with
  | false =>
    have hr : r = { reason := 1 } := validate_unloaded hload
    rw [hr]
    exact ⟨_, trellisArm_unloaded h hw hreplay hop hst hload, refuseArm_refused hst _⟩
  | true =>
    have hgo : armOpGo (fld w 1 2) (bankOf w) (takenUp Op.trellisArm m s) = (.reply (armStatus r.reason) [armWord r],
        refuseArm (bankOf w) r (checked (bankOf w) r (takenUp Op.trellisArm m s))) := by
      rw [hop]
      exact armGo_refuses hst hbad
    have hrefused := refuseArm_checked hst r
    have hpw := hrefused.frame.pw_eq.trans (takenUp_took Op.trellisArm m s).pw_eq
    exact ⟨_, trellisArm_denies h hw hzero htap hreplay (by simp [hop]) (by simp [armLoaded_eq hw, hload]) hgo
      (armStatus_ne hbad) hpw, hrefused⟩

end

theorem RecStep.seq_eq (h : RecStep s t) : t.seq = s.seq := by rw [h.1]

theorem RecStep.links_eq (h : RecStep s t) : t.links = s.links := by rw [h.1]

/-- A change of the sequencer, and its record. -/
theorem SeqStep.recorded (h : SeqStep s t) (k : RecStep t u) :
    u = { s with seq := u.seq, cask := u.cask, mems := u.mems, irq := u.irq, mi := u.mi, mmp := u.mmp } := by
  have hu := k.1
  rw [SeqStep] at h
  rw [h] at hu
  rw [hu]

end Sys2Proof.Machine
end

section
/-! The obligation O40: what 08_trellis_sequencer R246 to R250 say of TRELLIS_LOAD, and R252 to R255 and R265 of the three
operations of TRELLIS_ARM, over the state from which the packet is taken up. -/

namespace Sys2Proof.Machine

variable {s t u v : State} {m : Msg} {w : Word} {ws : List Word} {b c : Fin 2}

theorem Took.memCell_bank (h : Took s t) (b : Fin 2) (i : Nat) : memCell t (bankIx b) i = memCell s (bankIx b) i := by
  have hb : bankIx b ≠ 8 := by decide +revert
  rw [memCell, memCell, h.2 _ hb]

/-- A load over a packet that is taken up. -/
theorem Loads.took {final : Bool} {first : Nat} (h : Loads b final first ws u t) (k : Took s u) :
    (∀ r : Reg, r.addr ≠ (Reg.bankCfg b).addr → cfgGet t r = cfgGet s r)
    ∧ (∀ i, i < 3 * first ∨ 3 * first + ws.length ≤ i → memCell t (bankIx b) i = memCell s (bankIx b) i)
    ∧ (∀ l : Fin 16, l ≠ 8 → l ≠ bankIx b → t.mems[l] = s.mems[l])
    ∧ ∀ c, c ≠ b → bnk t c = bnk s c :=
  ⟨fun r hr => (h.regs r hr).trans (cfgGet_of_cfg k.cfg_eq r), fun i hi => (h.outside i hi).trans (k.memCell_bank b i),
    fun l h8 hl => (h.mems l hl).trans (k.2 l h8), fun c hc => (h.banks c hc).trans (k.bnk c)⟩

theorem Took.tbNow_eq (h : Took s t) : tbNow t = tbNow s := by rw [tbNow, tbNow, h.pw_eq, h.now_eq]

theorem armWord_accepted : armWord { reason := 0 } = pack [(0, 0), (4, 0), (14, 7)] := rfl

/-- The bank that a TRELLIS_ARM does not name. -/
theorem unnamedBank_ne (w : Word) : (if bit w 0 then 0 else 1 : Fin 2) ≠ bankOf w := by
  unfold bankOf
  split <;> decide

/-! What the record of an accepted operation keeps (R509). -/

theorem RecStep.bnk (h : RecStep t v) (c : Fin 2) : Machine.bnk v c = Machine.bnk t c :=
  bnk_of_banks (congrArg Seq.banks h.seq_eq) c

theorem Halts.recorded (h : Halts s t) (k : RecStep t u) : u = { s with
    seq := u.seq, smp := u.smp, links := u.links, cask := u.cask, mems := u.mems, irq := u.irq, mi := u.mi, mmp := u.mmp } := by
  have hu := (h.step.trans k.trk).1
  have htrk : u.trk = s.trk := k.trk_eq.trans h.trk
  rw [htrk] at hu
  exact hu

theorem Took.lnk (h : Took s t) (g : Grp) : Machine.lnk t g = Machine.lnk s g := lnk_of_links (by rw [h.1])

/-! Each outcome over a packet that is taken up: `s` before it, `u` with it, `t` after the operation, `v` after its record. -/

section
variable {r : ArmRes} (k : Took s u)
include k

theorem armed_took (hc : c ≠ b) (h : RecStep (armed b u) v) :
    (bnk v b).st = .waiting ∧ (bnk v b).valid = true ∧ (bnk v b).armedAt = tbNow s ∧ (bnk v b).order = s.seq.arms + 1
    ∧ (bnk v b).reason = 0 ∧ (bnk v b).check = bankCrc u b ∧ (bnk v b).worst = (validate u b).2.1 ∧ bnk v c = bnk s c
    ∧ v.seq.acts = s.seq.acts := by
  have hother : bnk v c = bnk s c := (h.bnk c).trans ((bnk_armed_other hc).trans (k.bnk c))
  have hacts : v.seq.acts = u.seq.acts := (congrArg Seq.acts h.seq_eq).trans (armed_acts b u)
  rw [(h.bnk b).trans bnk_armed_same, hother, hacts, k.tbNow_eq, k.seq_eq]
  exact ⟨rfl, rfl, rfl, rfl, rfl, rfl, rfl, rfl, rfl⟩

theorem Refused.took (hc : c ≠ b) (h : Refused b r u t) : t = { u with seq := t.seq }
    ∧ (bnk t b).st = .unarmed ∧ (bnk t b).valid = false ∧ (bnk t b).reason = BitVec.ofNat 4 r.reason
    ∧ (bnk t b).failEntry = BitVec.ofNat 10 r.entry ∧ bnk t c = bnk s c ∧ t.seq.acts = s.seq.acts := by
  have hother := (h.other c hc).trans (k.bnk c)
  have hacts := h.acts.trans (congrArg Seq.acts k.seq_eq)
  exact ⟨h.frame, h.st, h.invalid, h.reason, h.entry, hother, hacts⟩

theorem Stops.took (hc : c ≠ b) (h : Stops b u t) (hrec : RecStep t v) :
    bnk v c = bnk s c ∧ v.seq.acts = s.seq.acts ∧ bnk v b = stoppedBank (bnk s b) := by
  rw [hrec.bnk, hrec.bnk, hrec.seq_eq, h.other c hc, h.acts, h.bank, k.bnk, k.bnk, k.seq_eq]
  exact ⟨rfl, rfl, rfl⟩

theorem Halts.took (h : Halts u t) (hrec : RecStep t v) :
    (∀ c, (bnk v c).st = .unarmed) ∧ v.seq.acts = [] ∧ v.seq.walking = false ∧ v.seq.withdraw = satInc s.seq.withdraw
    ∧ ∀ g : Grp, (lnk s g).st = .up → (lnk v g).withdraw = some .all := by
  rw [hrec.seq_eq, ← k.seq_eq]
  refine ⟨fun c => ?_, h.acts, h.walking, h.count, fun g hup => ?_⟩
  · rw [hrec.bnk]
    exact h.unarmed c
  · rw [lnk_of_links hrec.links_eq]
    exact h.told g ((k.lnk g).symm ▸ hup)

end

/-! ### The commands -/

section
variable (h : PacketReady Op.trellisArm m s) (hw : m.words = [w]) (hzero : fld w 3 17 = 0) (htap : tapHeld s m.port 0 = false)
  (hreplay : replaying (takenUp Op.trellisArm m s) = false)
include h hw hzero htap hreplay

/-- ARM of a bank that passes every check (R252, R253). -/
theorem exec_trellisArm_accepts (hop : fld w 1 2 = 0) (hst : (bnk s (bankOf w)).st ≠ .active)
    (hgood : (validate (takenUp Op.trellisArm m s) (bankOf w)).1.reason = 0) :
    ∃ v, exec (.trellisArm m) s = .next (replied m stOk [armWord { reason := 0 }] v)
      ∧ RecStep (armed (bankOf w) (takenUp Op.trellisArm m s)) v := by
  have htook := takenUp_took Op.trellisArm m s
  have hst' : (bnk (takenUp Op.trellisArm m s) (bankOf w)).st ≠ .active := by rwa [htook.bnk]
  have hload := (validate_accepts hgood).1
  have hgo : armOpGo (fld w 1 2) (bankOf w) (takenUp Op.trellisArm m s)
      = (.reply stOk [armWord { reason := 0 }], armed (bankOf w) (takenUp Op.trellisArm m s)) := by
    rw [hop]
    exact armGo_accepts hst' hgood
  exact trellisArm_accepts h hw hzero htap hreplay (by simp [hop]) (by simp [armLoaded_eq hw, hload]) hgo
    ((armed_step ..).pw_eq.trans htook.pw_eq)

/-- STOP (R255). -/
theorem exec_trellisStop (hop : fld w 1 2 = 1) : ∃ t v, exec (.trellisStop m) s
      = .next (replied m stOk [armWord { reason := 0 }] v)
    ∧ Stops (bankOf w) (takenUp Op.trellisArm m s) t ∧ RecStep t v := by
  obtain ⟨t, hstop, hstops⟩ := stopGo_stops (bankOf w) (takenUp Op.trellisArm m s)
  have hgo : armOpGo (fld w 1 2) (bankOf w) (takenUp Op.trellisArm m s) = (.reply stOk [armWord { reason := 0 }], t) := by
    rw [hop]
    exact hstop
  have hpw := hstops.frame.pw_eq.trans (takenUp_took Op.trellisArm m s).pw_eq
  obtain ⟨v, hv, hrec⟩ := trellisArm_accepts h hw hzero htap hreplay (by simp [hop]) (by simp [armLoaded_eq hw, hop]) hgo hpw
  exact ⟨t, v, hv, hstops, hrec⟩

/-- HALT (R255, R265). -/
theorem exec_trellisHalt (hop : fld w 1 2 = 2) : ∃ t v, exec (.trellisHalt m) s
      = .next (replied m stOk [armWord { reason := 0 }] v)
    ∧ Halts (takenUp Op.trellisArm m s) t ∧ RecStep t v := by
  have hhalts := haltBanks_halts hreplay
  have hgo : armOpGo (fld w 1 2) (bankOf w) (takenUp Op.trellisArm m s)
      = (.reply stOk [armWord { reason := 0 }], syncWait (haltBanks (takenUp Op.trellisArm m s))) := by
    rw [hop]
    rfl
  have hpw : (syncWait (haltBanks (takenUp Op.trellisArm m s))).pw = s.pw := by
    rw [hhalts.step.1]
    exact (takenUp_took Op.trellisArm m s).pw_eq
  obtain ⟨v, hv, hrec⟩ := trellisArm_accepts h hw hzero htap hreplay (by simp [hop]) (by simp [armLoaded_eq hw, hop]) hgo hpw
  exact ⟨_, v, hv, hhalts, hrec⟩

end

/-- Settles O40: a load by the chain of its stores (`loaded_loads`), an ARM by the result of its validation (`armGo_accepts`,
`refuseArm_checked`), a STOP by the state of its bank, and a HALT by the withdrawal of all extents. -/
theorem banksAreLoadedAndArmed : Obligations.BanksAreLoadedAndArmed := by
  unfold Obligations.BanksAreLoadedAndArmed
  refine ⟨fun m w ws s h hw hmax => ?_, fun m w s h hw hzero htap => ?_⟩
  · intro u b n hreplay
    refine ⟨exec_trellisLoad_armed h hw, fun hfree hthree hfld hend htap hvintage hline hunarmed hcan => ?_⟩
    obtain ⟨t, hexec, hloads⟩ :=
      exec_trellisLoad_loads h hw hmax hreplay hfree hthree hfld hend htap hvintage hline hunarmed hcan
    obtain ⟨hregs, houtside, hmems, hbanks⟩ := hloads.took (takenUp_took Op.trellisLoad m s)
    rw [hloads.count] at hexec
    exact ⟨t, hexec, hloads.frame, hloads.count, hloads.done, hloads.invalid, hregs, hloads.inside, houtside, hmems, hbanks⟩
  · dsimp only
    intro hreplay
    have htook := takenUp_took Op.trellisArm m s
    have ho := unnamedBank_ne w
    rw [← armWord_accepted]
    refine ⟨fun hop hst => ⟨fun hgood => ?_, fun hbad => ?_⟩, fun hop => ?_, fun hop => ?_⟩
    · obtain ⟨v, hexec, hrec⟩ := exec_trellisArm_accepts h hw hzero htap hreplay hop hst hgood
      exact ⟨v, hexec, (armed_step ..).recorded hrec, armed_took htook ho hrec⟩
    · have hst' : (bnk (takenUp Op.trellisArm m s) (bankOf w)).st ≠ .active := by rwa [htook.bnk]
      obtain ⟨t, hexec, hrefused⟩ := trellisArm_refuses h hw hreplay hop hst' hzero htap hbad
      exact ⟨t, hexec, hrefused.took htook ho⟩
    · obtain ⟨t, v, hexec, hstops, hrec⟩ := exec_trellisStop h hw hzero htap hreplay hop
      exact ⟨v, hexec, hstops.frame.recorded hrec, hstops.took htook ho hrec⟩
    · obtain ⟨t, v, hexec, hhalts, hrec⟩ := exec_trellisHalt h hw hzero htap hreplay hop
      exact ⟨v, hexec, hhalts.recorded hrec, hhalts.took htook hrec⟩

end Sys2Proof.Machine
end

section
/-! Timer triggers and conversions (O47): 09_sampling_pans R272 to R283, 10_channels_digital R302, 11_channels_analog R351,
R362. A trigger concerns the expected samples and one field die, so the triggers of the timer instant are read off group by
group; a served trigger has three outcomes. Time moves on to the stamp first (log entry 3). -/

namespace Sys2Proof.Machine

variable {s t u : State} {g k : Grp} {l : Lidx} {n : Chan} {tr : Trig} {stamp i : Nat} {src : BitVec 3}

/-! ### Field dies and slices -/

theorem fdie_modField_same (g : Grp) (f : Field → Field) (s : State) : fdie (modField g f s) g = f (fdie s g) := by
  rw [fdie, modField_fields, vmod_get, if_pos rfl]
  rfl

theorem fdie_modField_other (h : k ≠ g) (f : Field → Field) (s : State) : fdie (modField g f s) k = fdie s k := by
  rw [fdie, modField_fields, vmod_get, if_neg h.symm]
  rfl

theorem fdie_modSlice (n : Chan) (f : Slice → Slice) (s : State) : fdie (modSlice n f s) (chanGrp n) =
    { fdie s (chanGrp n) with slices := vmod (fdie s (chanGrp n)).slices (chanLidx n) f } := fdie_modField_same ..

theorem slc_modSlice (n : Chan) (f : Slice → Slice) (s : State) : slc (modSlice n f s) n = f (slc s n) := by
  rw [slc, fdie_modSlice, vmod_get, if_pos rfl]
  rfl

theorem fdie_addReport (g : Grp) (r : Report) (s : State) : fdie (addReport g r s) g =
    { fdie s g with reports := (fdie s g).reports ++ [r] } := fdie_modField_same ..

theorem slc_addReport (n : Chan) (r : Report) (s : State) : slc (addReport (chanGrp n) r s) n = slc s n := by
  rw [slc, fdie_addReport, slc]

/-! ### Triggers (R279, R281) -/

/-- One channel is asked for at a stamp; equal stamps make one conversion (R281). -/
def askConv (stamp : Nat) (src : BitVec 3) (ts : List Trig) (l : Lidx) : List Trig :=
  if ts.any (fun y => y.l = l ∧ y.stamp = stamp) then
    ts.map (fun y => if y.l = l ∧ y.stamp = stamp then { y with src := y.src ||| src } else y)
  else ts ++ [{ l := l, stamp := stamp, src := src }]

/-- A conversion of a channel at a stamp serves a source. -/
def Asked (l : Lidx) (stamp i : Nat) (ts : List Trig) : Prop :=
  ∃ y ∈ ts, y.l = l ∧ y.stamp = stamp ∧ bit y.src i = true

theorem fdie_addTrigs (g : Grp) (ls : List Lidx) (stamp : Nat) (src : BitVec 3) (s : State) :
    fdie (addTrigs g ls stamp src s) g = { fdie s g with trigs := ls.foldl (askConv stamp src) (fdie s g).trigs } :=
  fdie_modField_same ..

theorem bit_or {w : Nat} (a b : BitVec w) (i : Nat) : bit (a ||| b) i = (bit a i || bit b i) := BitVec.getLsbD_or

theorem askConv_asked (h : bit src i = true) (ts : List Trig) : Asked l stamp i (askConv stamp src ts l) := by
  unfold askConv
  split
  next hany =>
    obtain ⟨y, hy, heq⟩ := List.any_eq_true.1 hany
    have heq := of_decide_eq_true heq
    exact ⟨_, List.mem_map.2 ⟨y, hy, if_pos heq⟩, heq.1, heq.2, by simp [bit_or, h]⟩
  next => exact ⟨_, List.mem_append_right _ (List.mem_singleton.2 rfl), rfl, rfl, h⟩

/-- Further channels that are asked for take nothing away. -/
theorem Asked.askConv {ts : List Trig} (h : Asked l stamp i ts) (stamp' : Nat) (src : BitVec 3) (l' : Lidx) :
    Asked l stamp i (askConv stamp' src ts l') := by
  obtain ⟨y, hy, hl, hs, hb⟩ := h
  unfold Machine.askConv
  split
  · refine ⟨_, List.mem_map.2 ⟨y, hy, rfl⟩, ?_⟩
    split
    · exact ⟨hl, hs, by simp [bit_or, hb]⟩
    · exact ⟨hl, hs, hb⟩
  · exact ⟨y, List.mem_append_left _ hy, hl, hs, hb⟩

theorem foldl_askConv_asked (hsrc : bit src i = true) {ls : List Lidx} (hl : l ∈ ls) (ts : List Trig) :
    Asked l stamp i (ls.foldl (askConv stamp src) ts) := by
  have hkeep : ∀ (ls : List Lidx) (ts : List Trig), Asked l stamp i ts →
      Asked l stamp i (ls.foldl (askConv stamp src) ts) := fun ls ts h =>
    List.foldlRecOn (motive := Asked l stamp i) ls _ h fun _ h l' _ => h.askConv stamp src l'
  induction ls generalizing ts with
  | nil => exact absurd hl List.not_mem_nil
  | cons l' ls ih =>
    rcases List.mem_cons.1 hl with rfl | hl
    · exact hkeep ls _ (askConv_asked hsrc ts)
    · exact ih hl _

/-- From `s` to `t` nothing but the expected samples and the field dies has changed. -/
def TrigStep (s t : State) : Prop :=
  t = { s with smp := { s.smp with expect := t.smp.expect }, fields := t.fields }

theorem TrigStep.trans (h : TrigStep s t) (h' : TrigStep t u) : TrigStep s u := by
  rw [TrigStep] at h h'
  rw [h] at h'
  exact h'

/-- Triggers of an instant that time has come to. -/
theorem TrigStep.reached {j : Nat} (h : TrigStep (reach j s) t) :
    t = { s with now := t.now, smp := t.smp, fields := t.fields } ∧ t.now = max s.now j
      ∧ t.smp = { s.smp with expect := t.smp.expect } := by
  rw [TrigStep] at h
  generalize t.smp.expect = e, t.fields = d at h
  subst h
  exact ⟨rfl, rfl, rfl⟩

theorem trigger_step (g : Grp) (ls : List Lidx) (stamp : Nat) (src : BitVec 3) (s : State) :
    TrigStep s (trigger g ls stamp src s) := by
  unfold trigger
  split <;> rfl

theorem fdie_trigger_other (h : k ≠ g) (ls : List Lidx) (stamp : Nat) (src : BitVec 3) (s : State) :
    fdie (trigger g ls stamp src s) k = fdie s k := by
  unfold trigger
  split
  · rfl
  · exact fdie_modField_other h _ s

theorem trigger_asked (hsrc : bit src i = true) {ls : List Lidx} (hl : l ∈ ls) (s : State) :
    Asked l stamp i (fdie (trigger g ls stamp src s) g).trigs := by
  have hne : ¬ls.isEmpty = true := by simpa using List.ne_nil_of_mem hl
  have hdie : fdie (trigger g ls stamp src s) g = fdie (addTrigs g ls stamp src s) g := by
    rw [trigger, if_neg hne]
    rfl
  rw [hdie, fdie_addTrigs]
  exact foldl_askConv_asked hsrc hl _

/-! ### The timer instant (R279) -/

/-- The timer triggers the channels of one group after another. -/
def timerTriggers (gs : List Grp) (idx stamp : Nat) (s : State) : State :=
  foldSt gs (fun g s => trigger g (timeChans s g idx) stamp srcTime s) s

theorem mem_timeChans {idx : Nat} : l ∈ timeChans s g idx ↔
    cfgFld s (.smpCfg (chanOf g l)) 5 8 ≠ 0 ∧ idx % cfgFld s (.smpCfg (chanOf g l)) 5 8 = 0 := by
  have hall : l ∈ lidxs := by revert l; decide
  simp [timeChans, hall]

theorem TrigStep.timeChans (h : TrigStep s t) (g : Grp) (idx : Nat) : timeChans t g idx = timeChans s g idx := by
  rw [h]
  rfl

theorem timerTriggers_step (gs : List Grp) (idx stamp : Nat) (s : State) : TrigStep s (timerTriggers gs idx stamp s) :=
  List.foldlRecOn (motive := TrigStep s) gs _ rfl fun _ h _ _ => h.trans (trigger_step ..)

theorem fdie_timerTriggers_other {gs : List Grp} (h : g ∉ gs) (idx stamp : Nat) (s : State) :
    fdie (timerTriggers gs idx stamp s) g = fdie s g :=
  List.foldlRecOn (motive := fun t => fdie t g = fdie s g) gs _ rfl fun _ ht _ hk =>
    (fdie_trigger_other (ne_of_mem_of_not_mem hk h).symm ..).trans ht

theorem timerTriggers_asked {gs : List Grp} (hg : g ∈ gs) {idx : Nat} (hl : l ∈ timeChans s g idx) (stamp : Nat) :
    Asked l stamp 1 (fdie (timerTriggers gs idx stamp s) g).trigs := by
  induction gs generalizing s with
  | nil => exact absurd hg List.not_mem_nil
  | cons k gs ih =>
    have hrest : timerTriggers (k :: gs) idx stamp s =
      timerTriggers gs idx stamp (trigger k (timeChans s k idx) stamp srcTime s) := rfl
    rw [hrest]
    by_cases hmem : g ∈ gs
    · exact ih hmem (by rwa [(trigger_step ..).timeChans])
    · obtain rfl : g = k := (List.mem_cons.1 hg).resolve_right hmem
      rw [fdie_timerTriggers_other hmem]
      exact trigger_asked (by decide) hl s

theorem exec_sampleTimerInstant (hp : timerTicks s ≠ 0) (hst : trigState s = true) (htb : s.pw.tb0.isSome = true) :
    exec .sampleTimerInstant s = .next (timerTriggers (groups.filter fun g => (lnk s g).st = .up)
      (tbNow s / timerTicks s + 1) ((tbNow s / timerTicks s + 1) * timerTicks s)
      (reach (tickOf s ((tbNow s / timerTicks s + 1) * timerTicks s)) s)) :=
  if_pos ⟨hp, hst, htb⟩

theorem mem_upGroups : (g ∈ groups.filter fun g => (lnk s g).st = .up) ↔ (lnk s g).st = .up := by
  have hall : g ∈ groups := by revert g; decide
  simp [hall]

/-! ### The next trigger of a channel (R272, R280, R281) -/

/-- Time has come to a trigger's stamp, and it waits no more. -/
def trigTaken (n : Chan) (tr : Trig) (s : State) : State :=
  modField (chanGrp n) (fun d => { d with trigs := d.trigs.filter (· != tr) }) (reach (s.now + (tr.stamp - dieTime s)) s)

theorem fdie_trigTaken (n : Chan) (tr : Trig) (s : State) : fdie (trigTaken n tr s) (chanGrp n) =
    { fdie s (chanGrp n) with trigs := (fdie s (chanGrp n)).trigs.filter (· != tr) } := fdie_modField_same ..

theorem trigTaken_now (n : Chan) (tr : Trig) (s : State) :
    (trigTaken n tr s).now = s.now + (tr.stamp - dieTime s) := Nat.max_eq_right (Nat.le_add_right ..)

theorem slc_trigTaken (n : Chan) (tr : Trig) (s : State) : slc (trigTaken n tr s) n = slc s n := by
  rw [slc, fdie_trigTaken, slc]

theorem dieReg_trigTaken (n : Chan) (tr : Trig) (s : State) (r : Reg) :
    dieReg (trigTaken n tr s) (chanGrp n) r = dieReg s (chanGrp n) r := by
  rw [dieReg, fdie_trigTaken, dieReg]

theorem dieMode_trigTaken (n : Chan) (tr : Trig) (s : State) : dieMode (trigTaken n tr s) n = dieMode s n := by
  rw [dieMode, dieCh, dieReg_trigTaken, dieMode, dieCh]

/-- A served trigger converts nothing in a mode without a quantity, is refused by a busy converter, or is converted. -/
theorem serveTrig_cases (n : Chan) (tr : Trig) (x : Int) (pin : Bool) (s : State) :
    (converts (dieMode s n) n = false ∧ serveTrig n tr x pin s = trigTaken n tr s)
    ∨ (converts (dieMode s n) n = true ∧ (∃ k, (slc s n).lastConv = some k ∧ tr.stamp - k < 250)
        ∧ serveTrig n tr x pin s = addReport (chanGrp n) (.busy tr.l tr.stamp) (trigTaken n tr s))
    ∨ (converts (dieMode s n) n = true ∧ (∀ k, (slc s n).lastConv = some k → 250 ≤ tr.stamp - k)
        ∧ serveTrig n tr x pin s = convert n tr x pin (trigTaken n tr s)) := by
  have hserve : serveTrig n tr x pin s = if !converts (dieMode (trigTaken n tr s) n) n then trigTaken n tr s
      else match (slc (trigTaken n tr s) n).lastConv with
        | some k => if tr.stamp - k < 250 then addReport (chanGrp n) (.busy tr.l tr.stamp) (trigTaken n tr s)
          else convert n tr x pin (trigTaken n tr s)
        | none => convert n tr x pin (trigTaken n tr s) := rfl
  rw [hserve, dieMode_trigTaken, slc_trigTaken]
  cases hconv : converts (dieMode s n) n with
  | false => exact .inl ⟨rfl, rfl⟩
  | true =>
    refine .inr ?_
    cases hlast : (slc s n).lastConv with
    | none => exact .inr ⟨rfl, nofun, rfl⟩
    | some k =>
      by_cases hbusy : tr.stamp - k < 250
      · exact .inl ⟨rfl, ⟨k, rfl, hbusy⟩, if_pos hbusy⟩
      · refine .inr ⟨rfl, fun j hj => ?_, if_neg hbusy⟩
        cases hj
        exact Nat.not_lt.1 hbusy

/-! ### Conversions (R273 to R277, R283, R351, R362) -/

/-- The sample of a conversion. -/
def convSample (n : Chan) (tr : Trig) (x : Int) (pin : Bool) (s : State) : Sample :=
  let m := dieMode s n
  let cfg := smpCfgOf s n
  let v := if hasTrim m then trimIn (slc s n).trims[trimSet m (fld cfg 0 2)] x else x * 2 ^ 24
  let c := codeOf (resBits cfg) (decide (m = mAiDiff)) v
  { l := tr.l, word := sampleWord cfg c.1
    flags := flagNibble (c.2 || (decide (m = mAiDiff) && pin)) (openFlag m (slc s n)) false false
    unlocked := !(fdie s (chanGrp n)).lock, src := tr.src, stamp := tr.stamp }

theorem convSample_trigTaken (n : Chan) (tr : Trig) (x : Int) (pin : Bool) (s : State) :
    convSample n tr x pin (trigTaken n tr s) = convSample n tr x pin s := by
  simp only [convSample, smpCfgOf, dieMode_trigTaken, dieReg_trigTaken, slc_trigTaken, fdie_trigTaken]

/-- The sample waits for its frame, and the converter keeps the stamp. -/
def converted (n : Chan) (tr : Trig) (x : Int) (pin : Bool) (s : State) : State :=
  modSlice n (fun y => { y with lastConv := some tr.stamp })
    (modField (chanGrp n) (fun d => { d with samples := d.samples ++ [convSample n tr x pin s] }) s)

/-- Besides, a current input that crosses into another band notes it (R353). -/
def bandNoted (n : Chan) (b : BitVec 3) (s : State) : State := anaEvt n 3 (modSlice n (fun y => { y with band := b }) s)

theorem convert_eq (n : Chan) (tr : Trig) (x : Int) (pin : Bool) (s : State) : ∃ b, convert n tr x pin s =
    if dieMode s n = mAiI ∧ b ≠ (slc s n).band then bandNoted n b (converted n tr x pin s) else converted n tr x pin s :=
  ⟨_, rfl⟩

theorem fdie_converted (n : Chan) (tr : Trig) (x : Int) (pin : Bool) (s : State) :
    (fdie (converted n tr x pin s) (chanGrp n)).trigs = (fdie s (chanGrp n)).trigs
      ∧ (fdie (converted n tr x pin s) (chanGrp n)).samples = (fdie s (chanGrp n)).samples ++ [convSample n tr x pin s] := by
  rw [converted, fdie_modSlice, fdie_modField_same]
  exact ⟨rfl, rfl⟩

theorem slc_converted (n : Chan) (tr : Trig) (x : Int) (pin : Bool) (s : State) :
    (slc (converted n tr x pin s) n).lastConv = some tr.stamp := by
  rw [converted, slc_modSlice]

theorem fdie_bandNoted (n : Chan) (b : BitVec 3) (s : State) :
    (fdie (bandNoted n b s) (chanGrp n)).trigs = (fdie s (chanGrp n)).trigs
      ∧ (fdie (bandNoted n b s) (chanGrp n)).samples = (fdie s (chanGrp n)).samples := by
  rw [bandNoted, anaEvt, fdie_addReport, fdie_modSlice]
  exact ⟨rfl, rfl⟩

theorem slc_bandNoted (n : Chan) (b : BitVec 3) (s : State) : (slc (bandNoted n b s) n).lastConv = (slc s n).lastConv := by
  rw [bandNoted, anaEvt, slc_addReport, slc_modSlice]

/-- From `s` to `t` nothing but the field dies has changed. -/
def DieStep (s t : State) : Prop := t = { s with fields := t.fields }

theorem DieStep.trans (h : DieStep s t) (h' : DieStep t u) : DieStep s u := by
  rw [DieStep] at h h'
  rw [h] at h'
  exact h'

theorem converted_step (n : Chan) (tr : Trig) (x : Int) (pin : Bool) (s : State) : DieStep s (converted n tr x pin s) := rfl

theorem bandNoted_step (n : Chan) (b : BitVec 3) (s : State) : DieStep s (bandNoted n b s) := rfl

/-- What a conversion changes at its field die (R283, R362). -/
theorem convert_die (n : Chan) (tr : Trig) (x : Int) (pin : Bool) (s : State) :
    let t := convert n tr x pin s
    DieStep s t ∧ (fdie t (chanGrp n)).trigs = (fdie s (chanGrp n)).trigs
      ∧ (fdie t (chanGrp n)).samples = (fdie s (chanGrp n)).samples ++ [convSample n tr x pin s]
      ∧ (slc t n).lastConv = some tr.stamp := by
  intro t
  obtain ⟨htrigs, hsamples⟩ := fdie_converted n tr x pin s
  obtain ⟨b, hconvert⟩ := convert_eq n tr x pin s
  by_cases hband : dieMode s n = mAiI ∧ b ≠ (slc s n).band
  · rw [if_pos hband] at hconvert
    obtain ⟨htrigs', hsamples'⟩ := fdie_bandNoted n b (converted n tr x pin s)
    simp only [t, hconvert]
    exact ⟨(converted_step ..).trans (bandNoted_step ..), htrigs'.trans htrigs, hsamples'.trans hsamples,
      (slc_bandNoted ..).trans (slc_converted ..)⟩
  · rw [if_neg hband] at hconvert
    simp only [t, hconvert]
    exact ⟨converted_step .., htrigs, hsamples, slc_converted ..⟩

theorem exec_conversion (hpow : (fdie s (chanGrp n)).powered = true)
    (hfirst : firstTrig ((fdie s (chanGrp n)).trigs.filter fun y => decide (y.l = chanLidx n)) = some tr) (x : Int) (pin : Bool) :
    exec (.conversion n x pin) s = .next (serveTrig n tr x pin s) := by
  show execConversion n x pin s = _
  simp [execConversion, hfirst, onSlice, onDie, hpow]

/-- Settles O47: the triggers of the timer instant by `timerTriggers_asked`, and a served trigger by the three outcomes of
`serveTrig_cases`. -/
theorem conversionsAreMade : Obligations.ConversionsAreMade := by
  intro g l n x pin tr s
  refine ⟨fun hp hst htb => ?_, fun hpow hfirst => ?_⟩
  · intro idx
    obtain ⟨hframe, hnow, hexpect⟩ := (timerTriggers_step (groups.filter fun g => (lnk s g).st = .up) idx
      (idx * timerTicks s) (reach (tickOf s (idx * timerTicks s)) s)).reached
    refine ⟨_, exec_sampleTimerInstant hp hst htb, hframe, hnow, hexpect, fun hup hdiv hmult => ?_, fun hdown => ?_⟩
    · have hasked : l ∈ timeChans (reach (tickOf s (idx * timerTicks s)) s) g idx := mem_timeChans.2 ⟨hdiv, hmult⟩
      exact timerTriggers_asked (mem_upGroups.2 hup) hasked _
    · have hother : g ∉ groups.filter fun g => (lnk s g).st = .up := fun hmem => hdown (mem_upGroups.1 hmem)
      exact fdie_timerTriggers_other hother ..
  · intro m cfg v c
    have hdie := fdie_trigTaken n tr s
    have hnow := trigTaken_now n tr s
    refine ⟨_, exec_conversion hpow hfirst x pin, ?_⟩
    rcases serveTrig_cases n tr x pin s with ⟨hconv, hserve⟩ | ⟨hconv, ⟨k, hlast, hbusy⟩, hserve⟩ | ⟨hconv, hfree, hserve⟩
    · rw [hserve, hdie]
      exact ⟨rfl, hnow, rfl, fun _ => rfl, fun h => absurd (h.symm.trans hconv) (by decide),
        fun h => absurd (h.symm.trans hconv) (by decide)⟩
    · rw [hserve, fdie_addReport, hdie]
      refine ⟨rfl, hnow, rfl, fun _ => rfl, fun _ _ _ _ => ⟨rfl, rfl⟩, fun _ hfree => ?_⟩
      exact absurd hbusy (Nat.not_lt.2 (hfree k hlast))
    · obtain ⟨hframe, htrigs, hsamples, hstamp⟩ := convert_die n tr x pin (trigTaken n tr s)
      rw [convSample_trigTaken] at hsamples
      rw [hserve, htrigs, hsamples, hdie]
      refine ⟨?_, ?_, rfl, fun h => absurd (h.symm.trans hconv) (by decide), fun _ k hlast hbusy => ?_,
        fun _ _ => ⟨rfl, hstamp⟩⟩
      · rw [hframe]
        rfl
      · rw [hframe]
        exact hnow
      · exact absurd hbusy (Nat.not_lt.2 (hfree k hlast))

end Sys2Proof.Machine
end

section
/-! Pans that open and close (O48): 09_sampling_pans R290 to R296, R303. Time moves on to the stamp of an event before it
acts (log entry 3). The records are stored words of the group's pan memory, which holds the half-word code. -/

namespace Sys2Proof.Machine

variable {s t u : State} {g h : Grp} {p q k : Fin 16} {v : PanEv}

/-! ### Pans -/

theorem pan_of_smp (h : t.smp = s.smp) (g : Grp) (q : Fin 16) : pan t g q = pan s g q := by
  rw [pan, pan, h]

theorem pan_modPan_same (g : Grp) (q : Fin 16) (f : Pan → Pan) (s : State) : pan (modPan g q f s) g q = f (pan s g q) := by
  rw [pan, modPan_smp, vmod_get, if_pos rfl]
  rfl

theorem pan_modPan_other (hne : h ≠ g ∨ k ≠ q) (f : Pan → Pan) (s : State) : pan (modPan g q f s) h k = pan s h k := by
  have hindex : (⟨16 * g.val + q.val, by omega⟩ : Fin 96) ≠ ⟨16 * h.val + k.val, by omega⟩ := by
    rw [Ne, Fin.mk.injEq]
    rw [Ne, Ne, Fin.ext_iff, Fin.ext_iff] at hne
    omega
  rw [pan, modPan_smp, vmod_get, if_neg hindex]
  rfl

/-- Changes that agree on a pan as it stands have the same effect. -/
theorem modPan_congr {f f' : Pan → Pan} (h : f (pan s g q) = f' (pan s g q)) : modPan g q f s = modPan g q f' s := by
  unfold modPan vmod
  rw [show f s.smp.pans[_] = f' s.smp.pans[_] from h]

theorem modPan_eq_self {f : Pan → Pan} (h : f (pan s g q) = pan s g q) : modPan g q f s = s := by
  unfold modPan vmod
  rw [show f s.smp.pans[_] = s.smp.pans[_] from h]
  simp

/-! ### Events of a pan -/

theorem firstPanEv_pan (h : firstPanEv s g q = some v) : v.g = g ∧ v.pan = q := by
  have hmem : ∀ w, firstPanEv s g q = some w → w ∈ s.smp.evs.filter fun v => v.g = g && v.pan = q := by
    refine List.foldlRecOn (motive := fun a => ∀ w, a = some w → w ∈ s.smp.evs.filter fun v => v.g = g && v.pan = q) _ _
      (fun w hw => absurd hw.symm (Option.some_ne_none w)) fun a ha v hv w hw => ?_
    cases a with
    | none => exact Option.some.inj hw ▸ hv
    | some b =>
      by_cases hless : v.stamp < b.stamp
      · exact Option.some.inj ((if_pos hless).symm.trans hw) ▸ hv
      · exact ha w ((if_neg hless).symm.trans hw)
  simpa using (List.mem_filter.1 (hmem v h)).2

/-- Time has come to an event's stamp, and it waits no more. -/
def evTaken (v : PanEv) (s : State) : State := dropEv v (reach (tickOf s v.stamp) s)

theorem evTaken_pan (v : PanEv) (s : State) (g : Grp) (q : Fin 16) : pan (evTaken v s) g q = pan s g q := rfl

theorem exec_panOpen (hfirst : firstPanEv s g q = some v) (hopens : v.opens = true) :
    exec (.panOpen g q) s = .next (panOpenAct g v (evTaken v s)) := by
  show execPanOpen g q s = _
  simp only [execPanOpen, hfirst, hopens, if_true]
  rfl

theorem exec_panClose (hfirst : firstPanEv s g q = some v) (hcloses : v.opens = false) :
    exec (.panClose g q) s = .next (panCloseAct g v (evTaken v s)) := by
  show execPanClose g q s = _
  simp only [execPanClose, hfirst, hcloses, Bool.false_eq_true, if_false]
  rfl

/-! ### Opens (R291, R293) -/

section
variable (halt : panAlt s g v.pan = false)
include halt

theorem openMember_single : openMember s g v.pan = v.pan := if_neg (by simp [halt])

/-- An open of a pan that is disabled, or OPEN with no close in sight, is skipped (R293). -/
theorem panOpenAct_skips (hskip : bit (panCfgOf s g v.pan) 11 = false
    ∨ (pan s g v.pan).st = .opened ∧ (pan s g v.pan).tClose = none) : panOpenAct g v s = countSkip g s := by
  unfold panOpenAct
  rw [openMember_single halt]
  rcases hskip with hdisabled | ⟨hopened, hclose⟩
  · simp [hdisabled]
  · simp [hopened, hclose]

theorem panOpenAct_idle (henabled : bit (panCfgOf s g v.pan) 11 = true) (hidle : (pan s g v.pan).st = .idle) :
    panOpenAct g v s = panStart g v.pan v s := by
  unfold panOpenAct
  rw [openMember_single halt]
  simp [henabled, hidle]

end

/-- A pan of a pair without ALT whose window opens. -/
def openedPan (cfg : Word) (v : PanEv) (replay : Bool) : Pan :=
  { Pan.reset with
    st := .opened, latest := false, tOpen := v.stamp, mask := cfg.extractLsb' 0 8, src := cfg.extractLsb' 8 3
    decim := v.decim, origin := v.origin, replay := replay, timeBank := decide (v.origin = 1)
    byTrellis := decide (v.origin ≠ 2) }

theorem panM_coded (hcan : s.canonical = true) (hunarmed : s.mi.fArmed = false) (g : Grp) : Coded (panM g) s := by
  have hbanks : panM g ≠ 0 ∧ panM g ≠ 1 := by revert g; decide
  exact ⟨(canonical_iff.1 hcan).1, hunarmed, by simp [lineBank, hbanks]⟩

/-- Words that are stored leave the configuration of a pan alone. -/
theorem Stored.panAlt {i : Nat} {ws : List Word} (h : Stored k i ws s t) (g : Grp) (p : Fin 16) : panAlt t g p = panAlt s g p := by
  rw [h.frame]
  rfl

theorem panStart_single (halt : panAlt s g p = false) (hcode : Coded (panM g) s) (v : PanEv) :
    panStart g p v s = modPan g p (fun _ => openedPan (panCfgOf s g p) v (replaying s))
      (memPuts (panM g) (panBase s g p) (openRecord s g p v ++ List.replicate 8 0) s) := by
  have hstored := memPuts_stored hcode (panBase s g p) (ws := openRecord s g p v ++ List.replicate 8 0)
  have halt' := (hstored.panAlt g p).trans halt
  have hreplay : replaying (memPuts (panM g) (panBase s g p) (openRecord s g p v ++ List.replicate 8 0) s) = replaying s := by
    rw [hstored.frame]
    rfl
  simp only [panStart, halt', Bool.false_eq_true, if_false, hreplay]
  rfl

theorem Stored.getD {i n : Nat} {ws : List Word} (h : Stored k i ws s t) (hn : n < ws.length) :
    memCell t k (i + n) = encWord (ws.getD n 0) := by
  rw [h.inside n hn, List.getD_eq_getElem?_getD, List.getElem?_eq_getElem hn, Option.getD_some]

theorem openRecord_length (s : State) (g : Grp) (p : Fin 16) (v : PanEv) : (openRecord s g p v).length = 8 := rfl

/-- What the opening of a window changes (R290, R291, R293). -/
structure Opens (g : Grp) (p : Fin 16) (v : PanEv) (s t : State) : Prop where
  frame : t = { s with smp := t.smp, mems := t.mems, mi := t.mi }
  self : pan t g p = openedPan (panCfgOf s g p) v (replaying s)
  pans : ∀ h k, (h ≠ g ∨ k ≠ p) → pan t h k = pan s h k
  record : ∀ n, n < 8 → memCell t (panM g) (panBase s g p + n) = encWord ((openRecord s g p v).getD n 0)
  cleared : ∀ n, 8 ≤ n → n < 16 → memCell t (panM g) (panBase s g p + n) = encWord 0
  outside : ∀ a, a < panBase s g p ∨ panBase s g p + 16 ≤ a → memCell t (panM g) a = memCell s (panM g) a
  mems : ∀ k : Fin 16, k ≠ panM g → t.mems[k] = s.mems[k]

theorem panStart_opens (halt : panAlt s g p = false) (hcode : Coded (panM g) s) (v : PanEv) :
    Opens g p v s (panStart g p v s) := by
  have hstored := memPuts_stored hcode (panBase s g p) (ws := openRecord s g p v ++ List.replicate 8 0)
  have hlen : (openRecord s g p v ++ List.replicate 8 0).length = 16 := rfl
  rw [panStart_single halt hcode]
  generalize memPuts (panM g) (panBase s g p) (openRecord s g p v ++ List.replicate 8 0) s = t at hstored
  have hsmp : t.smp = s.smp := by rw [hstored.frame]
  refine ⟨?_, pan_modPan_same .., fun h k hne => (pan_modPan_other hne ..).trans (pan_of_smp hsmp h k), fun n hn => ?_,
    fun n hn hn' => ?_, fun a ha => hstored.outside a ha, fun k hk => hstored.others k hk⟩
  · rw [hstored.frame]
    rfl
  · have hrecord : (openRecord s g p v ++ List.replicate 8 0).getD n 0 = (openRecord s g p v).getD n 0 := by
      rw [List.getD_eq_getElem?_getD, List.getElem?_append_left (by rwa [openRecord_length]), List.getD_eq_getElem?_getD]
    rw [← hrecord]
    exact hstored.getD (by omega)
  · refine (hstored.inside n (by omega)).trans ?_
    rw [List.getElem_append_right (by rwa [openRecord_length]), List.getElem_replicate]

/-! ### Closes (R295) -/

theorem panCloseAct_single (halt : panAlt s g v.pan = false) (hclose : (pan s g v.pan).tClose = none) :
    panCloseAct g v s = modPan g v.pan (fun k =>
      if k.st = .opened then { k with tClose := some (v.stamp, if v.origin = 2 then 2 else 1) } else k) s := by
  unfold panCloseAct
  simp only [halt, Bool.false_eq_true, if_false]
  by_cases hopened : (pan s g v.pan).st = .opened
  · rw [List.filter_cons_of_pos (by simpa using hopened)]
    refine modPan_congr ?_
    simp [hopened, hclose]
  · rw [List.filter_cons_of_neg (by simpa using hopened)]
    exact (modPan_eq_self (if_neg hopened)).symm

/-! ### The end of a window (R292, R296) -/

theorem closeRecord_length (s : State) (g : Grp) (p : Fin 16) (j : Nat) (r : BitVec 3) : (closeRecord s g p j r).length = 8 :=
  rfl

theorem exec_panClosed {j : Nat} {r : BitVec 3} (hopened : (pan s g q).st = .opened)
    (hclose : (pan s g q).tClose = some (j, r)) (hknown : ∀ e ∈ s.smp.expect, ¬(e.1 = g ∧ e.2.1 < j)) :
    exec (.panClosed g q) s = .next (panFinish g q (reach (tickOf s j) s)) := by
  have hnone : (s.smp.expect.any fun e => e.1 = g && decide (e.2.1 < j)) = false := by simpa using hknown
  show execPanClosed g q s = _
  simp only [execPanClosed, hopened, hclose, hnone, Bool.false_eq_true, if_false]

/-- The close record stands, and the pan is CLOSED. -/
def panRecorded (g : Grp) (p : Fin 16) (j : Nat) (r : BitVec 3) (s : State) : State :=
  modPan g p (fun k => { k with st := .closed, tClose := none })
    (memPuts (panM g) (panBase s g p + 8) (closeRecord s g p j r) s)

/-- With no run cut and no block begun, the close record is all that is written. -/
theorem panFinish_recorded {j : Nat} {r : BitVec 3} (hclose : (pan s g p).tClose = some (j, r))
    (hdecim : bit (pan s g p).decim 16 = false) (hpart : (pan s g p).part = []) (hreplay : replaying s = false)
    (hcode : Coded (panM g) s) : panFinish g p s =
      if bit (panCfgOf s g p) 15 then raiseNat (66 + g.val) (panRecorded g p j r s) else panRecorded g p j r s := by
  have hstored := memPuts_stored hcode (panBase s g p + 8) (ws := closeRecord s g p j r)
  have hcfg : panCfgOf (panRecorded g p j r s) g p = panCfgOf s g p := by
    rw [panRecorded, hstored.frame]
    rfl
  have hreplay' : replaying (panRecorded g p j r s) = false := by
    rw [panRecorded, hstored.frame]
    exact hreplay
  unfold panRecorded at hcfg hreplay' ⊢
  simp [panFinish, hclose, hdecim, hpart, hcfg, hreplay']

/-- What the end of a window changes (R292, R296). -/
structure Closes (g : Grp) (p : Fin 16) (j : Nat) (r : BitVec 3) (s t : State) : Prop where
  now : t.now = s.now
  pw : t.pw = s.pw
  self : pan t g p = { pan s g p with st := .closed, tClose := none }
  pans : ∀ h k, (h ≠ g ∨ k ≠ p) → pan t h k = pan s h k
  record : ∀ n, n < 8 → memCell t (panM g) (panBase s g p + 8 + n) = encWord ((closeRecord s g p j r).getD n 0)

theorem panRecorded_closes (hcode : Coded (panM g) s) (p : Fin 16) (j : Nat) (r : BitVec 3) :
    Closes g p j r s (panRecorded g p j r s) := by
  have hstored := memPuts_stored hcode (panBase s g p + 8) (ws := closeRecord s g p j r)
  unfold panRecorded
  generalize memPuts (panM g) (panBase s g p + 8) (closeRecord s g p j r) s = t at hstored
  have hpan := pan_of_smp (s := s) (t := t) (by rw [hstored.frame])
  refine ⟨?_, ?_, ?_, fun h k hne => (pan_modPan_other hne ..).trans (hpan h k),
    fun n hn => hstored.getD (by rwa [closeRecord_length])⟩
  · rw [modPan_now, hstored.frame]
  · rw [modPan_pw, hstored.frame]
  · rw [pan_modPan_same, hpan]

theorem memCell_of_mems (h : t.mems = s.mems) (k : Fin 16) (a : Nat) : memCell t k a = memCell s k a := by
  rw [memCell, memCell, h]

/-- The interrupt of a pan changes the controller alone. -/
theorem Closes.raiseNat {j : Nat} {r : BitVec 3} (h : Closes g p j r s t) (n : Nat) : Closes g p j r s (raiseNat n t) :=
  ⟨(raiseNat_now n t).trans h.now, (raiseNat_pw n t).trans h.pw, (pan_of_smp (raiseNat_smp n t) ..).trans h.self,
    fun l k hne => (pan_of_smp (raiseNat_smp n t) ..).trans (h.pans l k hne),
    fun i hi => (memCell_of_mems (raiseNat_mems n t) ..).trans (h.record i hi)⟩

theorem isLive_of_pw (h : t.pw = s.pw) : isLive t = isLive s := by rw [isLive, isLive, h]

theorem panFinish_closes {j : Nat} {r : BitVec 3} (hclose : (pan s g p).tClose = some (j, r))
    (hdecim : bit (pan s g p).decim 16 = false) (hpart : (pan s g p).part = []) (hreplay : replaying s = false)
    (hcode : Coded (panM g) s) : Closes g p j r s (panFinish g p s)
      ∧ (bit (panCfgOf s g p) 15 = true → isLive s = true → shows (panFinish g p s) ⟨66 + g.val, by omega⟩ = true) := by
  have hrecorded := panRecorded_closes hcode p j r
  have hraise : raiseNat (66 + g.val) = raise ⟨66 + g.val, by omega⟩ := funext fun t => dif_pos _
  rw [panFinish_recorded hclose hdecim hpart hreplay hcode]
  cases bit (panCfgOf s g p) 15 with
  | false => exact ⟨hrecorded, nofun⟩
  | true =>
    refine ⟨hrecorded.raiseNat _, fun _ hlive => ?_⟩
    rw [if_pos rfl, hraise]
    exact raise_shows _ _ ((isLive_of_pw hrecorded.pw).trans hlive)

/-- Settles O48: an open by `panOpenAct_skips` and `panStart_opens`, a close by `panCloseAct_single`, and the end of a window
by `panFinish_closes`. -/
theorem pansOpenAndClose : Obligations.PansOpenAndClose := by
  intro g q v s halt hlive u
  have hreplay : replaying s = false := by simpa [replaying] using hlive
  refine ⟨fun hfirst hopens => ?_, fun hfirst hcloses _ hclose => ?_,
    fun j r hopened hclose hknown hdecim hpart hunarmed hcan => ?_⟩
  · have hexec := exec_panOpen hfirst hopens
    obtain ⟨-, rfl⟩ := firstPanEv_pan hfirst
    refine ⟨fun hskip => hexec.trans (congrArg _ (panOpenAct_skips (s := evTaken v s) halt hskip)),
      fun henabled hidle hunarmed hcan _ _ => ?_⟩
    obtain ⟨hframe, hself, hpans, hrecord, hcleared, houtside, hmems⟩ :=
      panStart_opens (s := evTaken v s) halt (panM_coded (s := evTaken v s) hcan hunarmed g) v
    refine ⟨_, hexec.trans (congrArg _ (panOpenAct_idle (s := evTaken v s) halt henabled hidle)), hframe, ?_⟩
    rw [hself]
    exact ⟨rfl, rfl, rfl, rfl, rfl, rfl, rfl, rfl, hrecord, hcleared, houtside, hmems, hpans⟩
  · obtain ⟨-, rfl⟩ := firstPanEv_pan hfirst
    exact (exec_panClose hfirst hcloses).trans (congrArg _ (panCloseAct_single (s := evTaken v s) halt hclose))
  · have hcode := panM_coded (s := reach (tickOf s j) s) hcan hunarmed g
    obtain ⟨⟨hnow, -, hself, hpans, hrecord⟩, hshows⟩ :=
      panFinish_closes (s := reach (tickOf s j) s) hclose hdecim hpart hreplay hcode
    refine ⟨_, exec_panClosed hopened hclose hknown, hnow, ?_⟩
    rw [hself]
    exact ⟨rfl, rfl, rfl, rfl, hrecord, hshows, hpans⟩

end Sys2Proof.Machine
end

section
/-! A write of MODE (O6): 10_channels_digital R307, R308, 11_channels_analog R350. A repeated MODE is no change and touches its own
channel alone, so a pair of which the even channel alone holds MODE 8 stays as it is. The statement, whose hypotheses allow such a
pair, gives the odd channel MODE 8. -/

namespace Sys2Proof.Machine

variable {s t : State} {p : Port} {n k : Chan} {v : Word}

/-! ### The registers of a write -/

/-- No two registers share an address (R175). -/
theorem Reg.addr_ne {r q : Reg} (h : r ≠ q) : r.addr ≠ q.addr := fun e =>
  h (Option.some.inj ((Reg.ofAddr_eq r rfl).symm.trans (Reg.ofAddr_eq q e)))

theorem putReg_cfg (r : Reg) (w : Word) (s : State) : (putReg r w s).cfg = (cfgSet r w s).cfg :=
  foldSt_keeps State.cfg _ _ (fun g u => by simp only [sendConf]; split <;> rfl) _

theorem chMode_putReg_other (h : k ≠ n) (w : Word) : chMode (putReg (.ch n .cfg) w s) k = chMode s k := by
  have hne : (Reg.ch k .cfg).addr ≠ (Reg.ch n .cfg).addr := Reg.addr_ne (by simpa using h)
  rw [chMode, cfgFld, cfgGet_of_cfg (putReg_cfg ..), cfgGet_cfgSet_other hne, chMode, cfgFld]

/-! ### MODE_CHANGE of an even channel -/

theorem maskW_mode (v : Word) (n : Chan) : fld (maskW (.ch n .cfg) v) 0 4 = fld v 0 4 := by
  have hmask : (BitVec.ofNat 20 (Reg.ch n .cfg).wmask).toNat = 2 ^ 4 - 1 := rfl
  rw [fld, maskW, BitVec.toNat_and, hmask, Nat.and_two_pow_sub_one_eq_mod, fld]
  simp

theorem regStateOk_mode (hplay : s.cask.st ≠ .replaying) : regStateOk s (.ch n .cfg) v = modeStateOk s n (fld v 0 4) := by
  have hlive : (s.cask.st == .replaying) = false := by simpa using hplay
  rw [regStateOk, hlive]
  rfl

theorem regRange_mode_even (heven : n.val % 2 = 0) : regRange t (.ch n .cfg) v = decide (fld v 0 4 ≤ 8) := by
  show (decide (fld v 0 4 ≤ 8) && !(fld v 0 4 == mAiDiff && n.val % 2 == 1 && !inDiff t n)) = _
  simp [heven]

/-- A write of MODE to an even channel, in a state that admits it, takes effect (R166, R307). -/
theorem exec_modeChange_even (h : RowReady Op.regWrite p s) (heven : n.val % 2 = 0) (howned : isOwned s = false)
    (hplay : s.cask.st ≠ .replaying) (hmode : fld v 0 4 ≤ 8) (hstate : modeStateOk s n (fld v 0 4) = true) :
    exec (.modeChange p n v) s = .next (modeWrite n (maskW (.ch n .cfg) v) s) := by
  have haddr : (Reg.ch n .cfg).addr = 0x6000 + 64 * n.val := rfl
  have hlow : (Reg.ch n .cfg).addr < 0x8600 := by rw [haddr]; omega
  have hok : regStateOk s (.ch n .cfg) (maskW (.ch n .cfg) v) = true := by rw [regStateOk_mode hplay, maskW_mode, hstate]
  have hrange : ∀ t, regRange t (.ch n .cfg) (maskW (.ch n .cfg) v) = true := fun t => by
    rw [regRange_mode_even heven, maskW_mode]
    exact decide_eq_true hmode
  have hseal : sealHolds s (.ch n .cfg) = false := by rw [sealHolds, howned]; rfl
  exact regRow_next h (.ch n .cfg) v (Reg.ofAddr_eq _ rfl) (Nat.lt_trans hlow (by decide)) nofun
    (if_neg fun hin => absurd hin.1 (Nat.not_le.2 hlow)) hok (hrange _) hseal rfl rfl

/-- A repeated MODE is written to its channel alone (R308). -/
theorem modeWrite_repeated (h : fld v 0 4 = chMode s n) :
    modeWrite n v s = putReg (.ch n .cfg) (BitVec.ofNat 20 (fld v 0 4)) s := if_pos h

/-! ### A pair of which the even channel alone holds MODE 8 -/

/-- CONFIG after a power-on, with MODE 8 in channel 0 and MODE 0 in channel 1. -/
def halfPair : State := cfgSet (.ch 0 .cfg) 8 (modPw (fun w => { w with dev := .config }) State.reset)

theorem halfPair_ready : RowReady Op.regWrite .a halfPair := ⟨rfl, rfl, by decide, rfl, rfl, rfl, rfl, by decide⟩

theorem halfPair_modes : chMode halfPair 0 = mAiDiff ∧ chMode halfPair 1 = mOff := by decide

theorem halfPair_admits : modeStateOk halfPair 0 (fld (8 : Word) 0 4) = true := by decide

/-- Refutes O6: in `halfPair` MODE 8 is written to channel 0 once more. Channel 1 stays OFF by `modeWrite_repeated`, where
the statement gives it MODE 8. -/
theorem not_channelConfiguration : ¬ Obligations.ChannelConfiguration := by
  unfold Obligations.ChannelConfiguration
  intro h
  obtain ⟨t, hexec, -, hmodes, -⟩ := h.1 .a 0 8 halfPair halfPair_ready rfl (by decide) (by decide) (by decide) (by decide)
    (fun _ => .inl rfl) halfPair_admits
  rw [exec_modeChange_even halfPair_ready rfl rfl (by decide) (by decide) halfPair_admits] at hexec
  obtain rfl := Host.Outcome.next.inj hexec
  have hodd := hmodes 1
  rw [modeWrite_repeated (by decide), chMode_putReg_other (by decide), halfPair_modes.2] at hodd
  exact absurd hodd (by decide)

end Sys2Proof.Machine
end

section
/-! Slices of a field die (10_channels_digital): what the operations on one slice leave alone, and what they change. Every event of a
digital channel is made of them. -/

namespace Sys2Proof.Machine

variable {s t : State} {g : Grp} {n k : Chan} {f : Slice → Slice} {β : Type}

/-! ### One slice and the others -/

theorem chan_eq_of_parts (hg : chanGrp k = chanGrp n) (hl : chanLidx k = chanLidx n) : k = n := by
  have hg' : k.val / 8 = n.val / 8 := congrArg Fin.val hg
  have hl' : k.val % 8 = n.val % 8 := congrArg Fin.val hl
  exact Fin.ext (by omega)

theorem chanOf_parts (n : Chan) : chanOf (chanGrp n) (chanLidx n) = n := Fin.ext (Nat.div_add_mod n.val 8)

theorem chanGrp_chanOf (g : Grp) (l : Lidx) : chanGrp (chanOf g l) = g := by
  apply Fin.ext
  simp only [chanGrp, chanOf]
  omega

theorem chanLidx_chanOf (g : Grp) (l : Lidx) : chanLidx (chanOf g l) = l := by
  apply Fin.ext
  simp only [chanLidx, chanOf]
  omega

theorem slc_modSlice_other (h : k ≠ n) (f : Slice → Slice) (s : State) : slc (modSlice n f s) k = slc s k := by
  by_cases hg : chanGrp k = chanGrp n
  · have hl : chanLidx n ≠ chanLidx k := fun e => h (chan_eq_of_parts hg e.symm)
    rw [slc, slc, hg, fdie_modSlice, vmod_get, if_neg hl]
  · rw [slc, slc, modSlice, fdie_modField_other hg]

/-- A part of a slice that a change leaves alone is left alone in every channel. -/
theorem slc_modSlice_keeps (p : Slice → β) (hf : ∀ x, p (f x) = p x) (n k : Chan) (s : State) :
    p (slc (modSlice n f s) k) = p (slc s k) := by
  by_cases h : k = n
  · rw [h, slc_modSlice, hf]
  · rw [slc_modSlice_other h]

/-- Changes that agree on a slice as it stands have the same effect. -/
theorem modSlice_congr {f' : Slice → Slice} (h : f (slc s n) = f' (slc s n)) : modSlice n f s = modSlice n f' s := by
  unfold modSlice modField vmod
  dsimp only
  rw [show f (s.fields[chanGrp n].slices[chanLidx n]) = f' (s.fields[chanGrp n].slices[chanLidx n]) from h]

theorem slc_modField {f : Field → Field} (hf : ∀ d, (f d).slices = d.slices) (g : Grp) (s : State) (k : Chan) :
    slc (modField g f s) k = slc s k := by
  by_cases hg : chanGrp k = g
  · rw [slc, slc, hg, fdie_modField_same, hf]
  · rw [slc, slc, fdie_modField_other hg]

@[simp] theorem slc_digEvt (b : Fin 11) : slc (digEvt n b s) k = slc s k :=
  slc_modField (f := fun d => { d with reports := d.reports ++ [.dig (chanLidx n) b] }) (fun _ => rfl) ..

@[simp] theorem slc_reach (i : Nat) : slc (reach i s) k = slc s k := rfl

/-! ### The rest of a field die -/

/-- A part of a field die beside its slices is left alone by a change of a slice. -/
theorem fdie_modSlice_keeps (p : Field → β) (hp : ∀ d l, p { d with slices := l } = p d) (g : Grp) (s : State) :
    p (fdie (modSlice n f s) g) = p (fdie s g) := by
  by_cases hg : g = chanGrp n
  · rw [hg, fdie_modSlice, hp]
  · rw [modSlice, fdie_modField_other hg]

@[simp] theorem reports_modSlice : (fdie (modSlice n f s) g).reports = (fdie s g).reports :=
  fdie_modSlice_keeps Field.reports (fun _ _ => rfl) ..

@[simp] theorem guard_modSlice : (fdie (modSlice n f s) g).guard = (fdie s g).guard :=
  fdie_modSlice_keeps Field.guard (fun _ _ => rfl) ..

@[simp] theorem reports_digEvt (b : Fin 11) :
    (fdie (digEvt n b s) (chanGrp n)).reports = (fdie s (chanGrp n)).reports ++ [.dig (chanLidx n) b] := by
  rw [digEvt, fdie_addReport]

@[simp] theorem fdie_reach (i : Nat) : fdie (reach i s) g = fdie s g := rfl

/-- The configuration that a field die holds is no part of its slices. -/
theorem dieReg_of_cfg (h : (fdie t g).cfg = (fdie s g).cfg) (r : Reg) : dieReg t g r = dieReg s g r := by
  rw [dieReg, dieReg, h]

@[simp] theorem dieCh_modSlice (r : ChReg) : dieCh (modSlice n f s) k r = dieCh s k r :=
  dieReg_of_cfg (fdie_modSlice_keeps Field.cfg (fun _ _ => rfl) ..) _

theorem cfg_addReport (g k : Grp) (r : Report) (s : State) : (fdie (addReport g r s) k).cfg = (fdie s k).cfg := by
  by_cases h : k = g
  · rw [h, fdie_addReport]
  · rw [addReport, fdie_modField_other h]

@[simp] theorem dieCh_digEvt (b : Fin 11) (r : ChReg) : dieCh (digEvt n b s) k r = dieCh s k r := dieReg_of_cfg (cfg_addReport ..) _

@[simp] theorem dieCh_reach (i : Nat) (r : ChReg) : dieCh (reach i s) k r = dieCh s k r := rfl

@[simp] theorem dieMode_modSlice : dieMode (modSlice n f s) k = dieMode s k := congrArg (fld · 0 4) (dieCh_modSlice _)
@[simp] theorem dieMode_digEvt (b : Fin 11) : dieMode (digEvt n b s) k = dieMode s k := congrArg (fld · 0 4) (dieCh_digEvt ..)
@[simp] theorem dieMode_reach (i : Nat) : dieMode (reach i s) k = dieMode s k := rfl

/-! ### Nothing but field dies -/

theorem DieStep.refl (s : State) : DieStep s s := rfl

theorem DieStep.modField (h : DieStep s t) (g : Grp) (f : Field → Field) : DieStep s (modField g f t) := h.trans rfl

theorem DieStep.modSlice (h : DieStep s t) (n : Chan) (f : Slice → Slice) : DieStep s (modSlice n f t) := h.modField ..

theorem DieStep.digEvt (h : DieStep s t) (n : Chan) (b : Fin 11) : DieStep s (digEvt n b t) := h.modField ..

theorem DieStep.ite {u : State} (c : Prop) [Decidable c] (h : DieStep s t) (k : DieStep s u) : DieStep s (if c then t else u) := by
  split
  · exact h
  · exact k

/-- Time has moved on before the field dies changed. -/
theorem DieStep.reached {i : Nat} (h : DieStep (reach i s) t) : t = { s with now := max s.now i, fields := t.fields } := h

theorem DieStep.later {i : Nat} (h : DieStep (reach (s.now + i) s) t) : t = { s with now := s.now + i, fields := t.fields } := by
  rw [← Nat.max_eq_right (Nat.le_add_right s.now i)]
  exact h

theorem DieStep.now_eq (h : DieStep s t) : t.now = s.now := by rw [h]

theorem DieStep.inj_eq (h : DieStep s t) : t.inj = s.inj := by rw [h]

/-! ### Events of a slice -/

/-- An event whose condition stands acts on a die that has its supply. -/
theorem onSlice_acts {b : Bool} {f : State → State} (hpow : (fdie s (chanGrp n)).powered = true) (hb : b = true) :
    onSlice n b f s = .next (f s) := by
  simp only [onSlice, onDie, hpow, hb, Bool.and_self, if_true]

end Sys2Proof.Machine
end

section
/-! Digital inputs (O49): 10_channels_digital R317 to R321, R339 to R342, 18_recording_replay R509. An edge of the filtered input, a
transition of the comparator, the end of a frequency measurement, and the conditions that the diagnostics judge. Which of the two
input tests the comparator serves, and when a measurement is given up, are the model's choice (log entry 36). -/

namespace Sys2Proof.Machine

variable {s : State} {n k : Chan} {level : Bool} {c : DigDiag}

/-! ### Frequency (R321) -/

theorem gateTicks_modSlice (f : Slice → Slice) : gateTicks (modSlice n f s) k = gateTicks s k := by
  simp [gateTicks]

theorem gateTicks_digEvt (b : Fin 11) : gateTicks (digEvt n b s) k = gateTicks s k := by
  simp [gateTicks]

/-- A change of the frequency measurement alone. -/
def FreqOnly (f : Slice → Slice) : Prop := ∀ x, (f x).inp = x.inp ∧ (f x).comp = x.comp ∧ (f x).cnt = x.cnt

/-- A counted edge counts for the frequency, and may end a measurement with its event. -/
theorem freqEdge_cases (n : Chan) (s : State) : freqEdge n s = s
    ∨ gateTicks s n ≠ 0 ∧ ∃ f, (freqEdge n s = modSlice n f s ∨ freqEdge n s = digEvt n 8 (modSlice n f s)) ∧ FreqOnly f := by
  unfold freqEdge
  dsimp only
  split
  · exact .inl rfl
  · next hgate =>
    refine .inr ⟨hgate, ?_⟩
    split
    · exact ⟨_, .inl rfl, fun _ => ⟨rfl, rfl, rfl⟩⟩
    · split
      · exact ⟨_, .inr rfl, fun _ => ⟨rfl, rfl, rfl⟩⟩
      · exact ⟨_, .inl rfl, fun _ => ⟨rfl, rfl, rfl⟩⟩

/-- What an edge does beside its level (R317, R320, R321): `cnt` is the count after it. -/
structure CountsEdge (n : Chan) (cnt : BitVec 32) (s t : State) : Prop where
  frame : DieStep s t
  inp : (slc t n).inp = (slc s n).inp
  comp : (slc t n).comp = (slc s n).comp
  cnt : (slc t n).cnt = cnt
  reports : (fdie s (chanGrp n)).reports ⊆ (fdie t (chanGrp n)).reports
  noGate : gateTicks s n = 0 → (slc t n).fper = (slc s n).fper ∧ (slc t n).fStart = (slc s n).fStart
  others : ∀ k, k ≠ n → slc t k = slc s k

theorem freqEdge_counts (n : Chan) (s : State) : CountsEdge n (slc s n).cnt s (freqEdge n s) := by
  rcases freqEdge_cases n s with heq | ⟨hgate, f, heq | heq, hf⟩
  · rw [heq]
    exact ⟨rfl, rfl, rfl, rfl, List.Subset.refl _, fun _ => ⟨rfl, rfl⟩, fun _ _ => rfl⟩
  · obtain ⟨hinp, hcomp, hcnt⟩ := hf (slc s n)
    rw [heq]
    exact ⟨rfl, by rw [slc_modSlice, hinp], by rw [slc_modSlice, hcomp], by rw [slc_modSlice, hcnt], by simp,
      fun h => absurd h hgate, fun k hk => slc_modSlice_other hk ..⟩
  · obtain ⟨hinp, hcomp, hcnt⟩ := hf (slc s n)
    rw [heq]
    exact ⟨rfl, by rw [slc_digEvt, slc_modSlice, hinp], by rw [slc_digEvt, slc_modSlice, hcomp],
      by rw [slc_digEvt, slc_modSlice, hcnt], by simp, fun h => absurd h hgate,
      fun k hk => (slc_digEvt _).trans (slc_modSlice_other hk ..)⟩

/-! ### Edges (R317, R320) -/

/-- The filtered input has its new level, with its event. -/
def levelTaken (n : Chan) (level : Bool) (s : State) : State :=
  digEvt n (if level then 0 else 1)
    (modSlice n (fun x => { x with inp := level, comp := level, opened := x.opened && !level }) s)

theorem slc_levelTaken : slc (levelTaken n level s) n =
    { slc s n with inp := level, comp := level, opened := (slc s n).opened && !level } := by
  rw [levelTaken, slc_digEvt, slc_modSlice]

theorem slc_levelTaken_other (h : k ≠ n) : slc (levelTaken n level s) k = slc s k :=
  (slc_digEvt _).trans (slc_modSlice_other h ..)

theorem levelTaken_reports : Report.dig (chanLidx n) (if level then 0 else 1) ∈ (fdie (levelTaken n level s) (chanGrp n)).reports := by
  simp [levelTaken]

theorem diEdge_eq (n : Chan) (level : Bool) (s : State) : diEdge n level s =
    if countsEdge s n level then freqEdge n (modSlice n (fun x => { x with cnt := x.cnt + 1 }) (levelTaken n level s))
    else levelTaken n level s := by
  have hcounts : countsEdge (levelTaken n level s) n level = countsEdge s n level := by simp [countsEdge, levelTaken]
  rw [← hcounts]
  rfl

theorem diEdge_counts (n : Chan) (level : Bool) (s : State) :
    CountsEdge n (if countsEdge s n level then (slc s n).cnt + 1 else (slc s n).cnt) (levelTaken n level s) (diEdge n level s) := by
  rw [diEdge_eq]
  split
  · obtain ⟨hframe, hinp, hcomp, hcnt, hreports, hgate, hothers⟩ :=
      freqEdge_counts n (modSlice n (fun x => { x with cnt := x.cnt + 1 }) (levelTaken n level s))
    rw [slc_modSlice] at hinp hcomp hcnt hgate
    rw [reports_modSlice] at hreports
    rw [gateTicks_modSlice] at hgate
    exact ⟨hframe, hinp, hcomp, by rw [hcnt, slc_levelTaken], hreports, hgate,
      fun k hk => (hothers k hk).trans (slc_modSlice_other hk ..)⟩
  · exact ⟨rfl, rfl, rfl, by rw [slc_levelTaken], List.Subset.refl _, fun _ => ⟨rfl, rfl⟩, fun _ _ => rfl⟩

/-! ### Conditions (R318, R339 to R342) -/

/-- The event of a condition (R344). -/
def diagEvt (c : DigDiag) : Fin 11 :=
  match c with | .wireBreak | .openOff | .openOn => 5 | .inputShort | .shortVf => 6 | .swFail => 7

theorem diagFound_frame (n : Chan) (c : DigDiag) (s : State) : DieStep s (diagFound n c s) := by cases c <;> rfl

theorem slc_diagFound (n : Chan) (c : DigDiag) (s : State) : slc (diagFound n c s) n = setDiag c true (slc s n) := by
  cases c with
  | swFail => rw [diagFound, slc_addReport, slc_digEvt, slc_modSlice]
  | _ => exact (slc_digEvt _).trans (slc_modSlice ..)

theorem diagFound_reports (n : Chan) (c : DigDiag) (s : State) :
    Report.dig (chanLidx n) (diagEvt c) ∈ (fdie (diagFound n c s) (chanGrp n)).reports := by
  cases c with
  | swFail => simp [diagFound, diagEvt, fdie_addReport]
  | _ => simp [diagFound, diagEvt]

/-- A failed switch is a fault as well (R342). -/
theorem diagFound_swFail (n : Chan) (s : State) :
    Report.fault 6 (BitVec.ofNat 6 n.val) ∈ (fdie (diagFound n .swFail s) (chanGrp n)).reports := by
  simp [diagFound, fdie_addReport]

/-! ### The events -/

section
variable (hpow : (fdie s (chanGrp n)).powered = true)
include hpow

theorem exec_diEdge (hmode : isDigIn (dieMode s n) = true) (hlevel : (slc s n).inp = !level) :
    exec (.diEdge n level) s = .next (diEdge n level s) :=
  onSlice_acts hpow (by simp [hmode, hlevel])

theorem exec_rawDiTransition (hmode : isDigIn (dieMode s n) = true) (hlevel : (slc s n).comp = !level)
    (hlive : s.cask.st ≠ .replaying) : exec (.rawDiTransition n level) s = .next (
      let u := modSlice n (fun x => { x with comp := level }) s
      if (lnk s (chanGrp n)).st = .up ∧ diSelected s n then recNow 0x04 (n.val + 64 * b2n level) [] u else u) := by
  show execRawDiTransition n level s = _
  unfold execRawDiTransition
  exact onSlice_acts hpow (by simp [hmode, hlevel, hlive])

theorem exec_freqTimeout {i : Nat} (hmode : dieMode s n = mDiCount) (hgate : gateTicks s n ≠ 0)
    (hstart : (slc s n).fStart = some i) : exec (.freqTimeout n) s = .next (modSlice n (fun x => { x with
      fStart := none, fK := 0, fper := 0, fedg := 0, noFreq := true }) (reach (i + 16 * gateTicks s n) s)) := by
  show execFreqTimeout n s = _
  simp only [execFreqTimeout, hstart]
  exact onSlice_acts hpow (by simp [hmode, hgate])

theorem exec_diagThresholdSwap (hmode : isDigIn (dieMode s n) = true) (hbreak : bit (dieCh s n .dicfg) 11 = true)
    (hshort : bit (dieCh s n .dicfg) 12 = true) :
    exec (.diagThresholdSwap n) s = .next (modSlice n (fun x => { x with wbTurn := !x.wbTurn }) s) :=
  onSlice_acts hpow (by simp [hmode, hbreak, hshort])

theorem exec_diagTimer_present (hheld : diagHeld s n c = false) (hjudged : diagJudged s n c = true)
    (hflag : diagFlag (slc s n) c = false) : exec (.diagTimer n c true) s = .next (diagFound n c s) := by
  show execDiagTimer n c true s = _
  simp only [execDiagTimer, hheld, Bool.or_false, if_true]
  exact onSlice_acts hpow (by simp [hjudged, hflag])

theorem exec_diagTimer_absent (hheld : diagHeld s n c = false) (hflag : diagFlag (slc s n) c = true) :
    exec (.diagTimer n c false) s = .next (modSlice n (setDiag c false) s) := by
  show execDiagTimer n c false s = _
  simp only [execDiagTimer, hheld, Bool.or_false, Bool.false_eq_true, if_false]
  exact onSlice_acts hpow hflag

end

/-- Settles O49: an edge by `diEdge_counts`, a condition found by `slc_diagFound` and `diagFound_reports`, the others by their
events. -/
theorem digitalInputsAct : Obligations.DigitalInputsAct := by
  unfold Obligations.DigitalInputsAct
  intro n level c s hpow
  refine ⟨fun hmode hlevel => ?_, fun hmode hlevel hlive => exec_rawDiTransition hpow hmode hlevel hlive,
    fun i hmode hgate hstart => exec_freqTimeout hpow hmode hgate hstart,
    fun hmode hbreak hshort => exec_diagThresholdSwap hpow hmode hbreak hshort,
    fun hheld => ⟨fun hjudged hflag => ?_, fun hflag => exec_diagTimer_absent hpow hheld hflag⟩⟩
  · obtain ⟨hframe, hinp, hcomp, hcnt, hreports, hgate, hothers⟩ := diEdge_counts n level s
    rw [slc_levelTaken] at hinp hcomp hgate
    rw [levelTaken, gateTicks_digEvt, gateTicks_modSlice] at hgate
    exact ⟨_, exec_diEdge hpow hmode hlevel, hframe, hinp, hcomp, hcnt, hreports levelTaken_reports, hgate,
      fun k hk => (hothers k hk).trans (slc_levelTaken_other hk)⟩
  · refine ⟨_, exec_diagTimer_present hpow hheld hjudged hflag, diagFound_frame n c s, slc_diagFound n c s,
      diagFound_reports n c s, fun hfail => ?_⟩
    subst hfail
    exact diagFound_swFail n s

end Sys2Proof.Machine
end

section
/-! Protection of switches (O50): 10_channels_digital R324 to R329. The trip, the group current guard, the thermal latch, the retry
and the inrush window: one rule for each operation, then one for each event. The guard trips at its 101st step above 8 A
(log entry 36, the model's choice). -/

namespace Sys2Proof.Machine

variable {s t : State} {g : Grp} {n k : Chan} {l : Lidx} {mA : Vector Nat 8} {i : Nat} {β : Type}

/-! ### The trip (R325, R327, R336) -/

/-- A slice whose switch a trip at tick `i` has turned off, its pattern stopped. -/
def tripped (i : Nat) (x : Slice) : Slice :=
  { x with
    out := false, limiting := false, inrushEnd := none, curMa := 0, offSince := if x.out then i else x.offSince
    pwm := false, pwmOn := false, hitEnd := none }

/-- The switch is off by a trip, with its event; PAUSE or LATCHED is to follow. -/
def switchTripped (n : Chan) (s : State) : State :=
  modSlice n (fun x => { x with pwm := false, pwmOn := false, hitEnd := none }) (digEvt n 2 (switchOff n s))

theorem slc_switchTripped (n : Chan) (s : State) : slc (switchTripped n s) n = tripped s.now (slc s n) := by
  rw [switchTripped, slc_modSlice, slc_digEvt, switchOff, slc_modSlice]
  rfl

theorem dieCh_switchTripped (r : ChReg) : dieCh (switchTripped n s) k r = dieCh s k r := by
  simp [switchTripped, switchOff]

theorem switchTripped_frame (n : Chan) (s : State) : DieStep s (switchTripped n s) :=
  (((DieStep.refl s).modSlice ..).digEvt ..).modSlice ..

theorem reports_switchTripped (n : Chan) (s : State) : (fdie (switchTripped n s) (chanGrp n)).reports =
    (fdie s (chanGrp n)).reports ++ [.dig (chanLidx n) 2] := by
  simp [switchTripped, switchOff]

theorem slc_switchTripped_other (h : k ≠ n) : slc (switchTripped n s) k = slc s k := by
  simp [switchTripped, switchOff, slc_modSlice_other h]

/-- The pause that follows a trip, and starts when the thermal latch has cleared (R327, R328). -/
def pauseAfter (s : State) (n : Chan) : Option Nat := if (slc s n).therm then none else some (s.now + pauseOf s n)

/-- A trip latches the channel when its retries are used up, and else it pauses. -/
theorem tripSwitch_eq (n : Chan) (s : State) : tripSwitch n s =
    if (slc s n).r.toNat = fld (dieCh s n .retry) 6 4 then
      digEvt n 3 (modSlice n (fun x => { x with retry := .latched, pauseEnd := none }) (switchTripped n s))
    else modSlice n (fun x => { x with retry := .pause, pauseEnd := pauseAfter s n }) (switchTripped n s) := by
  have hslc := slc_switchTripped n s
  have hr : (slc (switchTripped n s) n).r = (slc s n).r := by rw [hslc]; rfl
  have htherm : (slc (switchTripped n s) n).therm = (slc s n).therm := by rw [hslc]; rfl
  have hpause : pauseOf (switchTripped n s) n = pauseOf s n := by rw [pauseOf, pauseOf, dieCh_switchTripped, hr]
  have hcond : ((slc (switchTripped n s) n).r.toNat = fld (dieCh (switchTripped n s) n .retry) 6 4)
      = ((slc s n).r.toNat = fld (dieCh s n .retry) 6 4) := by rw [hr, dieCh_switchTripped]
  have htrip : tripSwitch n s =
      let u := switchTripped n s
      if (slc u n).r.toNat = fld (dieCh u n .retry) 6 4 then
        digEvt n 3 (modSlice n (fun x => { x with retry := .latched, pauseEnd := none }) u)
      else modSlice n (fun x => { x with retry := .pause, pauseEnd := if x.therm then none else some (u.now + pauseOf u n) }) u := rfl
  rw [htrip]
  simp only [hcond]
  split
  · rfl
  · refine modSlice_congr ?_
    rw [hpause, htherm]
    rfl

/-- What a trip changes (R325, R327). -/
structure Trips (n : Chan) (s t : State) : Prop where
  frame : DieStep s t
  slice : slc t n = if (slc s n).r.toNat = fld (dieCh s n .retry) 6 4 then
      { tripped s.now (slc s n) with retry := .latched, pauseEnd := none }
    else { tripped s.now (slc s n) with retry := .pause, pauseEnd := pauseAfter s n }
  reports : (fdie t (chanGrp n)).reports = (fdie s (chanGrp n)).reports ++ [.dig (chanLidx n) 2]
    ++ if (slc s n).r.toNat = fld (dieCh s n .retry) 6 4 then [.dig (chanLidx n) 3] else []
  others : ∀ k, k ≠ n → slc t k = slc s k

theorem tripSwitch_trips (n : Chan) (s : State) : Trips n s (tripSwitch n s) := by
  rw [tripSwitch_eq]
  by_cases hlast : (slc s n).r.toNat = fld (dieCh s n .retry) 6 4
  · rw [if_pos hlast]
    exact ⟨((switchTripped_frame n s).modSlice ..).digEvt .., by rw [slc_digEvt, slc_modSlice, slc_switchTripped, if_pos hlast],
      by rw [reports_digEvt, reports_modSlice, reports_switchTripped, if_pos hlast],
      fun k hk => by rw [slc_digEvt, slc_modSlice_other hk, slc_switchTripped_other hk]⟩
  · rw [if_neg hlast]
    exact ⟨(switchTripped_frame n s).modSlice .., by rw [slc_modSlice, slc_switchTripped, if_neg hlast],
      by rw [reports_modSlice, reports_switchTripped, if_neg hlast, List.append_nil],
      fun k hk => by rw [slc_modSlice_other hk, slc_switchTripped_other hk]⟩

/-- A trip leaves the switch off and its pattern stopped, and keeps the command and the retry count. -/
theorem Trips.off (h : Trips n s t) : (slc t n).out = false ∧ (slc t n).pwm = false ∧ (slc t n).cmd = (slc s n).cmd
    ∧ (slc t n).r = (slc s n).r ∧ (slc t n).therm = (slc s n).therm := by
  rw [h.slice]
  split <;> exact ⟨rfl, rfl, rfl, rfl, rfl⟩

theorem Trips.mem_reports (h : Trips n s t) : Report.dig (chanLidx n) 2 ∈ (fdie t (chanGrp n)).reports := by
  simp [h.reports]

theorem Trips.reports_subset (h : Trips n s t) : (fdie s (chanGrp n)).reports ⊆ (fdie t (chanGrp n)).reports := by
  rw [h.reports, List.append_assoc]
  exact List.subset_append_left ..

/-- A trip of a channel that its thermal latch holds starts no pause (R328). -/
theorem Trips.noPause (h : Trips n s t) (htherm : (slc s n).therm = true) : (slc t n).pauseEnd = none := by
  rw [h.slice]
  split
  · rfl
  · exact if_pos htherm

/-! ### The group current guard (R326) -/

/-- A channel's current is measured (R324, R345). -/
def currentTaken (g : Grp) (mA : Vector Nat 8) (l : Lidx) (s : State) : State :=
  modSlice (chanOf g l) (fun x => { x with
    curMa := mA[l], sqSum := if x.pwm then x.sqSum + mA[l] * mA[l] else 0, sqN := if x.pwm then x.sqN + 1 else 0
    limiting := isSwitch (dieMode s (chanOf g l)) && x.out
      && decide (0 < limitNow s (chanOf g l) ∧ limitNow s (chanOf g l) ≤ mA[l]) }) s

theorem takeCurrents_eq (g : Grp) (mA : Vector Nat 8) (s : State) : takeCurrents g mA s = foldSt lidxs (currentTaken g mA) s := rfl

theorem takeCurrents_frame (g : Grp) (mA : Vector Nat 8) (s : State) : DieStep s (takeCurrents g mA s) :=
  List.foldlRecOn (motive := DieStep s) _ _ (DieStep.refl s) fun _ h _ _ => h.modSlice ..

/-- What the currents are no part of is the same after a measurement. -/
theorem takeCurrents_keeps (p : State → β) (hp : ∀ l u, p (currentTaken g mA l u) = p u) : p (takeCurrents g mA s) = p s :=
  foldSt_keeps p lidxs _ hp s

theorem slc_takeCurrents_keeps (p : Slice → β)
    (hp : ∀ x a b c d, p { x with curMa := a, sqSum := b, sqN := c, limiting := d } = p x) :
    p (slc (takeCurrents g mA s) k) = p (slc s k) :=
  takeCurrents_keeps (fun u => p (slc u k)) fun l u => by
    dsimp only [currentTaken]
    exact slc_modSlice_keeps p (fun x => hp x ..) ..

theorem takeCurrents_dieMode : dieMode (takeCurrents g mA s) k = dieMode s k :=
  takeCurrents_keeps (dieMode · k) fun _ _ => dieMode_modSlice

theorem takeCurrents_guard : (fdie (takeCurrents g mA s) g).guard = (fdie s g).guard :=
  takeCurrents_keeps (fun u => (fdie u g).guard) fun _ _ => guard_modSlice

theorem curMa_foldSt (ls : List Lidx) (s : State) : (slc (foldSt ls (currentTaken g mA) s) (chanOf g l)).curMa =
    if l ∈ ls then mA[l] else (slc s (chanOf g l)).curMa := by
  induction ls generalizing s with
  | nil => rfl
  | cons a ls ih =>
    rw [foldSt_cons, ih]
    by_cases hmem : l ∈ ls
    · rw [if_pos hmem, if_pos (List.mem_cons_of_mem a hmem)]
    · by_cases hl : l = a
      · subst hl
        rw [if_neg hmem, if_pos List.mem_cons_self, currentTaken, slc_modSlice]
      · have hne : chanOf g l ≠ chanOf g a := fun e => hl (by rw [← chanLidx_chanOf g l, e, chanLidx_chanOf])
        rw [if_neg hmem, if_neg (by simp [hl, hmem]), currentTaken, slc_modSlice_other hne]

theorem takeCurrents_curMa (hg : chanGrp k = g) : (slc (takeCurrents g mA s) k).curMa = mA[chanLidx k] := by
  have hmem : ∀ l : Lidx, l ∈ lidxs := by decide
  have hcur := curMa_foldSt (g := chanGrp k) (l := chanLidx k) (mA := mA) lidxs s
  rw [if_pos (hmem _), chanOf_parts, ← takeCurrents_eq] at hcur
  rw [← hg, hcur]

theorem guarded_takeCurrents : guarded (takeCurrents g mA s) g = guarded s g := by
  have hinrush : ∀ k, (slc (takeCurrents g mA s) k).inrushEnd = (slc s k).inrushEnd := fun _ =>
    slc_takeCurrents_keeps Slice.inrushEnd fun _ _ _ _ _ => rfl
  simp only [guarded, takeCurrents_dieMode, hinrush]

/-- The sum that the guard judges (R326). -/
def guardSum (s : State) (g : Grp) (mA : Vector Nat 8) : Nat := ((guarded s g).map fun k => mA[chanLidx k]).foldl (· + ·) 0

theorem chanGrp_of_guarded (h : k ∈ guarded s g) : chanGrp k = g := by
  obtain ⟨l, -, rfl⟩ := List.mem_map.1 (List.mem_filter.1 h).1
  exact chanGrp_chanOf g l

theorem guardSum_takeCurrents :
    ((guarded (takeCurrents g mA s) g).map fun k => (slc (takeCurrents g mA s) k).curMa).foldl (· + ·) 0 = guardSum s g mA := by
  rw [guarded_takeCurrents, guardSum]
  exact congrArg (List.foldl (· + ·) 0) (List.map_congr_left fun k hk => takeCurrents_curMa (chanGrp_of_guarded hk))

/-- The count of the guard of a group changes. -/
def withGuard (v : Nat → Nat) (g : Grp) (s : State) : State := modField g (fun d => { d with guard := v d.guard }) s

theorem slc_withGuard (v : Nat → Nat) : slc (withGuard v g s) k = slc s k :=
  slc_modField (f := fun d => { d with guard := v d.guard }) (fun _ => rfl) ..

theorem guard_withGuard (v : Nat → Nat) : (fdie (withGuard v g s) g).guard = v (fdie s g).guard := by
  rw [withGuard, fdie_modField_same]

theorem reports_withGuard (v : Nat → Nat) : (fdie (withGuard v g s) g).reports = (fdie s g).reports := by
  rw [withGuard, fdie_modField_same]

theorem DieStep.injRuns (h : DieStep s t) (d c unit : Nat) : injRuns t d c unit = injRuns s d c unit := by
  rw [h]
  rfl

theorem guardStep_frame (g : Grp) (mA : Vector Nat 8) (s : State) : DieStep s (guardStep g mA s) := by
  have hframe := takeCurrents_frame g mA s
  unfold guardStep
  refine DieStep.ite _ (DieStep.ite _ ?_ (hframe.modField ..)) (hframe.modField ..)
  split
  · next k _ => exact ((hframe.trans (tripSwitch_trips k _).frame).digEvt k 10).modField g _
  · exact hframe

section
variable (hinj : injRuns s 12 6 g.val = false)
include hinj

theorem takeCurrents_uninjected : injRuns (takeCurrents g mA s) 12 6 g.val = false :=
  ((takeCurrents_frame g mA s).injRuns ..).trans hinj

theorem guardStep_below (hsum : guardSum s g mA ≤ 8000) :
    guardStep g mA s = withGuard (fun _ => 0) g (takeCurrents g mA s) := by
  simp [guardStep, withGuard, takeCurrents_uninjected hinj, guardSum_takeCurrents, Nat.not_lt.2 hsum]

theorem guardStep_counts (hsum : 8000 < guardSum s g mA) (hguard : (fdie s g).guard < 100) :
    guardStep g mA s = withGuard (· + 1) g (takeCurrents g mA s) := by
  simp [guardStep, withGuard, takeCurrents_uninjected hinj, guardSum_takeCurrents, hsum, takeCurrents_guard, Nat.not_le.2 hguard]

theorem guardStep_trips (hsum : 8000 < guardSum s g mA) (hguard : 100 ≤ (fdie s g).guard)
    (hhigh : highest (takeCurrents g mA s) (guarded (takeCurrents g mA s) g) = some n) :
    guardStep g mA s = withGuard (fun _ => 0) g (digEvt n 10 (tripSwitch n (takeCurrents g mA s))) := by
  simp [guardStep, withGuard, takeCurrents_uninjected hinj, guardSum_takeCurrents, hsum, takeCurrents_guard, hguard, hhigh]

end

end Sys2Proof.Machine
end

section
/-! Thermal latch, retry and self-timed PWM (O50): 10_channels_digital R327, R328, R333 to R336. Switching an output on or off leaves
its command, its protection and its pattern alone; what an event does beside the switching is then read off. Time moves on to the
instant of a timed event before it acts (log entry 3). -/

namespace Sys2Proof.Machine

variable {s t : State} {g : Grp} {n k : Chan} {mA : Vector Nat 8} {i : Nat}

/-! ### Switching (R324, R336, R337) -/

/-- What of a slice the switching of its output leaves alone. -/
def unswitched (x : Slice) : Slice :=
  { x with
    out := false, pwmOn := false, limiting := false, inrushEnd := none, curMa := 0, offSince := 0, onSince := 0 }

/-- Slices that are equal but for the switching of their output have the same command and the same pattern. -/
theorem pattern_of_unswitched {x y : Slice} (h : unswitched x = unswitched y) : x.cmd = y.cmd ∧ x.pwm = y.pwm ∧ x.duty = y.duty
    ∧ x.anchor = y.anchor ∧ x.hitEnd = y.hitEnd ∧ x.sqN = y.sqN ∧ x.sqSum = y.sqSum := by
  simp only [unswitched, Slice.mk.injEq] at h
  simp [h]

/-- Only the switching of an output changes, on one channel. -/
structure Switches (n : Chan) (s t : State) : Prop where
  frame : DieStep s t
  slice : unswitched (slc t n) = unswitched (slc s n)

theorem Switches.refl (n : Chan) (s : State) : Switches n s s := ⟨rfl, rfl⟩

theorem Switches.trans {u : State} (h : Switches n s t) (h' : Switches n t u) : Switches n s u :=
  ⟨h.frame.trans h'.frame, h'.slice.trans h.slice⟩

theorem Switches.modSlice {f : Slice → Slice} (hf : ∀ x, unswitched (f x) = unswitched x) (n : Chan) (s : State) :
    Switches n s (modSlice n f s) :=
  ⟨(DieStep.refl s).modSlice .., slc_modSlice_keeps unswitched hf ..⟩

theorem Switches.ite {u : State} (c : Prop) [Decidable c] (h : Switches n s t) (h' : Switches n s u) :
    Switches n s (if c then t else u) := by
  split
  · exact h
  · exact h'

theorem switchOn_switches (n : Chan) (inrush : Bool) (s : State) : Switches n s (switchOn n inrush s) :=
  ⟨(DieStep.refl s).modSlice .., by rw [switchOn, slc_modSlice]; rfl⟩

theorem switchGap_switches (n : Chan) (s : State) : Switches n s (switchGap n s) :=
  ⟨(DieStep.refl s).modSlice .., by rw [switchGap, slc_modSlice]; rfl⟩

theorem pwmPhase_switches (n : Chan) (s : State) : Switches n s (pwmPhase n s) := by
  refine Switches.trans (.modSlice (f := fun x => { x with pwmOn := decide (pwmPos s n < (slc s n).duty) }) (fun _ => rfl) n s) ?_
  exact .ite _ (switchOn_switches ..) (.ite _ (switchGap_switches ..) (.refl ..))

theorem slc_switchOn (n : Chan) (inrush : Bool) (s : State) : (slc (switchOn n inrush s) n).out = true := by
  rw [switchOn, slc_modSlice]

theorem slc_switchGap (n : Chan) (s : State) : (slc (switchGap n s) n).out = false ∧ (slc (switchGap n s) n).pwmOn = (slc s n).pwmOn
    ∧ (slc (switchGap n s) n).pwm = (slc s n).pwm ∧ (slc (switchGap n s) n).duty = (slc s n).duty := by
  rw [switchGap, slc_modSlice]
  exact ⟨rfl, rfl, rfl, rfl⟩

/-! ### Starts of a channel that protection has held (R327, R328, R334) -/

/-- The command and the protection of a slice: retry state and count, pause, thermal latch. -/
def protection (x : Slice) : Bool × Retry × BitVec 4 × Option Nat × Bool := (x.cmd, x.retry, x.r, x.pauseEnd, x.therm)

theorem Switches.protection (h : Switches n s t) : protection (slc t n) = Machine.protection (slc s n) := by
  have hslice : Machine.protection (unswitched (slc t n)) = Machine.protection (unswitched (slc s n)) := by rw [h.slice]
  exact hslice

/-- The slice of a pattern that starts (R334). -/
def patternStarted (s : State) (n : Chan) (x : Slice) : Slice :=
  { x with
    pwm := true, pwmOn := false, duty := (dieCh s n .pwmduty).toNat * pwmUnit (dieCh s n .pwmcfg), anchor := s.now
    onSince := s.now
    hitEnd := if fld (dieCh s n .pwmcfg) 2 8 = 0 then none else some (s.now + fld (dieCh s n .pwmcfg) 2 8 * 100 * us)
    inrushEnd := if fld (dieCh s n .docfg) 6 5 = 0 then none else some (s.now + fld (dieCh s n .docfg) 6 5 * ms) }

theorem pwmStart_switches (n : Chan) (s : State) : Switches n (modSlice n (patternStarted s n) s) (pwmStart n s) :=
  .ite _ (pwmPhase_switches ..) (.ite _ (switchOn_switches ..) (.refl ..))

/-- A start leaves the command and the protection of its channel alone. -/
structure Starts (n : Chan) (s t : State) : Prop where
  frame : DieStep s t
  protection : protection (slc t n) = protection (slc s n)

theorem Switches.starts (h : Switches n s t) : Starts n s t := ⟨h.frame, h.protection⟩

theorem pwmStart_starts (n : Chan) (s : State) : Starts n s (pwmStart n s) := by
  have hswitches := pwmStart_switches n s
  exact ⟨((DieStep.refl s).modSlice ..).trans hswitches.frame,
    hswitches.protection.trans (by rw [slc_modSlice]; rfl)⟩

theorem Starts.ite {u : State} (c : Prop) [Decidable c] (h : Starts n s t) (h' : Starts n s u) :
    Starts n s (if c then t else u) := by
  split
  · exact h
  · exact h'

theorem reStart_starts (n : Chan) (retry : Bool) (s : State) : Starts n s (reStart n retry s) :=
  .ite _ (switchOn_switches ..).starts (.ite _ (pwmStart_starts ..)
    (.ite _ (switchOn_switches ..).starts (pwmPhase_switches ..).starts))

theorem reStart_do (hmode : dieMode s n = mDo) (retry : Bool) : (slc (reStart n retry s) n).out = true := by
  rw [reStart, if_pos hmode, slc_switchOn]

/-! ### The thermal latch (R328) -/

/-- The thermal latch is set, with its event; a switch that is on has still to be turned off. -/
def latchSet (n : Chan) (s : State) : State := digEvt n 4 (modSlice n (fun x => { x with therm := true, pauseEnd := none }) s)

theorem slc_latchSet (n : Chan) (s : State) : slc (latchSet n s) n = { slc s n with therm := true, pauseEnd := none } := by
  rw [latchSet, slc_digEvt, slc_modSlice]

theorem latchSet_reports (n : Chan) (s : State) : Report.dig (chanLidx n) 4 ∈ (fdie (latchSet n s) (chanGrp n)).reports := by
  simp [latchSet]

theorem latchSet_frame (n : Chan) (s : State) : DieStep s (latchSet n s) := ((DieStep.refl s).modSlice ..).digEvt ..

/-- The latch holds the switch off, and no pause runs (R328). -/
theorem thermSet_holds (n : Chan) (s : State) : DieStep s (thermSet n s) ∧ (slc (thermSet n s) n).therm = true
    ∧ (slc (thermSet n s) n).out = false ∧ (slc (thermSet n s) n).pauseEnd = none
    ∧ Report.dig (chanLidx n) 4 ∈ (fdie (thermSet n s) (chanGrp n)).reports := by
  have hset := slc_latchSet n s
  have htherm : (slc (latchSet n s) n).therm = true := by rw [hset]
  have hthermSet : thermSet n s = if (slc s n).out then tripSwitch n (latchSet n s) else latchSet n s := rfl
  rw [hthermSet]
  split
  · have htrip := tripSwitch_trips n (latchSet n s)
    obtain ⟨hout, -, -, -, hkept⟩ := htrip.off
    exact ⟨(latchSet_frame n s).trans htrip.frame, hkept.trans htherm, hout, htrip.noPause htherm,
      htrip.reports_subset (latchSet_reports n s)⟩
  · next hout => exact ⟨latchSet_frame n s, htherm, by rw [hset]; simpa using hout, by rw [hset], latchSet_reports n s⟩

/-- The thermal latch of a channel is cleared; a pause or a start may follow. -/
def latchCleared (n : Chan) (s : State) : State := modSlice n (fun x => { x with therm := false }) s

theorem slc_latchCleared (n : Chan) (s : State) : slc (latchCleared n s) n = { slc s n with therm := false } := slc_modSlice ..

theorem pauseOf_latchCleared : pauseOf (latchCleared n s) n = pauseOf s n := by
  rw [pauseOf, pauseOf, slc_latchCleared, latchCleared, dieCh_modSlice]

theorem thermClear_pause (h : (slc s n).retry = .pause) : thermClear n s =
    modSlice n (fun x => { x with pauseEnd := some (s.now + pauseOf s n) }) (latchCleared n s) := by
  have hretry : (slc (latchCleared n s) n).retry = .pause := by rw [slc_latchCleared, h]
  unfold thermClear
  simp only [← latchCleared.eq_def, hretry, pauseOf_latchCleared]
  rfl

theorem thermClear_normal (h : (slc s n).retry = .normal) : thermClear n s =
    if (slc s n).cmd ∧ isSwitch (dieMode s n) then reStart n false (latchCleared n s) else latchCleared n s := by
  have hretry : (slc (latchCleared n s) n).retry = .normal := by rw [slc_latchCleared, h]
  have hcmd : (slc (latchCleared n s) n).cmd = (slc s n).cmd := by rw [slc_latchCleared]
  have hmode : dieMode (latchCleared n s) n = dieMode s n := dieMode_modSlice
  unfold thermClear
  simp only [← latchCleared.eq_def, hretry, hcmd, hmode]

theorem thermClear_latched (h : (slc s n).retry = .latched) : thermClear n s = latchCleared n s := by
  have hretry : (slc (latchCleared n s) n).retry = .latched := by rw [slc_latchCleared, h]
  unfold thermClear
  simp only [← latchCleared.eq_def, hretry]

/-- A cleared latch, and nothing outside the field dies. -/
theorem thermClear_clears (n : Chan) (s : State) : DieStep s (thermClear n s) ∧ (slc (thermClear n s) n).therm = false := by
  have hframe : DieStep s (latchCleared n s) := (DieStep.refl s).modSlice ..
  have htherm : (slc (latchCleared n s) n).therm = false := by rw [slc_latchCleared]
  cases hretry : (slc s n).retry with
  | pause =>
    rw [thermClear_pause hretry]
    exact ⟨hframe.modSlice .., by rw [slc_modSlice, slc_latchCleared]⟩
  | latched =>
    rw [thermClear_latched hretry]
    exact ⟨hframe, htherm⟩
  | normal =>
    rw [thermClear_normal hretry]
    split
    · have hstarts := reStart_starts n false (latchCleared n s)
      exact ⟨hframe.trans hstarts.frame, (congrArg (·.2.2.2.2) hstarts.protection).trans htherm⟩
    · exact ⟨hframe, htherm⟩

/-! ### The end of a pause (R327) -/

theorem pauseOver_off (h : (slc s n).cmd = false) :
    pauseOver n s = modSlice n (fun x => { x with pauseEnd := none, retry := .normal }) s := by
  rw [pauseOver, if_neg (by simp [h])]

theorem pauseOver_on (h : (slc s n).cmd = true) : pauseOver n s =
    reStart n true (modSlice n (fun x => { x with pauseEnd := none, retry := .normal, r := x.r + 1 }) s) := if_pos h

/-- A pause that is over leaves the channel in NORMAL; a channel that is commanded on counts a retry. -/
theorem pauseOver_ends (n : Chan) (s : State) : DieStep s (pauseOver n s) ∧ (slc (pauseOver n s) n).retry = .normal
    ∧ (slc (pauseOver n s) n).pauseEnd = none
    ∧ ((slc s n).cmd = false → (slc (pauseOver n s) n).r = (slc s n).r ∧ (slc (pauseOver n s) n).out = (slc s n).out)
    ∧ ((slc s n).cmd = true → dieMode s n = mDo →
        (slc (pauseOver n s) n).r = (slc s n).r + 1 ∧ (slc (pauseOver n s) n).out = true) := by
  cases hcmd : (slc s n).cmd with
  | false =>
    rw [pauseOver_off hcmd, slc_modSlice]
    exact ⟨(DieStep.refl s).modSlice .., rfl, rfl, fun _ => ⟨rfl, rfl⟩, nofun⟩
  | true =>
    obtain ⟨hframe, hprot⟩ :=
      reStart_starts n true (modSlice n (fun x => { x with pauseEnd := none, retry := .normal, r := x.r + 1 }) s)
    rw [slc_modSlice] at hprot
    rw [pauseOver_on hcmd]
    exact ⟨((DieStep.refl s).modSlice ..).trans hframe, congrArg (·.2.1) hprot, congrArg (·.2.2.2.1) hprot, nofun,
      fun _ hmode => ⟨congrArg (·.2.2.1) hprot, reStart_do (dieMode_modSlice.trans hmode) true⟩⟩

/-! ### Edges of a pattern (R333 to R335) -/

/-- The off-edge of a pattern, after `i` ticks. -/
def patternOff (n : Chan) (i : Nat) (s : State) : State :=
  switchGap n (modSlice n (fun x => { x with pwmOn := false }) (reach (s.now + i) s))

/-- A period of a pattern begins, after `i` ticks, with the duty then in force. -/
def periodBegun (n : Chan) (i : Nat) (s : State) : State :=
  modSlice n (fun x => { x with
    duty := (dieCh s n .pwmduty).toNat * pwmUnit (dieCh s n .pwmcfg), msq := if x.sqN = 0 then x.msq else x.sqSum / x.sqN
    sqSum := 0, sqN := 0 }) (reach (s.now + i) s)

theorem pwmNext_off (hon : (slc s n).pwmOn = true) (hduty : (slc s n).duty < pwmPer s n) :
    pwmNext n s = patternOff n ((slc s n).duty - pwmPos s n) s := by
  simp [pwmNext, pwmWait, hon, hduty, patternOff]

theorem pwmNext_period (h : (slc s n).pwmOn = false ∨ pwmPer s n ≤ (slc s n).duty) :
    pwmNext n s = pwmPhase n (periodBegun n (pwmPer s n - pwmPos s n) s) := by
  have hnot : ¬((slc s n).pwmOn = true ∧ (slc s n).duty < pwmPer s n) := by
    rintro ⟨hon, hduty⟩
    rcases h with hoff | hfull
    · simp [hoff] at hon
    · exact absurd hduty (Nat.not_lt.2 hfull)
  have hwait : pwmWait s n = pwmPer s n - pwmPos s n := if_neg hnot
  have hoff : ((slc s n).pwmOn && decide ((slc s n).duty < pwmPer s n)) = false := by simpa using hnot
  unfold pwmNext
  simp only [hoff, hwait, Bool.false_eq_true, if_false]
  rfl

/-- The hit phase is over, and the pattern goes on from here (R334). -/
def hitEnded (n : Chan) (i : Nat) (s : State) : State :=
  modSlice n (fun x => { x with hitEnd := none, anchor := (reach i s).now }) (reach i s)

/-! ### The events -/

section
variable (hpow : (fdie s (chanGrp n)).powered = true)
include hpow

theorem exec_limitTimerTrip (hmode : isSwitch (dieMode s n) = true) (hout : (slc s n).out = true)
    (hinrush : (slc s n).inrushEnd = none) : exec (.limitTimerTrip n) s = .next (tripSwitch n s) :=
  onSlice_acts hpow (by simp [hmode, hout, hinrush])

theorem exec_thermalLatchSet (h : (slc s n).therm = false) : exec (.thermalLatchSet n) s = .next (thermSet n s) :=
  onSlice_acts hpow (by simp [h])

theorem exec_thermalLatchClear (h : (slc s n).therm = true) (hinj : injRuns s 12 5 n.val = false) :
    exec (.thermalLatchClear n) s = .next (thermClear n s) :=
  onSlice_acts hpow (by simp [h, hinj])

theorem exec_retryPauseEnd (hpause : (slc s n).pauseEnd = some i) (hretry : (slc s n).retry = .pause) :
    exec (.retryPauseEnd n) s = .next (pauseOver n (reach i s)) := by
  show execRetryPauseEnd n s = _
  simp only [execRetryPauseEnd, hpause]
  exact onSlice_acts hpow (by simp [hretry])

theorem exec_retryCountReset (hmode : dieMode s n = mDo) (hout : (slc s n).out = true) : exec (.retryCountReset n) s =
    .next (modSlice n (fun x => { x with r := 0 }) (reach ((slc s n).onSince + 4000 * ms) s)) := by
  show execRetryCountReset n s = _
  unfold execRetryCountReset
  exact onSlice_acts hpow (by simp [hmode, hout, isSwitch, mDo, mDoPwm])

theorem exec_inrushWindowEnd (h : (slc s n).inrushEnd = some i) :
    exec (.inrushWindowEnd n) s = .next (modSlice n (fun x => { x with inrushEnd := none }) (reach i s)) := by
  show execInrushWindowEnd n s = _
  simp only [execInrushWindowEnd, h]
  exact onSlice_acts hpow rfl

theorem exec_pwmEdge (hmode : dieMode s n = mDoPwm) (hpwm : (slc s n).pwm = true) (hhit : (slc s n).hitEnd = none)
    (hper : pwmPer s n ≠ 0) : exec (.pwmEdge n) s = .next (pwmNext n s) :=
  onSlice_acts hpow (by simp [hmode, hpwm, hhit, hper])

theorem exec_pwmHitEnd (hpwm : (slc s n).pwm = true) (hhit : (slc s n).hitEnd = some i) :
    exec (.pwmHitEnd n) s = .next (pwmPhase n (hitEnded n i s)) := by
  show execPwmHitEnd n s = _
  simp only [execPwmHitEnd, hhit]
  exact onSlice_acts hpow hpwm

end

theorem exec_guardStep (hpow : (fdie s g).powered = true) : exec (.guardStep g mA) s = .next (guardStep g mA s) := by
  show execGuardStep g mA s = _
  simp only [execGuardStep, onDie, hpow, Bool.and_self, if_true]

/-! ### The statement -/

/-- What one step of the guard does to channel `n` of its group (R326). -/
theorem guardStep_acts (n : Chan) (mA : Vector Nat 8) (s : State) (hinj : injRuns s 12 6 (chanGrp n).val = false) :
    let t := guardStep (chanGrp n) mA s
    let u := takeCurrents (chanGrp n) mA s
    (guardSum s (chanGrp n) mA ≤ 8000 → (fdie t (chanGrp n)).guard = 0 ∧ (slc t n).curMa = mA[chanLidx n])
    ∧ (8000 < guardSum s (chanGrp n) mA → (fdie s (chanGrp n)).guard < 100 →
        (fdie t (chanGrp n)).guard = (fdie s (chanGrp n)).guard + 1 ∧ (slc t n).curMa = mA[chanLidx n]
        ∧ (slc t n).out = (slc s n).out)
    ∧ (8000 < guardSum s (chanGrp n) mA → 100 ≤ (fdie s (chanGrp n)).guard → highest u (guarded u (chanGrp n)) = some n →
        (slc t n).out = false ∧ (fdie t (chanGrp n)).guard = 0 ∧ Report.dig (chanLidx n) 10 ∈ (fdie t (chanGrp n)).reports) := by
  dsimp only
  refine ⟨fun hsum => ?_, fun hsum hguard => ?_, fun hsum hguard hhigh => ?_⟩
  · rw [guardStep_below hinj hsum, guard_withGuard, slc_withGuard]
    exact ⟨rfl, takeCurrents_curMa rfl⟩
  · rw [guardStep_counts hinj hsum hguard, guard_withGuard, slc_withGuard]
    exact ⟨congrArg (· + 1) takeCurrents_guard, takeCurrents_curMa rfl,
      slc_takeCurrents_keeps Slice.out fun _ _ _ _ _ => rfl⟩
  · rw [guardStep_trips hinj hsum hguard hhigh, guard_withGuard, reports_withGuard, slc_withGuard, slc_digEvt, reports_digEvt]
    exact ⟨(tripSwitch_trips n _).off.1, rfl, by simp⟩

/-- A cleared thermal latch lets the pause begin, or a commanded switch come on again (R328). -/
theorem thermClear_then (n : Chan) (s : State) :
    ((slc s n).retry = .pause → (slc (thermClear n s) n).pauseEnd = some (s.now + pauseOf s n)
      ∧ (slc (thermClear n s) n).out = (slc s n).out)
    ∧ ((slc s n).retry = .normal → (slc s n).cmd = true → dieMode s n = mDo → (slc (thermClear n s) n).out = true) := by
  refine ⟨fun hretry => ?_, fun hretry hcmd hmode => ?_⟩
  · rw [thermClear_pause hretry, slc_modSlice, slc_latchCleared]
    exact ⟨rfl, rfl⟩
  · have hswitch : isSwitch (dieMode s n) = true := by rw [hmode]; decide
    rw [thermClear_normal hretry, if_pos ⟨hcmd, hswitch⟩]
    exact reStart_do (dieMode_modSlice.trans hmode) false

theorem patternOff_holds (n : Chan) (i : Nat) (s : State) :
    patternOff n i s = { s with now := s.now + i, fields := (patternOff n i s).fields }
    ∧ (slc (patternOff n i s) n).pwmOn = false ∧ (slc (patternOff n i s) n).out = false
    ∧ (slc (patternOff n i s) n).pwm = (slc s n).pwm ∧ (slc (patternOff n i s) n).duty = (slc s n).duty := by
  have hframe : DieStep (reach (s.now + i) s) (patternOff n i s) := ((DieStep.refl _).modSlice ..).trans (switchGap_switches ..).frame
  obtain ⟨hout, hpwmOn, hpwm, hduty⟩ := slc_switchGap n (modSlice n (fun x => { x with pwmOn := false }) (reach (s.now + i) s))
  rw [slc_modSlice] at hpwmOn hpwm hduty
  exact ⟨hframe.later, hpwmOn, hout, hpwm, hduty⟩

theorem slc_periodBegun (n : Chan) (i : Nat) (s : State) : slc (periodBegun n i s) n = { slc s n with
    duty := (dieCh s n .pwmduty).toNat * pwmUnit (dieCh s n .pwmcfg)
    msq := if (slc s n).sqN = 0 then (slc s n).msq else (slc s n).sqSum / (slc s n).sqN, sqSum := 0, sqN := 0 } := by
  rw [periodBegun, slc_modSlice, slc_reach]

theorem periodBegun_frame : DieStep (reach (s.now + i) s) (periodBegun n i s) := (DieStep.refl _).modSlice ..

theorem slc_hitEnded (n : Chan) (i : Nat) (s : State) :
    slc (hitEnded n i s) n = { slc s n with hitEnd := none, anchor := (reach i s).now } := by
  rw [hitEnded, slc_modSlice, slc_reach]

/-- Settles O50: a trip by `tripSwitch_trips`, the guard by `guardStep_acts`, the latch by `thermSet_holds` and `thermClear_then`, the
pause by `pauseOver_ends`; a pattern's edges change the output alone (`pwmPhase_switches`). -/
theorem switchesAndPatterns : Obligations.SwitchesAndPatterns := by
  unfold Obligations.SwitchesAndPatterns
  refine ⟨fun n g mA s hpow hg => ?_, fun n s hpow hmode hpwm =>
    ⟨fun hhit hper => ⟨fun hon hduty => ?_, fun hperiod => ?_⟩, fun i hhit => ?_⟩⟩
  · subst hg
    refine ⟨fun hmode hout hinrush => ?_, fun hinj => ?_, fun htherm => ?_, fun htherm hinj => ?_, fun i hpause hretry => ?_,
      fun hmode hout => exec_retryCountReset hpow hmode hout, fun i hinrush => exec_inrushWindowEnd hpow hinrush⟩
    · have htrip := tripSwitch_trips n s
      obtain ⟨hoff, hpwm, hcmd, hr, -⟩ := htrip.off
      refine ⟨_, exec_limitTimerTrip hpow hmode hout hinrush, htrip.frame, hoff, hpwm, hcmd, hr, htrip.mem_reports, ?_, htrip.others⟩
      split
      · next hlast => exact ⟨by rw [htrip.slice, if_pos hlast], by simp [htrip.reports, hlast]⟩
      · next hlast =>
        rw [htrip.slice, if_neg hlast]
        exact ⟨rfl, rfl⟩
    · exact ⟨_, exec_guardStep hpow, guardStep_frame .., guardStep_acts n mA s hinj⟩
    · exact ⟨_, exec_thermalLatchSet hpow htherm, thermSet_holds n s⟩
    · obtain ⟨hframe, hclear⟩ := thermClear_clears n s
      exact ⟨_, exec_thermalLatchClear hpow htherm hinj, hframe, hclear, thermClear_then n s⟩
    · obtain ⟨hframe, hends⟩ := pauseOver_ends n (reach i s)
      exact ⟨_, exec_retryPauseEnd hpow hpause hretry, hframe.reached, hends⟩
  · obtain ⟨hframe, hpwmOn, hout, hpwm', hduty'⟩ := patternOff_holds n ((slc s n).duty - pwmPos s n) s
    have hexec := exec_pwmEdge hpow hmode hpwm hhit hper
    rw [pwmNext_off hon hduty] at hexec
    exact ⟨_, hexec, hframe, hpwmOn, hout, hpwm'.trans hpwm, hduty'⟩
  · obtain ⟨hframe, hslice⟩ := pwmPhase_switches n (periodBegun n (pwmPer s n - pwmPos s n) s)
    obtain ⟨-, hpwm', hduty', -, -, hsqN, hsqSum⟩ := pattern_of_unswitched hslice
    rw [slc_periodBegun] at hpwm' hduty' hsqN hsqSum
    have hexec := exec_pwmEdge hpow hmode hpwm hhit hper
    rw [pwmNext_period hperiod] at hexec
    exact ⟨_, hexec, (periodBegun_frame.trans hframe).later, hpwm'.trans hpwm, hduty', hsqN, hsqSum⟩
  · obtain ⟨hframe, hslice⟩ := pwmPhase_switches n (hitEnded n i s)
    obtain ⟨hcmd', hpwm', -, hanchor, hhit', -, -⟩ := pattern_of_unswitched hslice
    rw [slc_hitEnded] at hcmd' hpwm' hanchor hhit'
    have hbefore : DieStep (reach i s) (hitEnded n i s) := (DieStep.refl _).modSlice ..
    have hstep := hbefore.trans hframe
    exact ⟨_, exec_pwmHitEnd hpow hpwm hhit, hstep.reached, hhit', hanchor.trans hstep.now_eq.symm, hpwm'.trans hpwm, hcmd'⟩

end Sys2Proof.Machine
end

section
/-! CHAN_SET and CHAN_GET of one item (O13): 10_channels_digital R309, R311 to R314, with the governor's R405 and R406. An item is
judged and applied by itself; what its judgement looks at, the take-up of the packet leaves as it is. -/

namespace Sys2Proof.Machine

variable {s t : State} {op : Op} {m : Msg} {n : Chan} {i : SetItem} {c v m0 m1 m2 : Word} {st : Status} {p : Port}

/-- Where every other check is passed, the range decides (R154). -/
theorem judge_range {hd : Handler} {bad : Bool} (hrest : judge op { hd with range := fun _ _ => true } m bad s = none) :
    judge op hd m bad s = if hd.range s m then none else some stRange := by
  unfold judge at *
  split at hrest
  · cases hrest
  · simp only [check_eq_none] at hrest
    simp only [hrest, Bool.false_eq_true, if_false]
    cases hd.range s m <;> rfl

/-! ### The items of a payload (R311) -/

theorem parseItems_bare (hop : fld c 6 4 ≠ 4) (hop' : fld c 6 4 ≠ 5) : parseItems [c] = some [{ cmd := c, val := 0 }] := by
  simp [parseItems, hop, hop']

theorem parseItems_valued (hop : fld c 6 4 = 4 ∨ fld c 6 4 = 5) : parseItems [c, v] = some [{ cmd := c, val := v }] := by
  simp [parseItems, hop]

theorem itemChan_eq (hn : fld i.cmd 0 6 = n.val) : itemChan i = n := by
  have hch : i.ch = n.val := hn
  simp [itemChan, hch]

/-! ### What an item's judgement and effect look at -/

theorem Took.chMode (h : Took s t) (n : Chan) : chMode t n = chMode s n := by
  rw [h.1]
  rfl

theorem Took.pwmOk (h : Took s t) (r : Reg) (w : Word) (n : Chan) : pwmOk (cfgSet r w t) n = pwmOk (cfgSet r w s) n := by
  rw [h.1]
  rfl

theorem Took.isStart (h : Took s t) (n : Chan) (o : HostOp) : isStart t n o = isStart s n o := by
  rw [h.1]
  rfl

theorem Took.itemStateOk (h : Took s t) (i : SetItem) : itemStateOk t i = itemStateOk s i := by
  rw [h.1]
  rfl

theorem Took.itemRangeOk (h : Took s t) (i : SetItem) : itemRangeOk t i = itemRangeOk s i := by
  simp only [Machine.itemRangeOk, h.chMode, h.pwmOk]

/-- An item of an output value that RUN and its channel's mode allow sets that value (R311). -/
theorem valueItem_sets {o : HostOp} (hrun : s.pw.dev = .run) (hn : fld i.cmd 0 6 = n.val) (hzero : fld i.cmd 10 10 = 0)
    (hitem : Machine.chMode s n = mDo ∧ (i.op = 0 ∧ o = .off ∨ i.op = 1 ∧ o = .on)
      ∨ Machine.chMode s n = mDoPwm ∧ (i.op = 2 ∧ o = .pwmOff ∨ i.op = 3 ∧ o = .pwmOn 0)
      ∨ Machine.chMode s n = mAoI ∧ i.op = 5 ∧ v.toNat ≤ 0xEA600 ∧ o = .aoSet v)
    (hval : i.op = 5 → i.val = v) :
    Machine.itemStateOk s i = true ∧ Machine.itemRangeOk s i = true ∧ ∀ t, applyItem i t = hostValue n o t := by
  have hchan : itemChan i = n := itemChan_eq hn
  have hch : i.ch < 48 := lt_of_eq_of_lt hn n.isLt
  rcases hitem with ⟨hmode, ⟨hop, rfl⟩ | ⟨hop, rfl⟩⟩ | ⟨hmode, ⟨hop, rfl⟩ | ⟨hop, rfl⟩⟩ | ⟨hmode, hop, hmax, rfl⟩
  case inr.inr => simp [Machine.itemStateOk, Machine.itemRangeOk, applyItem, hop, hrun, hchan, hch, hzero, hmode, hval hop, hmax]
  all_goals simp [Machine.itemStateOk, Machine.itemRangeOk, applyItem, hop, hrun, hchan, hch, hzero, hmode]

/-- PWM_DUTY, CNT_CLR and CLR_LATCH on a channel whose mode they act on (R311, R335). -/
theorem commandItem_ok (hrun : s.pw.dev = .run) (hn : fld i.cmd 0 6 = n.val) (hzero : fld i.cmd 10 10 = 0)
    (hitem : i.op = 4 ∧ Machine.chMode s n = mDoPwm ∧ Machine.pwmOk (cfgSet (.ch n .pwmduty) i.val s) n = true
      ∨ i.op = 6 ∧ Machine.chMode s n = mDiCount ∨ i.op = 7 ∧ (Machine.chMode s n = mDo ∨ Machine.chMode s n = mDoPwm)) :
    Machine.itemStateOk s i = true ∧ Machine.itemRangeOk s i = true := by
  have hchan : itemChan i = n := itemChan_eq hn
  have hch : i.ch < 48 := lt_of_eq_of_lt hn n.isLt
  rcases hitem with ⟨hop, hmode, hpwm⟩ | ⟨hop, hmode⟩ | ⟨hop, hmode⟩
  · simp [Machine.itemStateOk, Machine.itemRangeOk, hop, hrun, hchan, hch, hzero, hmode, hpwm, isState]
  · simp [Machine.itemStateOk, Machine.itemRangeOk, hop, hrun, hchan, hch, hzero, hmode, isState]
  · simp [Machine.itemStateOk, Machine.itemRangeOk, hop, hrun, hchan, hch, hzero, hmode, isState, isSwitch]

/-- A switching item on a channel that is no switch, and an item of a reserved op, is out of range in RUN (R311, R312). -/
theorem barredItem (hrun : s.pw.dev = .run) (hchan : itemChan i = n)
    (hbad : i.op ≤ 1 ∧ Machine.chMode s n ≠ mDo ∨ 8 ≤ i.op) : Machine.itemStateOk s i = true ∧ Machine.itemRangeOk s i = false := by
  rcases hbad with ⟨hop, hmode⟩ | hop
  · have hop' : i.op = 0 ∨ i.op = 1 := by omega
    rcases hop' with hop' | hop' <;> simp [Machine.itemStateOk, Machine.itemRangeOk, hop', hrun, hchan, hmode]
  · simp only [Machine.itemStateOk, Machine.itemRangeOk]
    constructor <;> split <;> simp_all

/-- A start waits in the governor (R405). -/
theorem hostValue_start {o : HostOp} (h : Machine.isStart s n o = true) : hostValue n o s =
    modGov (fun g => { g with waiting := g.waiting.filter (fun w => w.n != n) ++ [{ n := n, op := o, since := s.now, counted := 0 }] })
      s := if_pos h

/-- Every other value goes to the field die, and no start of the channel waits any longer (R405, R406). -/
theorem hostValue_sent {o : HostOp} (h : Machine.isStart s n o = false) : hostValue n o s =
    sendConf (chanGrp n) (.host (chanLidx n) o) (modGov (fun g => { g with waiting := g.waiting.filter fun w => w.n != n }) s) :=
  if_neg (Bool.eq_false_iff.1 h)

theorem applyItem_pw (i : SetItem) (s : State) : (applyItem i s).pw = s.pw := by
  have hvalue : ∀ o, (hostValue (itemChan i) o s).pw = s.pw := fun o => by
    unfold hostValue
    split
    · rfl
    · exact (sendConf_clock ..).2
  unfold applyItem
  dsimp only
  split
  all_goals simp [hvalue]

/-! ### CHAN_SET with one item (R312, R313) -/

theorem setItems_accepted (h : judgeItem p s i = none) : setItems p [i] s = ((stOk, 1), applyItem i s) := by
  simp [setItems, firstRefused, h, lastItems, foldSt]

theorem setItems_refused (h : judgeItem p s i = some st) : setItems p [i] s = ((st, 0), s) := by
  simp [setItems, firstRefused, h]

/-- An item that its state allows, on a port whose taps are free, is judged by its range. -/
theorem judgeItem_takenUp (h : PacketReady Op.chanSet m s) (hstate : itemStateOk s i = true) :
    judgeItem m.port (takenUp Op.chanSet m s) i = if itemRangeOk s i then none else some stRange := by
  have htook := takenUp_took Op.chanSet m s
  have hheld : opHeld (takenUp Op.chanSet m s) m.port Op.chanSet = false :=
    (opHeld_congr htook.taps_eq htook.cfg_eq ..).trans h.bound
  simp only [judgeItem, htook.itemStateOk, htook.itemRangeOk, hstate, hheld]
  cases itemRangeOk s i <;> rfl

section
variable (h : PacketReady Op.chanSet m s) (hparse : parseItems m.words = some [i]) (hlen : m.words.length ≤ 2)
include h hparse hlen

theorem exec_chanSet {k : Nat} (hset : setItems m.port [i] (takenUp Op.chanSet m s) = ((st, k), t)) (hpw : t.pw = s.pw) :
    exec (.chanSet m) s = .next (replied m st [BitVec.ofNat 20 k] t) := by
  have hloose : looseState (takenUp Op.chanSet m s) m = none := by simp [looseState, hparse]
  have hpos : 1 ≤ m.words.length := by
    refine List.length_pos_iff.2 fun hnil => ?_
    rw [hnil] at hparse
    cases hparse
  have hjudge : judge Op.chanSet chanSetH m false (takenUp Op.chanSet m s) = none :=
    judge_ready h chanSetH _ rfl (by simp [chanSetH, hloose]) hpos (fun _ => hlen.trans (by decide)) (by simp [chanSetH, hparse])
      rfl rfl rfl rfl
  refine interp_answers h.toPacketHead rfl rfl hjudge ?_ (by rw [resetting, hpw, h.noReset]; rfl)
  simp only [chanSetH, hparse, Option.getD_some, hset]

theorem exec_chanSet_accepted (hstate : itemStateOk s i = true) (hrange : itemRangeOk s i = true) :
    exec (.chanSet m) s = .next (replied m stOk [1] (applyItem i (takenUp Op.chanSet m s))) :=
  exec_chanSet h hparse hlen (setItems_accepted ((judgeItem_takenUp h hstate).trans (if_pos hrange)))
    ((applyItem_pw ..).trans (takenUp_took ..).pw_eq)

theorem exec_chanSet_refused (hstate : itemStateOk s i = true) (hrange : itemRangeOk s i = false) :
    exec (.chanSet m) s = .next (replied m stRange [0] (takenUp Op.chanSet m s)) :=
  exec_chanSet h hparse hlen (setItems_refused ((judgeItem_takenUp h hstate).trans (if_neg (Bool.eq_false_iff.1 hrange))))
    (takenUp_took ..).pw_eq

/-- An output value that is accepted waits in the governor or goes to the field die (R405, R406). -/
theorem exec_chanSet_value {o : HostOp} (hstate : itemStateOk s i = true) (hrange : itemRangeOk s i = true)
    (happly : applyItem i (takenUp Op.chanSet m s) = hostValue n o (takenUp Op.chanSet m s)) :
    (isStart s n o = true → exec (.chanSet m) s = .next (replied m stOk [1]
        (modGov (fun g => { g with waiting := g.waiting.filter (fun w => w.n != n) ++ [{ n := n, op := o, since := s.now, counted := 0 }] })
          (takenUp Op.chanSet m s))))
      ∧ (isStart s n o = false → exec (.chanSet m) s = .next (replied m stOk [1]
        (sendConf (chanGrp n) (.host (chanLidx n) o)
          (modGov (fun g => { g with waiting := g.waiting.filter fun w => w.n != n }) (takenUp Op.chanSet m s))))) := by
  have htook := takenUp_took Op.chanSet m s
  have hexec := exec_chanSet_accepted h hparse hlen hstate hrange
  rw [happly] at hexec
  refine ⟨fun hstart => ?_, fun hstart => ?_⟩
  · rw [hexec, hostValue_start ((htook.isStart ..).trans hstart), htook.now_eq]
  · rw [hexec, hostValue_sent ((htook.isStart ..).trans hstart)]

end

/-! ### CHAN_GET (R309, R314) -/

theorem exec_chanGet (h : PacketReady Op.chanGet m s) (hw : m.words = [m0, m1, m2]) : exec (.chanGet m) s =
    .next (if maskBad m0 m1 m2 then replied m stRange [] (takenUp Op.chanGet m s)
      else replied m stOk ((maskChans m0 m1 m2).flatMap (getWords (takenUp Op.chanGet m s))) (takenUp Op.chanGet m s)) := by
  have hexec : exec (.chanGet m) s = interp Op.chanGet chanGetH m s := rfl
  have hreset := takenUp_noReset Op.chanGet m s h.noReset
  have hjudge : judge Op.chanGet chanGetH m false (takenUp Op.chanGet m s) = if maskBad m0 m1 m2 then some stRange else none := by
    rw [judge_range (judge_ready h _ _ rfl rfl (by simp [hw]) (by simp [hw]) rfl rfl rfl rfl rfl)]
    have hrange : chanGetH.range (takenUp Op.chanGet m s) m = !maskBad m0 m1 m2 := by simp [chanGetH, pword, hw]
    rw [hrange]
    cases maskBad m0 m1 m2 <;> rfl
  by_cases hbad : maskBad m0 m1 m2 = true
  · have hlost : (m.stream != .none && (stRange == stAborted || stRange == stLength || stRange == stCheck)) = false :=
      Bool.and_false _
    rw [hexec, interp_refused h.toPacketHead _ _ (hjudge.trans (if_pos hbad)), hlost, if_pos hbad]
    exact congrArg _ (answer_reply hreset)
  · rw [if_neg hbad, hexec]
    exact interp_answers h.toPacketHead rfl rfl (hjudge.trans (if_neg hbad)) (by simp [chanGetH, pword, hw]) hreset

theorem maskBad_iff : maskBad m0 m1 m2 = true ↔ fld m2 8 12 ≠ 0 ∨ ∀ n : Chan, inMask m0 m1 m2 n = false := by
  have hall : ∀ n : Chan, n ∈ chans := List.mem_finRange
  simp [maskBad, maskChans, List.filter_eq_nil_iff, hall, or_comm]

/-! ### The statement -/

/-- Settles O13: a value by `exec_chanSet_value`, the other items by `exec_chanSet_accepted` and `exec_chanSet_refused`, CHAN_GET by
whether its mask is bad. -/
theorem channelCommands : Obligations.ChannelCommands := by
  unfold Obligations.ChannelCommands
  refine ⟨fun m n c v o s h hrun hwords hn hzero hitem => ?_, fun m n c v s h hrun hn hzero => ?_,
    fun m m0 m1 m2 s h hw => ⟨fun hzero hsome => ?_, fun hbad => ?_⟩⟩
  · by_cases hop : fld c 6 4 = 5
    · rw [if_pos hop] at hwords
      obtain ⟨hstate, hrange, happly⟩ := valueItem_sets (i := { cmd := c, val := v }) hrun hn hzero hitem fun _ => rfl
      exact exec_chanSet_value h (hwords ▸ parseItems_valued (.inr hop)) (by simp [hwords]) hstate hrange (happly _)
    · have hop' : fld c 6 4 ≠ 4 := fun hduty => by simp [hduty] at hitem
      rw [if_neg hop] at hwords
      obtain ⟨hstate, hrange, happly⟩ := valueItem_sets (i := { cmd := c, val := 0 }) hrun hn hzero hitem fun h5 => absurd h5 hop
      exact exec_chanSet_value h (hwords ▸ parseItems_bare hop' hop) (by simp [hwords]) hstate hrange (happly _)
  · have hchan : ∀ w, itemChan { cmd := c, val := w } = n := fun w => itemChan_eq hn
    refine ⟨fun hw hop hmode hpwm => ?_, fun hw hop hmode => ?_, fun hw hop hmode => ?_, fun hw hbad => ?_⟩
    · obtain ⟨hstate, hrange⟩ := commandItem_ok (i := { cmd := c, val := v }) hrun hn hzero (.inl ⟨hop, hmode, hpwm⟩)
      rw [exec_chanSet_accepted h (hw ▸ parseItems_valued (.inl hop)) (by simp [hw]) hstate hrange]
      simp [applyItem, SetItem.op, hop, hchan]
    · obtain ⟨hstate, hrange⟩ := commandItem_ok (i := { cmd := c, val := 0 }) hrun hn hzero (.inr (.inl ⟨hop, hmode⟩))
      rw [exec_chanSet_accepted h (hw ▸ parseItems_bare (by omega) (by omega)) (by simp [hw]) hstate hrange]
      simp [applyItem, SetItem.op, hop, hchan]
    · obtain ⟨hstate, hrange⟩ := commandItem_ok (i := { cmd := c, val := 0 }) hrun hn hzero (.inr (.inr ⟨hop, hmode⟩))
      rw [exec_chanSet_accepted h (hw ▸ parseItems_bare (by omega) (by omega)) (by simp [hw]) hstate hrange]
      simp [applyItem, SetItem.op, hop, hchan]
    · obtain ⟨hstate, hrange⟩ := barredItem (s := s) (i := { cmd := c, val := 0 }) hrun (hchan 0) hbad
      exact exec_chanSet_refused h (hw ▸ parseItems_bare (by omega) (by omega)) (by simp [hw]) hstate hrange
  · obtain ⟨n, hn⟩ := hsome
    have hgood : ¬maskBad m0 m1 m2 = true := fun hbad => by simpa [hzero, hn] using (maskBad_iff.1 hbad).imp_right (· n)
    rw [exec_chanGet h hw, if_neg hgood]
    rfl
  · rw [exec_chanGet h hw, if_pos (maskBad_iff.2 hbad)]

end Sys2Proof.Machine
end

section
/-! The half-word code (O56) 16_memory_integrity R468, R469. The code is linear: what a decode finds depends on the errors alone,
through their syndrome. What remains to look at are the error patterns of one and two bits. -/

namespace Sys2Proof.Machine

/-! ### The code is linear (R468) -/

theorem bit_xor {n : Nat} (a b : BitVec n) (i : Nat) : bit (a ^^^ b) i = (bit a i != bit b i) := BitVec.getLsbD_xor

/-- The column parity `i` (R468). -/
def colParity (d : BitVec 10) (i : Nat) : Bool := bit d i != bit d (i + 5)

/-- The row parity `r` (R468). -/
def rowParity (d : BitVec 10) (r : Nat) : Bool := (List.range 5).foldl (fun a c => a != bit d (5 * r + c)) false

theorem colParity_xor (a b : BitVec 10) (i : Nat) : colParity (a ^^^ b) i = (colParity a i != colParity b i) := by
  simp only [colParity, bit_xor]
  generalize bit a i = p, bit a (i + 5) = q, bit b i = u, bit b (i + 5) = v
  decide +revert

theorem rowParity_xor (a b : BitVec 10) (r : Nat) : rowParity (a ^^^ b) r = (rowParity a r != rowParity b r) := by
  have fold : ∀ (l : List Nat) (x y : Bool), l.foldl (fun z c => z != bit (a ^^^ b) (5 * r + c)) (x != y)
      = (l.foldl (fun z c => z != bit a (5 * r + c)) x != l.foldl (fun z c => z != bit b (5 * r + c)) y) := by
    intro l
    induction l with
    | nil => exact fun _ _ => rfl
    | cons c l ih =>
      intro x y
      simp only [List.foldl_cons, bit_xor, ← ih]
      congr 1
      generalize bit a (5 * r + c) = u, bit b (5 * r + c) = v
      decide +revert
  exact fold _ false false

/-- Seven bits put together as numbers stand in their places. -/
theorem xor_ofNat_bits (a0 a1 a2 a3 a4 a5 a6 b0 b1 b2 b3 b4 b5 b6 : Bool) :
    (let num := fun (x0 x1 x2 x3 x4 x5 x6 : Bool) => BitVec.ofNat 7
      (b2n x0 + 2 * b2n x1 + 4 * b2n x2 + 8 * b2n x3 + 16 * b2n x4 + 32 * b2n x5 + 64 * b2n x6)
    num (a0 != b0) (a1 != b1) (a2 != b2) (a3 != b3) (a4 != b4) (a5 != b5) (a6 != b6)
      = num a0 a1 a2 a3 a4 a5 a6 ^^^ num b0 b1 b2 b3 b4 b5 b6) := by
  decide +revert +kernel

theorem checkBits_eq (d : BitVec 10) : checkBits d = BitVec.ofNat 7 (b2n (colParity d 0) + 2 * b2n (colParity d 1)
    + 4 * b2n (colParity d 2) + 8 * b2n (colParity d 3) + 16 * b2n (colParity d 4) + 32 * b2n (rowParity d 0)
    + 64 * b2n (rowParity d 1)) := rfl

theorem checkBits_xor (a b : BitVec 10) : checkBits (a ^^^ b) = checkBits a ^^^ checkBits b := by
  simp only [checkBits_eq, colParity_xor, rowParity_xor]
  exact xor_ofNat_bits ..

theorem halfData_xor (a b : BitVec 17) : halfData (a ^^^ b) = halfData a ^^^ halfData b := BitVec.extractLsb'_xor

/-- The syndrome of a half-word (R469): the check bits of its data against those it holds. -/
def syndrome (h : BitVec 17) : BitVec 7 := checkBits (halfData h) ^^^ h.extractLsb' 10 7

theorem syndrome_xor (a b : BitVec 17) : syndrome (a ^^^ b) = syndrome a ^^^ syndrome b := by
  simp only [syndrome, halfData_xor, checkBits_xor, BitVec.extractLsb'_xor]
  ac_rfl

theorem syndrome_encHalf (d : BitVec 10) : syndrome (encHalf d) = 0#7 := by
  have hcheck : (encHalf d).extractLsb' 10 7 = checkBits d := by
    apply BitVec.eq_of_getLsbD_eq
    intro i hi
    simpa [hi, encHalf] using append_hi (checkBits d) d i
  rw [syndrome, halfData_encHalf, hcheck, BitVec.xor_self]

/-! ### What a decode finds (R469) -/

/-- The rows and columns that a syndrome shows. -/
def synRows (y : BitVec 7) : List Nat := (List.range 2).filter fun r => bit y (5 + r)
def synCols (y : BitVec 7) : List Nat := (List.range 5).filter fun c => bit y c

/-- The data bit that a syndrome blames, and what it says of the half-word. -/
def blame (y : BitVec 7) : BitVec 10 × Dec :=
  match synRows y, synCols y with
  | [], [] => (0, .ok)
  | [r], [c] => (BitVec.twoPow 10 (5 * r + c), .corrected)
  | [_], [] => (0, .corrected)
  | [], [_] => (0, .corrected)
  | _, _ => (0, .bad)

theorem decHalf_eq (h : BitVec 17) : decHalf h = if (blame (syndrome h)).2 = .corrected then
    (encHalf (halfData h ^^^ (blame (syndrome h)).1), .corrected) else (h, (blame (syndrome h)).2) := by
  have hdef : decHalf h = match synRows (syndrome h), synCols (syndrome h) with
      | [], [] => (h, .ok)
      | [r], [c] => (encHalf (halfData h ^^^ BitVec.twoPow 10 (5 * r + c)), .corrected)
      | [_], [] => (encHalf (halfData h), .corrected)
      | [], [_] => (encHalf (halfData h), .corrected)
      | _, _ => (h, .bad) := rfl
  rw [hdef, blame]
  split <;> simp

/-- What a decode makes of stored data depends on the errors `e` alone. -/
theorem decHalf_error (d : BitVec 10) (e : BitVec 17) : decHalf (encHalf d ^^^ e) = if (blame (syndrome e)).2 = .corrected then
    (encHalf (d ^^^ halfData e ^^^ (blame (syndrome e)).1), .corrected) else (encHalf d ^^^ e, (blame (syndrome e)).2) := by
  rw [decHalf_eq, syndrome_xor, syndrome_encHalf, BitVec.zero_xor, halfData_xor, halfData_encHalf]

theorem decHalf_found (d : BitVec 10) (e : BitVec 17) : (decHalf (encHalf d ^^^ e)).2 = (blame (syndrome e)).2 := by
  rw [decHalf_error]
  split
  · exact Eq.symm ‹_›
  · rfl

theorem decHalf_mended {e : BitVec 17} (h : (blame (syndrome e)).2 = .corrected) (d : BitVec 10) :
    decHalf (encHalf d ^^^ e) = (encHalf (d ^^^ (halfData e ^^^ (blame (syndrome e)).1)), .corrected) := by
  rw [decHalf_error, if_pos h, BitVec.xor_assoc]

/-! ### Errors of one and of two bits -/

theorem blame_single : ∀ i < 17, blame (syndrome (BitVec.twoPow 17 i)) = (halfData (BitVec.twoPow 17 i), .corrected) := by
  decide +kernel

theorem blame_twoData : ∀ j < 10, ∀ i < j, (blame (syndrome (BitVec.twoPow 17 i ^^^ BitVec.twoPow 17 j))).2 = .bad := by
  decide +kernel

theorem blame_twoCols : ∀ j < 15, ∀ i < j, 10 ≤ i → (blame (syndrome (BitVec.twoPow 17 i ^^^ BitVec.twoPow 17 j))).2 = .bad := by
  decide +kernel

theorem blame_twoRows : (blame (syndrome (BitVec.twoPow 17 15 ^^^ BitVec.twoPow 17 16))).2 = .bad := by decide +kernel

/-- A data bit and one of its own check bits: the syndrome shows the other check bit alone, and blames no data bit. -/
theorem blame_dataAndCheck : ∀ i < 10, ∀ j ∈ [10 + i % 5, 15 + i / 5],
    blame (syndrome (BitVec.twoPow 17 i ^^^ BitVec.twoPow 17 j)) = (0#10, .corrected)
    ∧ halfData (BitVec.twoPow 17 i ^^^ BitVec.twoPow 17 j) = BitVec.twoPow 10 i := by
  decide +kernel

/-! ### The statement -/

/-- Settles O56: by the linearity of the code (`decHalf_error`), and the error patterns one by one. -/
theorem halfWordCodeMends : Obligations.HalfWordCodeMends := by
  unfold Obligations.HalfWordCodeMends
  intro d i j
  have hpair : ∀ i j, encHalf d ^^^ BitVec.twoPow 17 i ^^^ BitVec.twoPow 17 j
      = encHalf d ^^^ (BitVec.twoPow 17 i ^^^ BitVec.twoPow 17 j) := fun i j => BitVec.xor_assoc ..
  simp only [hpair, decHalf_found]
  refine ⟨decHalf_encHalf d, halfData_encHalf d, fun hi => ?_, fun hij hj => blame_twoData j hj i hij,
    fun hi hij hj => blame_twoCols j hj i hij hi, blame_twoRows, fun hi hj => ?_⟩
  · have hb := blame_single i hi
    rw [decHalf_mended (by rw [hb]), hb, BitVec.xor_self, BitVec.xor_zero]
  · obtain ⟨hb, hd⟩ := blame_dataAndCheck i hi j (by simpa using hj)
    have hc : (blame (syndrome (BitVec.twoPow 17 i ^^^ BitVec.twoPow 17 j))).2 = .corrected := by rw [hb]
    rw [decHalf_mended hc]
    refine ⟨hc, ?_⟩
    rw [halfData_encHalf, hb, BitVec.xor_zero, hd]

end Sys2Proof.Machine
end

section
/-! CONTAINED and FATAL faults (O16): 15_faults_watchdog R440, R442, R444, R447 to R450. A report of such a fault is one of a few
composed operations, by what its domain holds and by the device state. The cask's record of the fault leaves all that the collector
and the power controller hold alone. -/

namespace Sys2Proof.Machine

variable {s t : State} {d : Fin 12} {c u : Nat}

/-! ### What a report does, case by case -/

/-- TOTAL of a fault that is not CORRECTED has gone up (R437). -/
def faultCounted (d : Fin 12) (c : Nat) (s : State) : State :=
  setFltCnt d.val c { fltCnt s d.val c with total := satInc (fltCnt s d.val c).total } s

/-- The cask's record of a fault and source 83 (R449, R509). -/
def faultNoted (d : Fin 12) (c u : Nat) (s : State) : State :=
  raise 83 (recFault d.val c 2 false u (logAdd d.val c 2 false u s))

theorem report_held (hclass : faultClass d.val c = some .contained) (hd : d.val ≠ 9) (hnone : heldAt s d = none) :
    report d c u s = freezeOnFault (faultNoted d c u (holdFault d c u false (faultCounted d c s))) := by
  have hfree : heldAt (faultCounted d c s) d = none := hnone
  have hcontain : report d c u s = contain d c u false (faultCounted d c s) := by simp only [report, hclass, faultCounted]
  rw [hcontain, contain]
  simp only [hfree, securityEvent, if_neg hd]
  rfl

theorem report_escalates {h : Held} (hclass : faultClass d.val c = some .contained) (hheld : heldAt s d = some h)
    (hdev : s.pw.dev ≠ .lockdown) :
    report d c u s = fatal d c u true h.cause.toNat h.unit.toNat (faultCounted d c s) := by
  have hheld' : heldAt (faultCounted d c s) d = some h := hheld
  have hcontain : report d c u s = contain d c u false (faultCounted d c s) := by simp only [report, hclass, faultCounted]
  rw [hcontain, contain]
  simp only [hheld']
  exact if_neg hdev

theorem report_lockdown {h : Held} (hclass : faultClass d.val c = some .contained) (hheld : heldAt s d = some h)
    (hdev : s.pw.dev = .lockdown) : report d c u s = faultNoted d c u (faultCounted d c s) := by
  have hheld' : heldAt (faultCounted d c s) d = some h := hheld
  have hcontain : report d c u s = contain d c u false (faultCounted d c s) := by simp only [report, hclass, faultCounted]
  rw [hcontain, contain]
  simp only [hheld']
  exact if_pos hdev

theorem report_fatal (hclass : faultClass d.val c = some .fatal) :
    report d c u s = fatal d c u false 0 0 (faultCounted d c s) := by simp only [report, hclass, faultCounted]

/-! ### The parts of a report -/

theorem recFault_rec (d c cls : Nat) (promoted : Bool) (u : Nat) (s : State) : RecStep s (recFault d c cls promoted u s) :=
  RecStep.ite _ ((RecStep.refl s).recNow ..) (RecStep.refl s)

theorem RecStep.flt_eq (h : RecStep s t) : t.flt = s.flt := by rw [h.1]
theorem RecStep.aon_eq (h : RecStep s t) : t.aon = s.aon := by rw [h.1]
theorem RecStep.wd_eq (h : RecStep s t) : t.wd = s.wd := by rw [h.1]

theorem tbNow_congr (hnow : t.now = s.now) (hpw : t.pw = s.pw) : tbNow t = tbNow s := by simp only [tbNow, hnow, hpw]

theorem freezeOnFault_cask (s : State) : freezeOnFault s = { s with cask := (freezeOnFault s).cask } := by
  unfold freezeOnFault
  split <;> rfl

theorem holdFault_none (hnone : heldAt s d = none) (promoted : Bool) : holdFault d c u promoted s
    = modFlt (fun f => { f with held := f.held.set d (some
        { cause := BitVec.ofNat 5 c, unit := BitVec.ofNat 6 u, promoted := promoted }) }) s := by
  simp only [holdFault, hnone]

/-- The log entry of a CONTAINED fault that is reported now (R450). -/
def faultEntry (d : Fin 12) (c u : Nat) (s : State) : LogEntry where
  domain := BitVec.ofNat 4 d.val
  cause := BitVec.ofNat 5 c
  cls := 2
  promoted := false
  unit := BitVec.ofNat 6 u
  seq := if s.flt.seq = 0xFFFFF then 1 else s.flt.seq + 1
  stamp := BitVec.ofNat 60 (tbNow s)

/-- What a noted fault leaves behind: a log entry, and nothing else of the collector, the always-on domain and the power
controller. -/
theorem faultNoted_keeps (d : Fin 12) (c u : Nat) (s : State) :
    (faultNoted d c u s).flt = { s.flt with
      seq := (faultEntry d c u s).seq, log := (faultEntry d c u s :: s.flt.log).take 64 }
    ∧ (faultNoted d c u s).pw = s.pw ∧ (faultNoted d c u s).aon = s.aon := by
  have hrec := recFault_rec d.val c 2 false u (logAdd d.val c 2 false u s)
  rw [faultNoted, raise_flt, raise_pw, raise_aon, hrec.flt_eq, hrec.pw_eq, hrec.aon_eq]
  exact ⟨rfl, rfl, rfl⟩

theorem faultNoted_shows (hlive : isLive s = true) : shows (faultNoted d c u s) 83 = true := by
  have hrec := recFault_rec d.val c 2 false u (logAdd d.val c 2 false u s)
  exact raise_shows 83 _ ((isLive_of_pw hrec.pw_eq).trans hlive)

theorem contMask_pos (hheld : (heldAt s d).isSome = true) : contMask s ≠ 0 := by
  have mono : ∀ (l : List (Fin 12)) (n : Nat), n ≤ l.foldl (fun m k => m + if (heldAt s k).isSome then 2 ^ k.val else 0) n := by
    intro l
    induction l with
    | nil => exact fun n => Nat.le_refl n
    | cons k l ih => exact fun n => (Nat.le_add_right ..).trans (ih _)
  have pos : ∀ (l : List (Fin 12)) (n : Nat), d ∈ l →
      0 < l.foldl (fun m k => m + if (heldAt s k).isSome then 2 ^ k.val else 0) n := by
    intro l
    induction l with
    | nil => exact fun n h => absurd h List.not_mem_nil
    | cons k l ih =>
      intro n hmem
      rcases List.mem_cons.1 hmem with rfl | hmem
      · refine lt_of_lt_of_le ?_ (mono l _)
        simp [hheld]
      · exact ih _ hmem
  exact Nat.pos_iff_ne_zero.1 (pos _ 0 (List.mem_finRange d))

theorem faultN_of_held (hlive : isLive s = true) (hheld : (heldAt s d).isSome = true) : faultN s = true := by
  have hmask := contMask_pos hheld
  unfold isLive at hlive
  unfold faultN
  split at hlive <;> simp_all

/-! ### FATAL (R442, R444, R447) -/

/-- In LOCKDOWN a FATAL fault is recorded, held and counted. -/
theorem fatal_lockdown {esc : Bool} {pc pu : Nat} (hdev : s.pw.dev = .lockdown) : ∃ v, RecStep s v ∧ fatal d c u esc pc pu s
    = modAon (fun a => { a with fatalCnt := satInc a.fatalCnt }) (holdFault d c u false v) := by
  have hrec := recFault_rec d.val c 3 false u s
  exact ⟨_, hrec, if_pos (by rw [hrec.pw_eq]; exact hdev)⟩

/-- Elsewhere the cask stops, the fatal record is written and a reset is recognised. -/
theorem fatal_resets {esc : Bool} {pc pu : Nat} (hdev : s.pw.dev ≠ .lockdown) : ∃ v, RecStep s v ∧ fatal d c u esc pc pu s
    = startReset 0x10 true (writeFrec d.val c u esc pc pu v) := by
  have hrec := recFault_rec d.val c 3 false u s
  exact ⟨_, RecStep.ite _ ((hrec.segClose ..).cask _) hrec, if_neg (by rw [hrec.pw_eq]; exact hdev)⟩

theorem startReset_recognised (cause : BitVec 7) (s : State) :
    ∃ q, (startReset cause true s).pw = { s.pw with resetSeq := some q } ∧ q.fatal = true ∧ q.cause &&& cause = cause := by
  refine ⟨_, rfl, ?_⟩
  cases s.pw.resetSeq with
  | none => exact ⟨rfl, BitVec.and_self⟩
  | some q =>
    refine ⟨by simp, ?_⟩
    apply BitVec.eq_of_getLsbD_eq
    intro i hi
    cases hbit : cause.getLsbD i <;> simp [hbit]

theorem startReset_aon (cause : BitVec 7) (f : Bool) (s : State) : (startReset cause f s).aon = s.aon := rfl
theorem startReset_flt (cause : BitVec 7) (f : Bool) (s : State) : (startReset cause f s).flt = s.flt := rfl
theorem startReset_now (cause : BitVec 7) (f : Bool) (s : State) : (startReset cause f s).now = s.now := rfl

/-- The fatal record as it is written where none is held (R447). -/
def frecNow (d : Fin 12) (c u : Nat) (esc : Bool) (pc pu : Nat) (s : State) : FatalRec where
  domain := BitVec.ofNat 4 d.val
  cause := BitVec.ofNat 5 c
  unit := BitVec.ofNat 6 u
  escalated := esc
  overrun := false
  acked := false
  priorCause := BitVec.ofNat 5 pc
  priorUnit := BitVec.ofNat 6 pu
  state := BitVec.ofNat 4 (devCode s.pw.dev)
  stamp := BitVec.ofNat 60 (tbNow s)
  angle := if angValid s then angNow s else 0

theorem writeFrec_aon (d : Fin 12) (c u : Nat) (esc : Bool) (pc pu : Nat) (s : State) :
    (writeFrec d.val c u esc pc pu s).aon = { s.aon with
      fatalCnt := satInc s.aon.fatalCnt, fatalHeld := true
      frec := if s.aon.fatalHeld then { s.aon.frec with overrun := true } else frecNow d c u esc pc pu s } := by
  unfold writeFrec
  cases hheld : s.aon.fatalHeld <;> simp [hheld, frecNow]

/-- A FATAL fault outside LOCKDOWN, as one statement. -/
theorem fatal_recorded (d : Fin 12) (c u : Nat) (esc : Bool) (pc pu : Nat) (hdev : s.pw.dev ≠ .lockdown) :
    ∃ v q, RecStep s v ∧ q.fatal = true ∧ q.cause &&& 0x10 = 0x10
      ∧ (fatal d c u esc pc pu s).pw = { s.pw with resetSeq := some q } ∧ (fatal d c u esc pc pu s).flt = s.flt
      ∧ (fatal d c u esc pc pu s).now = s.now
      ∧ (fatal d c u esc pc pu s).aon = { s.aon with
        fatalCnt := satInc s.aon.fatalCnt, fatalHeld := true
        frec := if s.aon.fatalHeld then { s.aon.frec with overrun := true } else frecNow d c u esc pc pu v } := by
  obtain ⟨v, hrec, heq⟩ := fatal_resets (d := d) (c := c) (u := u) (esc := esc) (pc := pc) (pu := pu) hdev
  obtain ⟨q, hpw, hfatal, hcause⟩ := startReset_recognised 0x10 (writeFrec d.val c u esc pc pu v)
  refine ⟨v, q, hrec, hfatal, hcause, ?_, ?_, ?_, ?_⟩
  · rw [heq, hpw, ← hrec.pw_eq]
    rfl
  · rw [heq, startReset_flt, ← hrec.flt_eq]
    rfl
  · rw [heq, startReset_now, ← hrec.now_eq]
    rfl
  · rw [heq, startReset_aon, writeFrec_aon, hrec.aon_eq]

/-! ### The outcomes -/

/-- What a domain holds after a CONTAINED fault. -/
def heldFault (c u : Nat) : Held := { cause := BitVec.ofNat 5 c, unit := BitVec.ofNat 6 u, promoted := false }

theorem heldAt_set {h : Option Held} {k : Fin 12} (hflt : t.flt.held = s.flt.held.set d h) :
    heldAt t k = if k = d then h else heldAt s k := by
  have hset : heldAt t k = (s.flt.held.set d h)[k] := congrArg (fun v : Vector (Option Held) 12 => v[k]) hflt
  rw [hset]
  by_cases hk : k = d
  · subst hk
    simp
  · rw [if_neg hk]
    exact Vector.getElem_set_ne _ _ (fun e => hk (Fin.ext e.symm))

/-- A CONTAINED fault in a domain that holds none (R440, R449, R450). -/
theorem report_contained (hclass : faultClass d.val c = some .contained) (hd : d.val ≠ 9) (hnone : heldAt s d = none) :
    (report d c u s).flt = { (faultCounted d c s).flt with
      held := s.flt.held.set d (some (heldFault c u))
      seq := (faultEntry d c u s).seq, log := (faultEntry d c u s :: s.flt.log).take 64 }
    ∧ (report d c u s).pw = s.pw ∧ (report d c u s).aon = s.aon
    ∧ (isLive s = true → shows (report d c u s) 83 = true) := by
  have hhold := holdFault_none (s := faultCounted d c s) (d := d) (c := c) (u := u) hnone false
  rw [report_held hclass hd hnone, freezeOnFault_cask, hhold]
  generalize hv : modFlt _ (faultCounted d c s) = v
  obtain ⟨hflt, hpw, haon⟩ := faultNoted_keeps d c u v
  refine ⟨hflt.trans ?_, hpw.trans ?_, haon.trans ?_, fun hlive => faultNoted_shows ?_⟩ <;> subst hv
  · rfl
  · rfl
  · rfl
  · exact hlive

/-- In LOCKDOWN a second CONTAINED fault of a domain is logged only (R442). -/
theorem report_contained_lockdown {h : Held} (hclass : faultClass d.val c = some .contained) (hheld : heldAt s d = some h)
    (hdev : s.pw.dev = .lockdown) :
    (report d c u s).flt = { (faultCounted d c s).flt with
      seq := (faultEntry d c u s).seq, log := (faultEntry d c u s :: s.flt.log).take 64 }
    ∧ (report d c u s).pw = s.pw ∧ (report d c u s).aon = s.aon := by
  rw [report_lockdown hclass hheld hdev]
  exact faultNoted_keeps d c u (faultCounted d c s)

/-- A FATAL fault in LOCKDOWN is counted, and held where its domain holds none (R442). -/
theorem report_fatal_lockdown (hclass : faultClass d.val c = some .fatal) (hdev : s.pw.dev = .lockdown) :
    (report d c u s).aon = { s.aon with fatalCnt := satInc s.aon.fatalCnt }
    ∧ (report d c u s).pw = s.pw ∧ (report d c u s).now = s.now
    ∧ (heldAt s d = none → heldAt (report d c u s) d = some (heldFault c u)) := by
  obtain ⟨v, hrec, hfatal⟩ := fatal_lockdown (d := d) (c := c) (u := u) (esc := false) (pc := 0) (pu := 0)
    (s := faultCounted d c s) hdev
  have hkeeps : (holdFault d c u false v).pw = v.pw ∧ (holdFault d c u false v).aon = v.aon
      ∧ (holdFault d c u false v).now = v.now := by
    unfold holdFault
    split <;> exact ⟨rfl, rfl, rfl⟩
  obtain ⟨hpw, haon, hnow⟩ := hkeeps
  rw [report_fatal hclass, hfatal]
  refine ⟨?_, hpw.trans hrec.pw_eq, hnow.trans hrec.now_eq, fun hnone => ?_⟩
  · rw [modAon_aon, haon, hrec.aon_eq]
    rfl
  · have hnone' : heldAt v d = none := by
      rw [heldAt, hrec.flt_eq]
      exact hnone
    rw [holdFault_none hnone']
    exact (heldAt_set rfl).trans (if_pos rfl)

/-- Settles O16: CONTAINED by whether the domain holds a fault and by LOCKDOWN, FATAL by LOCKDOWN. -/
theorem containedAndFatalFaults : Obligations.ContainedAndFatalFaults := by
  unfold Obligations.ContainedAndFatalFaults
  refine ⟨fun d c u s hlive hclass hd => ⟨fun hnone => ?_, fun h hheld hdev => ?_, fun h hheld hdev => ?_⟩,
    fun d c u s hclass => ?_⟩
  · obtain ⟨hflt, hpw, haon, hshows⟩ := report_contained (u := u.val) hclass hd hnone
    have hheld : ∀ k, heldAt (report d c.val u.val s) k = if k = d then some (heldFault c.val u.val) else heldAt s k :=
      fun k => heldAt_set (by rw [hflt])
    refine ⟨by rw [hheld, if_pos rfl]; rfl, fun k hk => by rw [hheld, if_neg hk], by rw [hflt]; rfl, by rw [hflt]; rfl,
      hshows hlive, ?_, hpw, haon⟩
    exact faultN_of_held (d := d) ((isLive_of_pw hpw).trans hlive) (by rw [hheld, if_pos rfl]; rfl)
  · obtain ⟨v, q, hrec, hfatal, hcause, hpw, hflt, hnow, haon⟩ :=
      fatal_recorded (s := faultCounted d c.val s) d c.val u.val true h.cause.toNat h.unit.toNat hdev
    rw [report_escalates hclass hheld hdev]
    refine ⟨by simp [resetting, hpw], fun q' hq' => ?_, by rw [haon], by rw [hflt]; rfl, fun hfree => ?_⟩
    · rw [hpw] at hq'
      obtain rfl := Option.some.inj hq'
      exact ⟨hfatal, hcause⟩
    · have hfree' : (faultCounted d c.val s).aon.fatalHeld = false := hfree
      simp [haon, hfree', frecNow]
  · obtain ⟨hflt, hpw, haon⟩ := report_contained_lockdown (u := u.val) hclass hheld hdev
    exact ⟨hpw, haon, by rw [hflt]; rfl, by rw [hflt]; rfl⟩
  · by_cases hdev : s.pw.dev = .lockdown
    · obtain ⟨haon, hpw, hnow, hhold⟩ := report_fatal_lockdown (u := u.val) hclass hdev
      exact ⟨by rw [haon], hnow, fun h => absurd hdev h, fun _ => ⟨hpw, by rw [haon], by rw [haon], hhold⟩⟩
    · obtain ⟨v, q, hrec, -, -, hpw, -, hnow, haon⟩ :=
        fatal_recorded (s := faultCounted d c.val s) d c.val u.val false 0 0 hdev
      rw [report_fatal hclass]
      refine ⟨by rw [haon]; rfl, hnow, fun _ => ⟨by rw [haon], by simp [resetting, hpw], fun hfree => ?_, fun hheld => ?_⟩,
        fun h => absurd h hdev⟩
      · have hfree' : (faultCounted d c.val s).aon.fatalHeld = false := hfree
        have hstate : v.pw.dev = s.pw.dev := congrArg Power.dev hrec.pw_eq
        simp [haon, hfree', frecNow, hstate]
      · have hheld' : (faultCounted d c.val s).aon.fatalHeld = true := hheld
        simp only [haon, hheld', if_true]
        rfl

end Sys2Proof.Machine
end

section
/-! Serves of the watchdog (O18, O19): 15_faults_watchdog R460 to R462, with the arrival of their packet at the front end
(04_host_ports R111 to R126, 05_packet_protocol R151). A serve is judged as it arrives, so the interpreter finds its buffer
empty. -/

namespace Sys2Proof.Machine

variable {s t : State} {m : Msg} {w : Word} {p : Port}

/-! ### The judgement (R461) -/

theorem injAt_unarmed (h : s.inj.armed = none) (d c : Nat) : injAt s d c = none := by simp only [injAt, h]

theorem injAt_armed {a : InjArm} {d c : Nat} (h : s.inj.armed = some a) :
    injAt s d c = if a.dom.toNat = d ∧ a.cause.toNat = c then some a else none := by simp only [injAt, h]

section
variable (hrun : s.wd.running = true)
include hrun

theorem judgeServe_owner (hinj : injAt s 11 5 = none) (howner : s.wd.owner ≠ some p) (k : Word) : judgeServe p k s
    = (stDenied, report 11 5 (pidx p).val (modWd (fun w => { w with foreign := satInc w.foreign, last := 4 }) s)) := by
  simp only [judgeServe, hrun, hinj, Option.isSome_none, Bool.not_true, Bool.false_eq_true, if_false]
  exact if_pos howner

theorem judgeServe_exchanged {a : InjArm} (hinj : injAt s 11 5 = some a) (howner : s.wd.owner = some p) (k : Word) : judgeServe p k s
    = (stDenied, injApplied (report 11 5 (pidx (pother p)).val
        (modWd (fun w => { w with foreign := satInc w.foreign, last := 4 }) s))) := by
  have hother : some p ≠ some (pother p) := fun e => pother_ne p (Option.some.inj e).symm
  simp only [judgeServe, hrun, hinj, howner, Option.isSome_some, if_true, Bool.not_true, Bool.false_eq_true, if_false]
  exact if_pos hother

variable (hinj : injAt s 11 5 = none) (howner : s.wd.owner = some p)
include hinj howner

theorem judgeServe_late (htime : s.wd.timeout.toNat ≤ wdCount s) (k : Word) :
    judgeServe p k s = (stFault, report 11 2 63 (wdStop s)) := by
  simp only [judgeServe, hrun, hinj, howner, htime, ne_eq, not_true, if_true, Option.isSome_none, Bool.not_true, Bool.false_eq_true, if_false]
  rfl

variable (htime : wdCount s < s.wd.timeout.toNat)
include htime

theorem judgeServe_early (hearly : wdCount s < s.wd.close.toNat ∨ (injAt s 11 3).isSome = true) (k : Word) : judgeServe p k s
    = (stFault, (if (injAt s 11 3).isSome then injApplied else id)
        (report 11 3 (pidx p).val (modWd (fun w => { w with early := satInc w.early, last := 2 }) s))) := by
  simp only [judgeServe, hrun, hinj, howner, Nat.not_le.2 htime, if_pos hearly, ne_eq, not_true,
    Option.isSome_none, Bool.not_true, Bool.false_eq_true, if_false]
  cases (injAt s 11 3).isSome <;> rfl

variable (hclose : s.wd.close.toNat ≤ wdCount s) (hinj3 : injAt s 11 3 = none)
include hclose hinj3

theorem judgeServe_wrong {k : Word} (hwrong : k ≠ nextToken s.wd.token ∨ (injAt s 11 4).isSome = true) : judgeServe p k s
    = (stFault, (if (injAt s 11 4).isSome then injApplied else id)
        (report 11 4 (pidx p).val (modWd (fun w => { w with wrong := satInc w.wrong, last := 3 }) s))) := by
  simp only [judgeServe, hrun, hinj, howner, Nat.not_le.2 htime, Nat.not_lt.2 hclose, hinj3, ne_eq, not_true,
    or_self, Option.isSome_none, Bool.not_true, Bool.false_eq_true, if_false]
  rw [if_pos hwrong]
  cases (injAt s 11 4).isSome <;> rfl

theorem judgeServe_good (hinj4 : injAt s 11 4 = none) : judgeServe p (nextToken s.wd.token) s = (stOk, modWd (fun w => { w with
    token := nextToken s.wd.token, last := 1, zero := s.now, base := 0, warned := false }) s) := by
  simp only [judgeServe, hrun, hinj, howner, Nat.not_le.2 htime, Nat.not_lt.2 hclose, hinj3, hinj4, ne_eq,
    not_true, or_self, Option.isSome_none, Bool.not_true, Bool.false_eq_true, if_false]
  rfl

end

/-! ### The words of a header (R142) -/

theorem mkH0_bits (op : Op) (m : Msg) {i : Nat} (hi : i < 20) : (mkH0 op m).getLsbD i
    = (decide (12 ≤ i) && op.getLsbD (i - 12) || decide (5 ≤ i) && m.tag.getLsbD (i - 5)
      || decide (3 ≤ i) && m.lanes.getLsbD (i - 3) || decide (2 ≤ i) && (b2n m.wake).testBit (i - 2)) := by
  rw [mkH0, pack, BitVec.getLsbD_ofNat]
  simp only [hi, List.foldl_cons, List.foldl_nil, Nat.zero_or, Nat.testBit_or, Nat.testBit_shiftLeft, BitVec.testBit_toNat,
    decide_true, Bool.true_and, ge_iff_le]

theorem b2n_testBit_succ (b : Bool) (i : Nat) : (b2n b).testBit (i + 1) = false := by
  cases b <;> simp [b2n, Nat.testBit_succ]

theorem hdrOp_mkH0 (op : Op) (m : Msg) : hdrOp (mkH0 op m) = op := by
  apply BitVec.eq_of_getLsbD_eq
  intro i hi
  have hwake := b2n_testBit_succ m.wake (9 + i)
  rw [show 9 + i + 1 = 12 + i - 2 by omega] at hwake
  rw [hdrOp, BitVec.getLsbD_extractLsb', mkH0_bits _ _ (by omega), hwake]
  simp [hi, show 12 + i - 5 = i + 7 by omega, show 12 + i - 3 = i + 9 by omega]

theorem hdrTag_mkH0 (op : Op) (m : Msg) : hdrTag (mkH0 op m) = m.tag := by
  apply BitVec.eq_of_getLsbD_eq
  intro i hi
  have hwake := b2n_testBit_succ m.wake (2 + i)
  rw [show 2 + i + 1 = 5 + i - 2 by omega] at hwake
  rw [hdrTag, BitVec.getLsbD_extractLsb', mkH0_bits _ _ (by omega), hwake]
  simp [hi, show ¬ 12 ≤ 5 + i by omega, show 5 + i - 3 = i + 2 by omega]

theorem hdrLanes_mkH0 (op : Op) (m : Msg) : hdrLanes (mkH0 op m) = m.lanes.toNat := by
  have hbits : (mkH0 op m).extractLsb' 3 2 = m.lanes := by
    apply BitVec.eq_of_getLsbD_eq
    intro i hi
    have hwake := b2n_testBit_succ m.wake i
    rw [BitVec.getLsbD_extractLsb', mkH0_bits _ _ (by omega), show 3 + i - 2 = i + 1 by omega, hwake]
    simp [hi, show ¬ 12 ≤ 3 + i by omega, show ¬ 5 ≤ 3 + i by omega]
  rw [hdrLanes, fld, ← hbits, BitVec.extractLsb'_toNat]

theorem wake_mkH0 (op : Op) (m : Msg) : bit (mkH0 op m) 2 = m.wake := by
  rw [bit, mkH0_bits _ _ (by omega)]
  cases m.wake <;> simp [b2n]

theorem reserved_mkH0 (op : Op) (m : Msg) : fld (mkH0 op m) 0 2 = 0 := by
  have hbits : (mkH0 op m).extractLsb' 0 2 = 0#2 := by
    apply BitVec.eq_of_getLsbD_eq
    intro i hi
    rw [BitVec.getLsbD_extractLsb', Nat.zero_add, mkH0_bits _ _ (by omega)]
    simp [show ¬ 12 ≤ i by omega, show ¬ 5 ≤ i by omega, show ¬ 3 ≤ i by omega, show ¬ 2 ≤ i by omega]
  have hnum := BitVec.extractLsb'_toNat 0 2 (mkH0 op m)
  rw [hbits] at hnum
  exact hnum.symm

theorem hdrLen_hdrWord1 (h0 : Word) {n : Nat} (hn : n < 4096) : hdrLen (hdrWord1 h0 n) = n := by
  have hcrc : ∀ c : BitVec 8, (c.setWidth 20).toNat / 256 = 0 := fun c => by
    rw [BitVec.toNat_setWidth]
    omega
  rw [hdrLen, hdrWord1, fld, BitVec.toNat_or, Nat.shiftRight_or_distrib, Nat.shiftRight_eq_div_pow,
    Nat.shiftRight_eq_div_pow _ 8, hcrc, BitVec.toNat_ofNat, Nat.or_zero]
  omega

/-! ### The arrival of a serve -/

/-- The port of a serve as the judgement finds it: selected, its header and payload received (R111, R126). -/
def serveReady (m : Msg) (s : State) : State :=
  modPort m.port (fun x => { x with
    selected := true, ignoring := false, gotPacket := true, rx := .header, tx := [], lastCs := s.now, wakeLvl := false
    tags := setBit x.tags m.tag.toNat true }) (restartTaps m.port s)

/-- CS_N has risen after a packet (R125). -/
def deselected (p : Port) (s : State) : State :=
  modPort p (fun x => { x with selected := false, ignoring := false, gotPacket := false, rx := .header, tx := [] }) s

theorem ServeArrives.portOpen (h : ServeArrives m w s) : portOpen s = true := by
  simp [Machine.portOpen, resetting, h.live, h.noReset, h.noEntry]

/-- An awake port that works is selected (R111, R114). -/
theorem selectOn_awake (hopen : portOpen s = true) (hawake : (prt s p).awake = true) : selectOn p s
    = modPort p (fun x => { x with
        selected := true, ignoring := false, gotPacket := false, rx := .header, tx := [], lastCs := s.now, wakeLvl := false })
      (restartTaps p s) := by
  have hcomm : ∀ f, restartTaps p (modPort p f s) = modPort p f (restartTaps p s) := fun _ => rfl
  have hprt : ∀ q, prt (restartTaps p s) q = prt s q := fun _ => rfl
  simp only [selectOn, hopen, if_true, hcomm, prt_modPort_same, hprt, hawake, modPort_modPort]

theorem cmdFree_idle {x : PortSt} (hbuf : x.cmdBuf = []) (hrx : x.rx = .header) : cmdFree s x = 2048 := by
  simp [cmdFree, bufUsed, hbuf, hrx]

theorem payloadIn_serve {h0 : Word} (hinj : injAt s 8 2 = none) (hop : hdrOp h0 = Op.wdServe) :
    payloadIn p h0 [w] true s = serveIn p h0 w (modPort p (fun x => { x with rx := .header, gotPacket := true }) s) := by
  simp [payloadIn, hinj, hop]

/-- The packet of a serve reaches the judgement. -/
theorem deliverPacket_serve (h : ServeArrives m w s) :
    deliverPacket Op.wdServe m (selectOn m.port s) = serveIn m.port (mkH0 Op.wdServe m) w (serveReady m s) := by
  have hlen : hdrLen (hdrWord1 (mkH0 Op.wdServe m) 1) = 1 := hdrLen_hdrWord1 _ (by omega)
  rw [selectOn_awake h.portOpen h.awake]
  generalize hv : modPort m.port _ (restartTaps m.port s) = v
  have hport : prt v m.port = { prt s m.port with
      selected := true, ignoring := false, gotPacket := false, rx := .header, tx := [], lastCs := s.now, wakeLvl := false } := by
    rw [← hv, prt_modPort_same]
    rfl
  have hcfg : v.cfgJob = none := by
    rw [← hv]
    exact h.noCfg
  have hinj : ∀ (u : State) d c, u.inj = v.inj → injAt u d c = none := fun u d c hu => by
    refine injAt_unarmed (s := u) ?_ d c
    rw [hu, ← hv]
    exact h.noInj
  have htag : bit (prt v m.port).tags (hdrTag (mkH0 Op.wdServe m)).toNat = false := by
    rw [hdrTag_mkH0, hport]
    exact h.tagFree
  have hlanes : hdrLanes (mkH0 Op.wdServe m) ≠ 3 := by
    have := h.lanes
    rw [hdrLanes_mkH0]
    omega
  have hwake : wakeOk v m.port (mkH0 Op.wdServe m) = true := by
    have hvint : portVintage v m.port = max 1 (prt s m.port).vintage.toNat := by rw [portVintage, hport]
    rw [wakeOk, wake_mkH0, hvint]
    cases hw : m.wake with
    | false => rfl
    | true => simp [h.wake hw]
  have hnone : hdrRefusal v m.port (hdrOp (mkH0 Op.wdServe m)) (hdrLen (hdrWord1 (mkH0 Op.wdServe m) 1)) = none := by
    have hfree : cmdFree v (prt v m.port) = 2048 := cmdFree_idle (by rw [hport]; exact h.empty) (by rw [hport])
    rw [hdrOp_mkH0, hlen, hdrRefusal, hfree]
    rfl
  have hop : hdrOp (mkH0 Op.wdServe m) ≠ Op.fetch := by
    rw [hdrOp_mkH0]
    decide
  have hhdr : headerIn m.port (mkH0 Op.wdServe m) (hdrWord1 (mkH0 Op.wdServe m) 1) v
      = modPort m.port (fun x => { x with
          tags := setBit x.tags m.tag.toNat true
          rx := .payload (mkH0 Op.wdServe m) (hdrWord1 (mkH0 Op.wdServe m) 1) .accept }) v := by
    rw [headerIn_uninjected hcfg (hinj v 8 1 rfl), hlen, if_neg (fun hne => hne rfl), if_neg hop,
      commandHdr_received htag hlanes (reserved_mkH0 ..) hwake hnone (by omega) (by omega), hdrTag_mkH0]
  rw [deliverPacket, if_pos h.plain, h.words, List.length_singleton, hhdr]
  simp only [prt_modPort_same]
  rw [h.good, payloadIn_serve ?_ (hdrOp_mkH0 ..), modPort_modPort, ← hv, modPort_modPort]
  · rfl
  · exact hinj _ 8 2 rfl

/-! ### The end of the select -/

/-- A port that has received a packet and holds no command. -/
def Received (p : Port) (s : State) : Prop := (prt s p).rx = .header ∧ (prt s p).gotPacket = true ∧ (prt s p).cmdBuf = []

theorem serveReady_received (h : ServeArrives m w s) : Received m.port (serveReady m s) := by
  unfold Received serveReady
  rw [prt_modPort_same]
  exact ⟨rfl, rfl, h.empty⟩

theorem selectOff_received (h : Received p s) : selectOff p false s = deselected p s := by
  obtain ⟨hrx, hgot, -⟩ := h
  simp only [selectOff, hrx, hgot, if_true, whenSt, Bool.false_eq_true, if_false, ite_self]
  rfl

/-- What becomes of a port when a reset is recognised (R86). -/
def silenced (x : PortSt) : PortSt := { x with ignoring := true, rx := .header, tx := [] }

/-- A report changes the ports only by a reset that it starts. -/
def PortsMay (s t : State) : Prop := t.ports = s.ports ∨ t.ports = s.ports.map silenced

theorem PortsMay.received (h : PortsMay s t) (hs : Received p s) : Received p t := by
  rcases h with h | h
  · simpa only [Received, prt_of_ports h] using hs
  · have hport : prt t p = silenced (prt s p) := by
      rw [prt, h]
      exact Vector.getElem_map ..
    obtain ⟨-, hgot, hbuf⟩ := hs
    exact ⟨by rw [hport]; rfl, by rw [hport]; exact hgot, by rw [hport]; exact hbuf⟩

theorem RecStep.fatalPorts {v : State} (h : RecStep s v) (d : Fin 12) (c u : Nat) (esc : Bool) (pc pu : Nat) :
    PortsMay s (startReset 0x10 true (writeFrec d.val c u esc pc pu v)) := by
  refine .inr ?_
  rw [← h.ports]
  rfl

theorem faultNoted_ports (d : Fin 12) (c u : Nat) (s : State) : (faultNoted d c u s).ports = s.ports := by
  rw [faultNoted, raise_ports, (recFault_rec ..).ports]
  rfl

/-- A CONTAINED fault outside domain 9 touches the ports by an escalation at most. -/
theorem report_contained_ports {d : Fin 12} {c : Nat} (hclass : faultClass d.val c = some .contained) (hd : d.val ≠ 9) (u : Nat) :
    PortsMay s (report d c u s) := by
  cases hheld : heldAt s d with
  | none =>
    refine .inl ?_
    have hfree : heldAt (faultCounted d c s) d = none := hheld
    rw [report_held hclass hd hheld, freezeOnFault_cask]
    exact (faultNoted_ports ..).trans (by rw [holdFault_none hfree]; rfl)
  | some h =>
    by_cases hdev : s.pw.dev = .lockdown
    · refine .inl ?_
      rw [report_lockdown hclass hheld hdev]
      exact faultNoted_ports ..
    · obtain ⟨v, hrec, hfatal⟩ := fatal_resets (d := d) (c := c) (u := u) (esc := true) (pc := h.cause.toNat)
        (pu := h.unit.toNat) (s := faultCounted d c s) hdev
      rw [report_escalates hclass hheld hdev, hfatal]
      exact hrec.fatalPorts ..

theorem queueReply_empty {st : Status} {tag : BitVec 7} {wake : Bool} (p : Port) (s : State) : queueReply p st tag wake [] s =
    let r : Reply := { status := st, tag := tag, wake := wake, cells := [], queuedAt := s.now }
    if (prt s p).waiting = [] ∧ replyFits (prt s p) 0 = true then
      replyNoted p wake (srcReply p) (fun x => { x with replyQ := x.replyQ ++ [r] }) s
    else replyNoted p wake (srcWaiting p) (fun x => { x with waiting := x.waiting ++ [r] }) s := by
  have hcells : encCells (replyM p) [] s = ([], s) := by simp [encCells]
  simp only [queueReply, hcells, List.isEmpty_iff, List.length_nil]
  by_cases hfit : (prt s p).waiting = [] ∧ replyFits (prt s p) 0 = true
  · simp only [if_pos hfit, replyNoted]
  · simp only [if_neg hfit, replyNoted]

theorem replyNoted_received {wake : Bool} {n : Fin 96} {f : PortSt → PortSt}
    (hf : (f (prt s p)).rx = (prt s p).rx ∧ (f (prt s p)).gotPacket = (prt s p).gotPacket ∧ (f (prt s p)).cmdBuf = (prt s p).cmdBuf)
    (h : Received p s) : Received p (replyNoted p wake n f s) := by
  obtain ⟨hrx, hgot, hbuf⟩ := hf
  unfold Received
  rw [replyNoted_port]
  exact ⟨hrx.trans h.1, hgot.trans h.2.1, hbuf.trans h.2.2⟩

/-- The answer to a serve (R83, R462). -/
def serveAnswered (m : Msg) (r : Status × State) : State :=
  if resetting r.2 then r.2 else queueReply m.port r.1 m.tag m.wake [] r.2

theorem serveAnswered_received {r : Status × State} (h : Received m.port r.2) : Received m.port (serveAnswered m r) := by
  unfold serveAnswered
  split
  · exact h
  · rw [queueReply_empty]
    dsimp only
    split <;> exact replyNoted_received ⟨rfl, rfl, rfl⟩ h

theorem takeCmd_empty {op : Op} (hopen : portOpen s = true) (hpacket : (prt s m.port).daisy = false)
    (hempty : (prt (arrive op m s) m.port).cmdBuf = []) : takeCmd op m s = (none, arrive op m s) := by
  simp [takeCmd, hopen, hpacket, hempty]

/-- A serve that arrives is judged and answered, and the port is deselected. -/
theorem exec_wdServe (h : ServeArrives m w s) (hports : PortsMay (serveReady m s) (judgeServe m.port w (serveReady m s)).2) :
    exec (.wdServe m) s = .next (deselected m.port (serveAnswered m (judgeServe m.port w (serveReady m s)))) := by
  have hserve : serveIn m.port (mkH0 Op.wdServe m) w (serveReady m s)
      = serveAnswered m (judgeServe m.port w (serveReady m s)) := by
    unfold serveIn serveAnswered
    rw [hdrTag_mkH0, wake_mkH0]
  have hrec := serveAnswered_received (m := m) (hports.received (serveReady_received h))
  have harrive : arrive Op.wdServe m s = deselected m.port (serveAnswered m (judgeServe m.port w (serveReady m s))) := by
    simp only [arrive, h.empty, h.idle, deliverPacket_serve h, hserve, selectOff_received hrec]
    rfl
  have hempty : (prt (arrive Op.wdServe m s) m.port).cmdBuf = [] := by
    rw [harrive, deselected, prt_modPort_same]
    exact hrec.2.2
  have hexec : exec (.wdServe m) s = interp Op.wdServe wdServeH m s := rfl
  rw [hexec, interp, takeCmd_empty h.portOpen h.packet hempty]
  exact congrArg _ harrive

theorem queueReply_empty_frame {st : Status} {tag : BitVec 7} {wake : Bool} (p : Port) (s : State) :
    queueReply p st tag wake [] s = { s with
      ports := (queueReply p st tag wake [] s).ports, irq := (queueReply p st tag wake [] s).irq } := by
  rw [queueReply_empty]
  dsimp only
  split <;> exact replyNoted_ports_irq

theorem serveAnswered_wd (r : Status × State) : (serveAnswered m r).wd = r.2.wd := by
  unfold serveAnswered
  split
  · rfl
  · rw [queueReply_empty_frame]

/-! ### The statements -/

theorem serveReady_readings (m : Msg) (s : State) : (serveReady m s).wd = s.wd ∧ (serveReady m s).inj = s.inj
    ∧ (serveReady m s).now = s.now ∧ wdCount (serveReady m s) = wdCount s := ⟨rfl, rfl, rfl, rfl⟩

/-- The state after a good serve. -/
def serveTaken (m : Msg) (w : Word) (s : State) : State :=
  modWd (fun x => { x with token := w, last := 1, zero := s.now, base := 0, warned := false }) (serveReady m s)

theorem serveTaken_port (m : Msg) (w : Word) (s : State) : prt (serveTaken m w s) m.port = { prt s m.port with
    selected := true, ignoring := false, gotPacket := true, rx := .header, tx := [], lastCs := s.now, wakeLvl := false
    tags := setBit (prt s m.port).tags m.tag.toNat true } := prt_modPort_same m.port _ (restartTaps m.port s)

theorem serveTaken_other (m : Msg) (w : Word) (s : State) : prt (serveTaken m w s) (pother m.port) = prt s (pother m.port) :=
  prt_modPort_other m.port _ (restartTaps m.port s)

theorem serveTaken_queued (h : ServeArrives m w s) : queueReply m.port stOk m.tag m.wake [] (serveTaken m w s)
    = replyNoted m.port m.wake (srcReply m.port) (fun x => { x with
        replyQ := x.replyQ ++ [{ status := stOk, tag := m.tag, wake := m.wake, cells := [], queuedAt := s.now }] })
      (serveTaken m w s) := by
  have hfits : (prt (serveTaken m w s) m.port).waiting = [] ∧ replyFits (prt (serveTaken m w s) m.port) 0 = true := by
    rw [serveTaken_port]
    exact ⟨h.noWait, h.fits⟩
  rw [queueReply_empty]
  exact if_pos hfits

theorem restartTaps_tap (p : Port) (s : State) (k : Fin 32) : (restartTaps p s).taps[k]
    = if s.taps[k].holder = some p then { s.taps[k] with since := s.now } else s.taps[k] := by
  have hmap : (restartTaps p s).taps[k] = (s.taps.map fun t => if t.holder = some p then { t with since := s.now } else t)[k] := rfl
  rw [hmap]
  exact Vector.getElem_map ..

section
variable (h : ServeArrives m w s) (hrun : s.wd.running = true) (howner : s.wd.owner = some m.port)
  (htime : wdCount s < s.wd.timeout.toNat) (hclose : s.wd.close.toNat ≤ wdCount s)
include h hrun howner htime hclose

/-- A serve in its window with the wrong token is reported (R461). -/
theorem exec_wdServe_wrong (hwrong : w ≠ nextToken s.wd.token) :
    ∃ t, exec (.wdServe m) s = .next t ∧ t.wd = { s.wd with wrong := satInc s.wd.wrong, last := 3 } := by
  have hinj : ∀ d c, injAt (serveReady m s) d c = none := injAt_unarmed (s := serveReady m s) h.noInj
  have hjudge : judgeServe m.port w (serveReady m s) = (stFault, report 11 4 (pidx m.port).val
      (modWd (fun w => { w with wrong := satInc w.wrong, last := 3 }) (serveReady m s))) := by
    rw [judgeServe_wrong (s := serveReady m s) hrun (hinj 11 5) howner htime hclose (hinj 11 3) (.inl hwrong), hinj 11 4]
    rfl
  generalize hv : modWd _ (serveReady m s) = v at hjudge
  have hports : PortsMay (serveReady m s) (judgeServe m.port w (serveReady m s)).2 := by
    rw [hjudge]
    have hv' : v.ports = (serveReady m s).ports := by rw [← hv]; rfl
    simpa only [PortsMay, hv'] using report_contained_ports (s := v) (d := 11) (c := 4) rfl (by decide) (pidx m.port).val
  have hstep : FltStep v (report 11 4 (pidx m.port).val v) := (FltStep.refl v).report (.inl (by decide)) ..
  refine ⟨_, exec_wdServe h hports, ?_⟩
  have hwd : (report 11 4 (pidx m.port).val v).wd = v.wd := by rw [hstep.1]
  rw [hjudge]
  exact (serveAnswered_wd _).trans (hwd.trans (by rw [← hv]; rfl))

/-- A good serve starts a new count (R461, R462). -/
theorem exec_wdServe_good (hgood : w = nextToken s.wd.token) :
    exec (.wdServe m) s = .next (deselected m.port (queueReply m.port stOk m.tag m.wake [] (serveTaken m w s))) := by
  have hinj : ∀ d c, injAt (serveReady m s) d c = none := injAt_unarmed (s := serveReady m s) h.noInj
  have hjudge := judgeServe_good (s := serveReady m s) hrun (hinj 11 5) howner htime hclose (hinj 11 3) (hinj 11 4)
  have htoken : nextToken (serveReady m s).wd.token = w := hgood.symm
  rw [htoken] at hjudge
  rw [exec_wdServe h (by rw [hjudge]; exact .inl rfl), hjudge, serveAnswered, if_neg]
  · rfl
  · have hreset : (serveReady m s).pw.resetSeq = none := h.noReset
    simp [resetting, hreset]

end

/-- Settles O18: the tokens as numbers, and the serves on either side of the right token. -/
theorem tokenSequence : Obligations.TokenSequence := by
  unfold Obligations.TokenSequence
  refine ⟨fun t => ?_, fun m w s h hrun howner htime hclose => ?_, fun seed s => rfl⟩
  · simp [nextToken, BitVec.toNat_add, BitVec.toNat_mul]
  · by_cases hgood : w = nextToken s.wd.token
    · have hwd : (deselected m.port (queueReply m.port stOk m.tag m.wake [] (serveTaken m w s))).wd = (serveTaken m w s).wd := by
        rw [queueReply_empty_frame]
        rfl
      refine ⟨_, exec_wdServe_good h hrun howner htime hclose hgood, ?_, fun _ => congrArg Wdog.token hwd, fun hne => absurd hgood hne⟩
      exact ⟨fun _ => hgood, fun _ => congrArg Wdog.last hwd⟩
    · obtain ⟨t, hexec, hwd⟩ := exec_wdServe_wrong h hrun howner htime hclose hgood
      have hlast : t.wd.last = 3 := congrArg Wdog.last hwd
      refine ⟨t, hexec, ?_, fun he => absurd he hgood, fun _ => by rw [hwd]⟩
      rw [hlast]
      exact ⟨fun he => absurd he (by decide), fun he => absurd he hgood⟩

/-- Settles O19: a good serve by what is queued and what its port and taps were, the judgement case by case. -/
theorem servesAreJudged : Obligations.ServesAreJudged := by
  unfold Obligations.ServesAreJudged
  refine ⟨fun m s h hrun howner htime hclose => ?_, fun p k s => ⟨fun hoff => ?_, fun hrun hnone => ?_, fun a harm hdom hrun howner => ?_⟩⟩
  · have hframe := queueReply_empty_frame (st := stOk) (tag := m.tag) (wake := m.wake) m.port (serveTaken m (nextToken s.wd.token) s)
    refine ⟨_, exec_wdServe_good h hrun howner htime hclose rfl, ?_, ?_, ?_, ?_, fun k => ?_⟩
    · generalize queueReply m.port stOk m.tag m.wake [] _ = q at hframe ⊢
      rw [hframe]
      rfl
    · exact congrArg State.wd hframe
    · rw [deselected, prt_modPort_same]
      exact (congrArg (fun u => (prt u m.port).replyQ) (serveTaken_queued h)).trans (by rw [replyNoted_port, serveTaken_port])
    · rw [deselected, prt_modPort_other]
      exact (congrArg (fun u => prt u (pother m.port)) (serveTaken_queued h)).trans (by rw [replyNoted_other, serveTaken_other])
    · exact (congrArg (fun u : State => u.taps[k]) hframe).trans (restartTaps_tap m.port s k)
  · simp only [judgeServe, hoff]
    rfl
  · have hinj := injAt_unarmed hnone
    refine ⟨fun hother => judgeServe_owner hrun (hinj 11 5) hother k, fun howner => ⟨fun hlate => ?_, fun htime hearly => ?_,
      fun htime hclose hwrong => ?_, fun htime hclose hgood => ?_⟩⟩
    · exact judgeServe_late hrun (hinj 11 5) howner hlate k
    · rw [judgeServe_early hrun (hinj 11 5) howner htime (.inl hearly), hinj 11 3]
      rfl
    · rw [judgeServe_wrong hrun (hinj 11 5) howner htime hclose (hinj 11 3) (.inl hwrong), hinj 11 4]
      rfl
    · rw [hgood]
      exact judgeServe_good hrun (hinj 11 5) howner htime hclose (hinj 11 3) (hinj 11 4)
  · have hinj : ∀ c, injAt s 11 c = if a.cause.toNat = c then some a else none := fun c => by
      rw [injAt_armed harm, hdom]
      simp
    refine ⟨fun hcause => ?_, fun hcause htime => ?_, fun hcause htime hclose => ?_⟩
    · exact judgeServe_exchanged hrun (a := a) (by rw [hinj, hcause]; rfl) howner k
    · have h3 : injAt s 11 3 = some a := by rw [hinj, hcause]; rfl
      rw [judgeServe_early hrun (by rw [hinj, hcause]; rfl) howner htime (.inr (by rw [h3]; rfl)), h3]
      rfl
    · have h4 : injAt s 11 4 = some a := by rw [hinj, hcause]; rfl
      rw [judgeServe_wrong hrun (by rw [hinj, hcause]; rfl) howner htime hclose (by rw [hinj, hcause]; rfl)
        (.inr (by rw [h4]; rfl)), h4]
      rfl

end Sys2Proof.Machine
end

section
/-! WD_CONFIG and the watchdog's own events (O20): 15_faults_watchdog R456, R458, R463 to R465. -/

namespace Sys2Proof.Machine

variable {s t : State} {m : Msg} {op : Op}

/-! ### Commands that are answered at once -/

theorem Took.wd_eq (h : Took s t) : t.wd = s.wd := by rw [h.1]
theorem Took.sec_eq (h : Took s t) : t.sec = s.sec := by rw [h.1]
theorem Took.inj_eq (h : Took s t) : t.inj = s.inj := by rw [h.1]
theorem Took.aon_eq (h : Took s t) : t.aon = s.aon := by rw [h.1]
theorem Took.flt_eq (h : Took s t) : t.flt = s.flt := by rw [h.1]

/-- A ready packet that passes the checks of its own opcode is answered as its execution says; no reset is under way while the
execution leaves the power controller alone. -/
theorem PacketReady.answered (h : PacketReady op m s) {hd : Handler} {i : OpInfo} (hi : opInfo op = some i) (hnow : i.deferred = false)
    (hj : judge op hd m false (takenUp op m s) = none) {st : Status} {ws : List Word}
    (hrun : hd.run m (takenUp op m s) = (.reply st ws, t)) (hpw : t.pw = (takenUp op m s).pw) :
    interp op hd m s = .next (replied m st ws t) :=
  interp_answers h.toPacketHead hi hnow hj hrun ((congrArg (·.resetSeq.isSome) hpw).trans (takenUp_noReset op m s h.noReset))

/-- The parts of a field that is zero are zero. -/
theorem fld_low {n : Nat} {w : BitVec n} {lo a b : Nat} (h : fld w lo (a + b) = 0) : fld w lo a = 0 := by
  unfold fld at *
  rw [← Nat.mod_mod_of_dvd (w.toNat >>> lo) (pow_dvd_pow 2 (Nat.le_add_right a b)), h, Nat.zero_mod]

theorem fld_high {n : Nat} {w : BitVec n} {lo a b : Nat} (h : fld w lo (a + b) = 0) : fld w (lo + a) b = 0 := by
  unfold fld at *
  rw [Nat.pow_add] at h
  rw [Nat.shiftRight_add, Nat.shiftRight_eq_div_pow _ a, ← Nat.mod_mul_right_div_self, h, Nat.zero_div]

/-! ### WD_CONFIG (R456) -/

section
variable {w a b c : Word} (h : PacketReady Op.wdConfig m s) (hfree : isOwned s = false)
  (howner : s.wd.owner = none ∨ s.wd.owner = some m.port)
include h hfree howner

/-- WD_CONFIG that passes its own tests is executed. -/
theorem wdConfig_answered (hlo : 1 ≤ m.words.length) (hhi : m.words.length ≤ 4)
    (hst : wdStateOk (takenUp Op.wdConfig m s) m = true) (hrg : wdRange (takenUp Op.wdConfig m s) m = true) :
    interp Op.wdConfig wdConfigH m s = .next (replied m stOk [] (wdGo m (takenUp Op.wdConfig m s))) := by
  have htook := takenUp_took Op.wdConfig m s
  have hauth : wdConfigH.auth (takenUp Op.wdConfig m s) m = true := by
    simp [wdConfigH, isOwned_congr htook.sec_eq, htook.wd_eq, hfree, howner]
  refine h.answered rfl rfl (judge_ready h wdConfigH _ rfl hst hlo (fun _ => hhi) rfl rfl hrg rfl hauth) rfl ?_
  simp only [wdGo]
  split <;> rfl

theorem exec_wdConfigSet (hw : m.words = [w, a, b, c]) (hop : fld w 0 2 = 0) (hzero : fld w 7 13 = 0) (hoff : s.wd.running = false)
    (hclk : (if bit w 6 then s.wd.failedB else s.wd.failedA) = false) (htests : wdTests (fld w 2 4) a b c = true) :
    exec (.wdConfigSet m) s = .next (replied m stOk [] (modWd (fun x => { x with
      owner := some m.port, pre := BitVec.ofNat 4 (fld w 2 4), clk := bit w 6, clkNow := bit w 6, close := a, timeout := b
      warn := c }) (takenUp Op.wdConfig m s))) := by
  have hwd := (takenUp_took Op.wdConfig m s).wd_eq
  have hpw : pword m 0 = w := by simp [pword, hw]
  refine (wdConfig_answered h hfree howner (by simp [hw]) (by simp [hw]) ?_ ?_).trans ?_
  · simp [wdStateOk, wdOp, hpw, hop, hwd, hoff, hclk]
  · simp [wdRange, wdOp, wdSetVals, hpw, hop, hzero, htests, hw]
  · simp only [wdGo, wdOp, hpw, hop, wdSetVals, hw]
    rfl

theorem exec_wdConfigStart (hw : m.words = [w, a]) (hop : fld w 0 2 = 1) (hzero : fld w 2 18 = 0) (hoff : s.wd.running = false)
    (htests : wdTests s.wd.pre.toNat s.wd.close s.wd.timeout s.wd.warn = true) :
    exec (.wdConfigStart m) s = .next (replied m stOk [] (modWd (fun x => { x with
      owner := some m.port, running := true, token := a, zero := s.now, base := 0, warned := false })
      (takenUp Op.wdConfig m s))) := by
  have htook := takenUp_took Op.wdConfig m s
  have hpw : pword m 0 = w := by simp [pword, hw]
  have hpw' : pword m 1 = a := by simp [pword, hw]
  refine (wdConfig_answered h hfree howner (by simp [hw]) (by simp [hw]) ?_ ?_).trans ?_
  · simp [wdStateOk, wdOp, hpw, hop, htook.wd_eq, hoff]
  · simp [wdRange, wdOp, hpw, hop, htook.wd_eq, htests, hw, fld_low (a := 5) (b := 13) hzero, fld_high (a := 5) (b := 13) hzero]
  · rw [← htook.now_eq]
    simp only [wdGo, wdOp, hpw, hpw', hop]
    rfl

theorem exec_wdConfigStop (hw : m.words = [w]) (hop : fld w 0 2 = 2) (hzero : fld w 2 18 = 0) (hstate : inConfMaint s = true) :
    exec (.wdConfigStop m) s = .next (replied m stOk [] (modWd (fun x => { x with
      owner := some m.port, running := false, frozen := BitVec.ofNat 20 (wdCount s) }) (takenUp Op.wdConfig m s))) := by
  have htook := takenUp_took Op.wdConfig m s
  have hpw : pword m 0 = w := by simp [pword, hw]
  have hcount : wdCount s = wdCount (takenUp Op.wdConfig m s) := by
    simp only [wdCount, wdUnit, htook.wd_eq, htook.now_eq]
  refine (wdConfig_answered h hfree howner (by simp [hw]) (by simp [hw]) ?_ ?_).trans ?_
  · simpa [wdStateOk, wdOp, hpw, hop, inConfMaint, isState, htook.pw_eq] using hstate
  · simp [wdRange, wdOp, hpw, hop, hw, fld_low (a := 5) (b := 13) hzero, fld_high (a := 5) (b := 13) hzero]
  · rw [hcount]
    simp only [wdGo, wdOp, hpw, hop]
    rfl

end

/-! ### The failure of a watchdog clock (R464, R465) -/

theorem injApplied_keeps (s : State) : injApplied s = { s with irq := (injApplied s).irq, inj := (injApplied s).inj } := by
  unfold injApplied
  split
  · rw [raise_only 95]
    rfl
  · rfl

theorem injReport_keeps (d c : Nat) (f : State → State) (s : State) :
    injReport d c f s = { f s with irq := (injReport d c f s).irq, inj := (injReport d c f s).inj } := by
  unfold injReport
  split
  · exact injApplied_keeps _
  · rfl

/-- The clock in use has failed: the other one takes over, and C goes on from where it was. -/
def clockReplaced (s : State) : State := modWd (fun w => { w with
  mon := satInc w.mon, monLost := true, failover := true, clkNow := !w.clkNow, base := wdCount s, zero := s.now
  failedA := w.failedA || !w.clkNow, failedB := w.failedB || w.clkNow }) s

/-- The clock that watches has failed. -/
def monitorLost (s : State) : State := modWd (fun w => { w with
  mon := satInc w.mon, monLost := true, failedA := w.failedA || w.clkNow, failedB := w.failedB || !w.clkNow }) s

theorem clockTrip_replaces (s : State) : clockTrip true s = raise 81 (report 11 6 (b2n s.wd.clkNow) (clockReplaced s)) := by
  cases h : s.wd.clkNow <;> simp [clockTrip, clockReplaced, failClk, modWd, h]

theorem clockTrip_notes (s : State) : clockTrip false s = raise 81 (report 11 7 (b2n !s.wd.clkNow) (monitorLost s)) := by
  cases h : s.wd.clkNow <;> simp [clockTrip, monitorLost, failClk, modWd, h]

/-- A trip of the clock monitor ends with what the failure itself has changed; its report leaves the watchdog alone. -/
theorem exec_clockMonitorTrip {running : Bool} {c u : Nat} {v : State} (hmon : wdMonitored s = true)
    (htrip : clockTrip running s = raise 81 (report 11 c u v)) (hnow : v.now = s.now) (hcfg : v.cfg = s.cfg) :
    ∃ t, exec (.wdClockMonitorTrip running) s = .next t ∧ t.now = s.now ∧ t.cfg = s.cfg ∧ t.wd = v.wd := by
  have hstep : FltStep v (report 11 c u v) := (FltStep.refl v).report (.inl (by decide)) ..
  refine ⟨_, if_pos hmon, ?_, ?_, ?_⟩ <;> rw [injReport_keeps, htrip]
  · rw [← hnow]
    exact (raise_now ..).trans (by rw [hstep.1])
  · rw [← hcfg]
    exact (raise_cfg ..).trans (by rw [hstep.1])
  · exact (raise_wd ..).trans (by rw [hstep.1])

/-! ### The statement -/

/-- Settles O20: the three operations of WD_CONFIG, and each event by its definition. -/
theorem watchdogConfigurationAndEvents : Obligations.WatchdogConfigurationAndEvents := by
  unfold Obligations.WatchdogConfigurationAndEvents
  refine ⟨fun m w a b c s h hfree howner => ⟨fun hw hop hzero hoff hclk hpre htwo hclose hwarn => ?_,
    fun hw hop hzero hoff htests => exec_wdConfigStart h hfree howner hw hop hzero hoff htests,
    fun hw hop hzero hstate => exec_wdConfigStop h hfree howner hw hop hzero hstate⟩, fun s => ⟨fun hrun hwarn hnew => ?_,
    fun hrun => if_pos hrun, fun _ => rfl, fun hoff => ⟨?_, ?_⟩, fun hmon => ?_, fun hmon => ?_⟩⟩
  · exact exec_wdConfigSet h hfree howner hw hop hzero hoff hclk (by simpa [wdTests] using ⟨⟨⟨hpre, htwo⟩, hclose⟩, hwarn⟩)
  · exact if_pos ⟨hrun, hwarn, by simp [hnew]⟩
  · exact if_neg fun hrun => by simp [hoff] at hrun
  · exact if_neg fun hrun => by simp [hoff] at hrun
  · exact exec_clockMonitorTrip hmon (clockTrip_replaces s) rfl rfl
  · exact exec_clockMonitorTrip hmon (clockTrip_notes s) rfl rfl

end Sys2Proof.Machine
end

section
/-! FAULT_READ and FAULT_ACK (O17): 15_faults_watchdog R451, R452. What the collector shows is not touched by the take-up of the
packet. -/

namespace Sys2Proof.Machine

variable {s t : State} {m : Msg} {op : Op} {w x : Word}

/-! ### Refusals by the range of a field -/

/-- A ready packet that its opcode's range rule alone refuses is answered RANGE (R154). -/
theorem PacketReady.refusedRange (h : PacketReady op m s) {hd : Handler}
    (hrest : judge op { hd with range := fun _ _ => true } m false (takenUp op m s) = none)
    (hrange : hd.range (takenUp op m s) m = false) (hplain : hd.refused stRange m (takenUp op m s) = takenUp op m s) :
    interp op hd m s = .next (replied m stRange (hd.words op stRange (takenUp op m s) m) (takenUp op m s)) := by
  have hj : judge op hd m false (takenUp op m s) = some stRange := by rw [judge_range hrest, hrange]; rfl
  have hlost : (m.stream != .none && (stRange == stAborted || stRange == stLength || stRange == stCheck)) = false :=
    Bool.and_false _
  rw [interp_refused h.toPacketHead hd stRange hj, hlost]
  simp only [Bool.false_eq_true, if_false, hplain]
  rw [answer_reply (takenUp_noReset op m s h.noReset)]

/-! ### What the collector shows (R447, R450, R453) -/

theorem Took.heldAt_eq (h : Took s t) (d : Fin 12) : heldAt t d = heldAt s d := by simp only [heldAt, h.flt_eq]

theorem Took.contMask_eq (h : Took s t) : contMask t = contMask s := by simp only [contMask, h.heldAt_eq]

theorem Took.faultN_eq (h : Took s t) : faultN t = faultN s := by
  rw [faultN, faultN, resetting, resetting, h.contMask_eq, h.aon_eq, h.pw_eq]

theorem Took.fltStat_eq (h : Took s t) : fltStat t = fltStat s := by
  rw [fltStat, fltStat, h.contMask_eq, h.faultN_eq, h.aon_eq]

theorem Took.fltDomWord_eq (h : Took s t) : fltDomWord t = fltDomWord s := by
  funext d
  simp only [fltDomWord, h.heldAt_eq]

theorem Took.frecWords_eq (h : Took s t) : frecWords t = frecWords s := by simp only [frecWords, h.aon_eq]

theorem testBit_allDomains (d : BitVec 4) : (0xFFF).testBit d.toNat = decide (d.toNat < 12) := Nat.testBit_two_pow_sub_one 12 _

theorem fld_eq_toNat {n : Nat} {v : BitVec n} {k l : Nat} (hn : n = k + l) (h : fld v k l = 0) : fld v 0 k = v.toNat := by
  subst hn
  have hlt := v.isLt
  unfold fld at *
  rw [Nat.shiftRight_eq_div_pow, Nat.mod_eq_of_lt (Nat.div_lt_of_lt_mul (by rwa [← Nat.pow_add]))] at h
  rw [Nat.shiftRight_zero, Nat.mod_eq_of_lt]
  exact Nat.lt_of_div_eq_zero (Nat.two_pow_pos k) h

/-! ### FAULT_READ (R451) -/

section
variable (h : PacketReady Op.faultRead m s) (hw : m.words = [w] ∨ m.words = [w, x])
include h hw

theorem exec_faultRead (hzero : fld w 16 4 = 0) (hkind : fld w 0 2 ≠ 3) (hspan : fld w 0 2 = 1 →
    1 ≤ fld w 9 7 ∧ fld w 2 7 + fld w 9 7 ≤ 64 ∧ fld (pword m 1) 12 8 = 0) :
    exec (.faultRead m) s = .next (replied m stOk (faultReadWords (takenUp Op.faultRead m s) m) (takenUp Op.faultRead m s)) := by
  have hpw : pword m 0 = w := by rcases hw with hw | hw <;> simp [pword, hw]
  have hlen : 1 ≤ m.words.length ∧ m.words.length ≤ 2 := by rcases hw with hw | hw <;> simp [hw]
  have hrg : faultReadH.range (takenUp Op.faultRead m s) m = true := by
    by_cases hone : fld w 0 2 = 1
    · obtain ⟨hnum, hsum, hmask⟩ := hspan hone
      simp [faultReadH, faultReadKind, hpw, hzero, hone, hnum, hsum, hmask]
      omega
    · simp [faultReadH, faultReadKind, hpw, hzero, hone, hkind]
  exact h.answered rfl rfl (judge_ready h faultReadH _ rfl rfl hlen.1 (fun _ => hlen.2) rfl rfl hrg rfl rfl) rfl rfl

theorem exec_faultRead_reserved (hkind : fld w 0 2 = 3) :
    exec (.faultRead m) s = .next (replied m stRange [] (takenUp Op.faultRead m s)) := by
  have hpw : pword m 0 = w := by rcases hw with hw | hw <;> simp [pword, hw]
  have hlen : 1 ≤ m.words.length ∧ m.words.length ≤ 2 := by rcases hw with hw | hw <;> simp [hw]
  have hrest := judge_ready h { faultReadH with range := fun _ _ => true } _ rfl rfl hlen.1 (fun _ => hlen.2) rfl rfl rfl rfl rfl
  exact h.refusedRange (hd := faultReadH) hrest (by simp [faultReadH, faultReadKind, hpw, hkind]) rfl

end

/-! ### FAULT_ACK (R452) -/

theorem heldAt_setNone (d k : Fin 12) (s : State) :
    heldAt (modFlt (fun f => { f with held := f.held.set d none }) s) k = if k = d then none else heldAt s k := heldAt_set rfl

theorem ackCont_flt (w : Word) (s : State) : ackCont w s = modFlt (fun f => { f with held := (ackCont w s).flt.held }) s :=
  List.foldlRecOn (motive := fun t => t = modFlt (fun f => { f with held := t.flt.held }) s) _ _ rfl fun t ht d _ => by
    rw [ht]
    rfl

theorem heldAt_ackCont (w : Word) (s : State) (d : Fin 12) :
    heldAt (ackCont w s) d = if bit w d.val then none else heldAt s d := by
  have fold : ∀ (l : List (Fin 12)) (s : State),
      heldAt (foldSt l (fun d s => modFlt (fun f => { f with held := f.held.set d none }) s) s) d
        = if d ∈ l then none else heldAt s d := by
    intro l
    induction l with
    | nil => exact fun s => rfl
    | cons k l ih =>
      intro s
      rw [foldSt_cons, ih, heldAt_setNone]
      by_cases hl : d ∈ l <;> by_cases hk : d = k <;> simp [hl, hk]
  rw [ackCont, fold]
  simp [List.mem_finRange]

theorem whenSt_ackFatal (b : Bool) (s : State) : whenSt b ackFatal s = { s with aon :=
    if b = true ∧ s.aon.fatalHeld = true then { s.aon with fatalHeld := false, frec := { s.aon.frec with acked := true } }
    else s.aon } := by
  cases b with
  | false => rfl
  | true => cases hheld : s.aon.fatalHeld <;> simp [whenSt, ackFatal, modAon, hheld]

theorem clearCounters_eq (x : Word) (s : State) : clearCounters x s = { s with
    flt := { s.flt with cnt := s.flt.cnt.filter fun e => !bit x (e.1 / 32) }
    wd := if bit x 11 then { s.wd with early := 0, wrong := 0, foreign := 0, mon := 0 } else s.wd } := by
  cases hbit : bit x 11 <;> simp [clearCounters, modFlt, modWd, hbit]

/-- FAULT_ACK by what it leaves in each part of the state. -/
theorem faultAckGo_eq (w x : Word) (s : State) : faultAckGo w x s = { s with
    flt := { s.flt with
      held := (ackCont w s).flt.held, cnt := s.flt.cnt.filter fun e => !bit x (e.1 / 32)
      log := if bit x 12 then [] else s.flt.log }
    aon := if bit w 12 = true ∧ s.aon.fatalHeld = true then
        { s.aon with fatalHeld := false, frec := { s.aon.frec with acked := true } } else s.aon
    wd := if bit x 11 then { s.wd with early := 0, wrong := 0, foreign := 0, mon := 0 } else s.wd } := by
  have hcont := ackCont_flt w s
  generalize (ackCont w s).flt.held = held at hcont ⊢
  rw [faultAckGo, hcont, whenSt_ackFatal, clearCounters_eq]
  cases hlog : bit x 12 <;> rfl

/-- Settles O17: the kinds of FAULT_READ, and FAULT_ACK by its parts. -/
theorem faultReadAndAck : Obligations.FaultReadAndAck := by
  unfold Obligations.FaultReadAndAck
  refine ⟨fun m w x s h hw hzero => ?_, fun m w x s h hw hzero hzero' => ?_⟩
  · have htook := takenUp_took Op.faultRead m s
    have hpw : pword m 0 = w := by rcases hw with hw | hw <;> simp [pword, hw]
    refine ⟨fun hkind => ?_, fun hkind hnum hsum hw' => ?_, fun hkind hnum hsum hw' hmask => ?_, fun hkind => ?_,
      fun hkind => exec_faultRead_reserved h hw hkind⟩
    · rw [exec_faultRead h hw hzero (by omega) (by omega)]
      simp only [faultReadWords, faultReadKind, hpw, hkind, htook.fltStat_eq, htook.fltDomWord_eq, htook.flt_eq]
    · have hpw' : pword m 1 = 0 := by simp [pword, hw']
      rw [exec_faultRead h hw hzero (by omega) fun _ => ⟨hnum, hsum, by rw [hpw']; rfl⟩]
      simp [faultReadWords, faultReadKind, hpw, hkind, hw', htook.flt_eq, testBit_allDomains]
    · have hpw' : pword m 1 = x := by simp [pword, hw']
      rw [exec_faultRead h hw hzero (by omega) fun _ => ⟨hnum, hsum, by rw [hpw']; exact hmask⟩]
      simp [faultReadWords, faultReadKind, hpw, hpw', hkind, hw', htook.flt_eq, fld_eq_toNat (n := 20) (k := 12) (l := 8) rfl hmask]
    · rw [exec_faultRead h hw hzero (by omega) (by omega)]
      simp only [faultReadWords, faultReadKind, hpw, hkind, htook.frecWords_eq]
  · have htook := takenUp_took Op.faultAck m s
    have hpw : pword m 0 = w := by rcases hw with ⟨hw, -⟩ | hw <;> simp [pword, hw]
    have hpw' : pword m 1 = x := by rcases hw with ⟨hw, hx⟩ | hw <;> simp [pword, *]
    have hlen : 1 ≤ m.words.length ∧ m.words.length ≤ 2 := by rcases hw with ⟨hw, -⟩ | hw <;> simp [hw]
    have hgo := faultAckGo_eq w x (takenUp Op.faultAck m s)
    rw [htook.flt_eq, htook.aon_eq, htook.wd_eq] at hgo
    have hrg : faultAckH.range (takenUp Op.faultAck m s) m = true := by simp [faultAckH, hpw, hpw', hzero, hzero']
    have hrun : faultAckH.run m (takenUp Op.faultAck m s) = (.reply stOk [], faultAckGo w x (takenUp Op.faultAck m s)) := by
      simp [faultAckH, hpw, hpw']
    refine ⟨faultAckGo w x (takenUp Op.faultAck m s), ?_, by rw [hgo], fun d => ?_, by rw [hgo], by rw [hgo], by rw [hgo],
      by rw [hgo], by rw [hgo], by rw [hgo]⟩
    · exact h.answered rfl rfl (judge_ready h faultAckH _ rfl rfl hlen.1 (fun _ => hlen.2) rfl rfl hrg rfl rfl) hrun
        (by rw [hgo])
    · have hheld := heldAt_ackCont w (takenUp Op.faultAck m s) d
      rw [htook.heldAt_eq] at hheld
      rw [← hheld, heldAt, hgo]
      rfl

end Sys2Proof.Machine
end

section
/-! IRQ_ACK, PORT_SLEEP and the timers of the interrupt controller (O12): 14_interrupts R417 to R427, R434. A delivery is stated once
by what it does to the bits of every source; what the commands leave behind are invariants of it. -/

namespace Sys2Proof.Machine

variable {s t : State} {m : Msg} {n k : Fin 96} {p q : Port}

/-! ### The bits of a source -/

/-- The RELEASED bit of a source (R422). -/
def relBit (s : State) (n : Fin 96) : Bool := bit s.irq.released n.val

theorem relBit_setReleased (b : Bool) : relBit (setReleased k b s) n = if k = n then b else relBit s n := by
  simp only [relBit, setReleased_irq]
  rw [bit_setBit _ _ _ _ k.isLt]
  simp only [Fin.ext_iff]

@[simp] theorem relBit_setPend (b : Bool) : relBit (setPend k b s) n = relBit s n := rfl
@[simp] theorem relBit_setActive (b : Bool) : relBit (setActive p k b s) n = relBit s n := by cases p <;> rfl
@[simp] theorem mods_setActive (b : Bool) : (setActive p k b s).irq.mods = s.irq.mods := by cases p <;> rfl

theorem isActive_setAll (l : List Port) (k : Fin 96) (b : Bool) (s : State) (q : Port) (n : Fin 96) :
    isActive (foldSt l (fun p => setActive p k b) s) q n = if q ∈ l ∧ k = n then b else isActive s q n := by
  induction l generalizing s with
  | nil => simp [foldSt]
  | cons p l ih =>
    rw [foldSt_cons, ih, isActive_setActive]
    simp only [List.mem_cons, eq_comm (a := p)]
    by_cases hl : q ∈ l <;> by_cases hk : k = n <;> simp [hl, hk]

/-! ### One delivery (R417 to R420) -/

/-- What a delivery leaves of the controller before the round-robin pointer moves. -/
def presented (k : Fin 96) (s : State) : State :=
  foldSt (targets s k).1 (fun p => setActive p k true) (setReleased k false (setPend k false s))

theorem deliverOne_cases (k : Fin 96) (s : State) : deliverable s k = false ∧ deliverOne k s = s
    ∨ deliverable s k = true ∧ ∃ rr, deliverOne k s = modIrq (fun x => { x with rr := rr }) (presented k s) := by
  have hdef : deliverOne k s = if deliverable s k then
      (if (targets s k).2 then modIrq (fun x => { x with rr := pother x.rr }) (presented k s) else presented k s) else s := rfl
  rw [hdef]
  cases deliverable s k with
  | false => exact .inl ⟨rfl, rfl⟩
  | true =>
    refine .inr ⟨rfl, ?_⟩
    cases (targets s k).2 with
    | false => exact ⟨(presented k s).irq.rr, rfl⟩
    | true => exact ⟨pother (presented k s).irq.rr, rfl⟩

theorem presented_pend : isPend (presented k s) n = if k = n then false else isPend s n := by
  rw [presented, fold_setActive_pend, isPend_setReleased, isPend_setPend]

theorem presented_active : isActive (presented k s) q n = if q ∈ (targets s k).1 ∧ k = n then true else isActive s q n := by
  rw [presented, isActive_setAll, isActive_setReleased, isActive_setPend]

theorem presented_released : relBit (presented k s) n = if k = n then false else relBit s n := by
  have hfold : relBit (presented k s) n = relBit (setReleased k false (setPend k false s)) n :=
    foldSt_keeps (relBit · n) _ _ (fun _ _ => relBit_setActive _) _
  rw [hfold, relBit_setReleased, relBit_setPend]

theorem deliverable_pend (h : deliverable s n = true) : isPend s n = true := by
  simp only [deliverable, Bool.and_eq_true] at h
  exact h.1.1.1.1.1

theorem deliverOne_pend_le (h : isPend s n = false) (k : Fin 96) : isPend (deliverOne k s) n = false := by
  rcases deliverOne_cases k s with ⟨-, hsame⟩ | ⟨-, rr, hdel⟩
  · rw [hsame]
    exact h
  · rw [hdel]
    refine presented_pend.trans ?_
    rw [h, ite_self]

/-- A source that is not PENDING is not delivered. -/
theorem deliverOne_active (h : isPend s n = false) (k : Fin 96) : isActive (deliverOne k s) q n = isActive s q n := by
  rcases deliverOne_cases k s with ⟨-, hsame⟩ | ⟨hdeliv, rr, hdel⟩
  · rw [hsame]
  · have hk : k ≠ n := fun e => by simp [deliverable_pend (e ▸ hdeliv)] at h
    have hact : isActive (deliverOne k s) q n = isActive (presented k s) q n := by rw [hdel]; cases q <;> rfl
    rw [hact, presented_active, if_neg fun hc => hk hc.2]

theorem deliverOne_mods (k : Fin 96) (s : State) : (deliverOne k s).irq.mods = s.irq.mods := by
  rcases deliverOne_cases k s with ⟨-, hsame⟩ | ⟨-, rr, hdel⟩
  · rw [hsame]
  · rw [hdel]
    exact foldSt_keeps (·.irq.mods) _ _ (fun _ _ => mods_setActive _) _

/-- A target of a delivery is awake (R417, R419). -/
theorem targets_awake (h : q ∈ (targets s k).1) : portAwake s q = true := by
  have hfilter : ∀ {r}, r ∈ ports.filter (eligible s k) → portAwake s r = true := fun hr => by
    have he := (List.mem_filter.1 hr).2
    simp only [eligible, Bool.and_eq_true] at he
    exact he.1.1
  unfold targets at h
  dsimp only at h
  split at h
  · split at h
    next p₁ p₂ hl =>
      rw [hl] at hfilter
      split at h
      · exact hfilter (by simp_all)
      · split at h
        · exact hfilter (by simp_all)
        · have hab : ∀ r : Port, r ∈ [p₁, p₂] := by
            have hsub : [p₁, p₂] = ports := by
              have hlen : (ports.filter (eligible s k)).length = ports.length := by rw [hl]; rfl
              exact hl.symm.trans (List.filter_eq_self.2 (List.length_filter_eq_length_iff.1 hlen))
            rw [hsub]
            exact fun r => by cases r <;> decide
          exact hfilter (hab q)
    · exact hfilter h
  · exact hfilter h

/-- What every delivery keeps, the deliveries that are possible now keep. -/
theorem deliver_keeps {P : State → Prop} (hstep : ∀ k s, P s → P (deliverOne k s)) (h : P s) : P (deliver s) := by
  unfold deliver
  split
  · exact List.foldlRecOn (motive := P) _ _ h fun u hu k _ => hstep k u hu
  · exact h

/-! ### IRQ_ACK (R424) -/

/-- The pending bits that CANCEL clears. -/
def cancelled (b : Bool) (masks : List Word) (s : State) : State :=
  if b then foldSt (sources.filter (named masks)) (fun n s => setReleased n false (setPend n false s)) s else s

/-- The services that DONE ends. -/
def doneFor (p : Port) (b all : Bool) (masks : List Word) (s : State) : State :=
  if b then foldSt (sources.filter fun n => all || named masks n) (fun n s => serviceDone p n s) s else s

theorem irqAckGo_eq (p : Port) (w : Word) (masks : List Word) (s : State) :
    irqAckGo p w masks s = deliver (doneFor p (bit w 0) (bit w 2) masks (cancelled (bit w 1) masks s)) := rfl

theorem cancelled_pend (masks : List Word) (b : Bool) (s : State) (n : Fin 96) :
    isPend (cancelled b masks s) n = (isPend s n && !(b && named masks n)) := by
  have fold : ∀ (l : List (Fin 96)) (s : State),
      isPend (foldSt l (fun n s => setReleased n false (setPend n false s)) s) n = (isPend s n && decide (n ∉ l)) := by
    intro l
    induction l with
    | nil => simp [foldSt]
    | cons k l ih =>
      intro s
      rw [foldSt_cons, ih, isPend_setReleased, isPend_setPend]
      by_cases hk : k = n
      · simp [hk]
      · simp [hk, Ne.symm hk]
  cases b with
  | false => simp [cancelled]
  | true =>
    have hmem : n ∈ sources := List.mem_finRange n
    simp only [cancelled, if_true, fold]
    cases hn : named masks n <;> simp [hn, hmem]

theorem serviceDone_pend (p : Port) (k : Fin 96) (s : State) : isPend (serviceDone p k s) n = isPend s n := by
  unfold serviceDone
  split
  · dsimp only
    split
    · rw [isPend_setReleased, isPend_setActive]
    · rw [isPend_setActive]
  · rfl

theorem serviceDone_active (p : Port) (k : Fin 96) (s : State) :
    isActive (serviceDone p k s) p n = (isActive s p n && decide (k ≠ n)) := by
  unfold serviceDone
  by_cases hk : k = n
  · subst hk
    cases hact : isActive s p k with
    | false => simp [hact]
    | true =>
      simp only [if_true]
      split <;> simp [isActive_setActive]
  · cases hact : isActive s p k with
    | false => simp [hk]
    | true =>
      simp only [if_true]
      split <;> simp [isActive_setActive, hk]

theorem doneFor_pend (p : Port) (b all : Bool) (masks : List Word) (s : State) :
    isPend (doneFor p b all masks s) n = isPend s n := by
  unfold doneFor
  split
  · exact foldSt_keeps (isPend · n) _ _ (fun k u => serviceDone_pend p k u) s
  · rfl

theorem doneFor_active (p : Port) {all : Bool} {masks : List Word} (hn : all = true ∨ named masks n = true) (s : State) :
    isActive (doneFor p true all masks s) p n = false := by
  have fold : ∀ (l : List (Fin 96)) (s : State),
      isActive (foldSt l (fun n s => serviceDone p n s) s) p n = (isActive s p n && decide (n ∉ l)) := by
    intro l
    induction l with
    | nil => simp [foldSt]
    | cons k l ih =>
      intro s
      rw [foldSt_cons, ih, serviceDone_active]
      by_cases hk : k = n
      · simp [hk]
      · simp [hk, Ne.symm hk]
  have hmem : n ∈ sources.filter fun k => all || named masks k := List.mem_filter.2 ⟨List.mem_finRange n, by simpa using hn⟩
  rw [doneFor, if_pos rfl, fold]
  simp [hmem]

theorem irqAckGo_only (p : Port) (w : Word) (masks : List Word) : IrqOnly (irqAckGo p w masks) := by
  have hcancel : IrqOnly (cancelled (bit w 1) masks) := IrqOnly.ite (c := fun _ => bit w 1 = true)
    (IrqOnly.fold _ fun k => IrqOnly.comp (setReleased_only k false) (setPend_only k false)) IrqOnly.id
  have hdone : IrqOnly (doneFor p (bit w 0) (bit w 2) masks) := IrqOnly.ite (c := fun _ => bit w 0 = true)
    (IrqOnly.fold _ fun k => serviceDone_only p k) IrqOnly.id
  exact fun s => IrqOnly.comp deliver_only (IrqOnly.comp hdone hcancel) s

/-- A source that is idle stays so through deliveries. -/
theorem deliver_pend_le (h : isPend s n = false) : isPend (deliver s) n = false :=
  deliver_keeps (P := fun s => isPend s n = false) (fun k _ hp => deliverOne_pend_le hp k) h

theorem deliver_idle (hp : isPend s n = false) (ha : isActive s q n = false) :
    isActive (deliver s) q n = false ∧ isPend (deliver s) n = false :=
  deliver_keeps (P := fun s => isActive s q n = false ∧ isPend s n = false)
    (fun k _ h => ⟨(deliverOne_active h.2 k).trans h.1, deliverOne_pend_le h.2 k⟩) ⟨ha, hp⟩

/-! ### PORT_SLEEP (R427) -/

/-- A port that is asleep and holds no source. -/
def Asleep (p : Port) (s : State) : Prop := portAwake s p = false ∧ ∀ n, isActive s p n = false

theorem deliverOne_ports (k : Fin 96) (s : State) : (deliverOne k s).ports = s.ports := by rw [deliverOne_only k s]

theorem portAwake_of_ports (h : t.ports = s.ports) (p : Port) : portAwake t p = portAwake s p := by
  simp only [portAwake, prt_of_ports h]

theorem deliverOne_asleep (k : Fin 96) (h : Asleep p s) : Asleep p (deliverOne k s) := by
  obtain ⟨hawake, hact⟩ := h
  refine ⟨(portAwake_of_ports (deliverOne_ports k s) p).trans hawake, fun n => ?_⟩
  rcases deliverOne_cases k s with ⟨-, hsame⟩ | ⟨-, rr, hdel⟩
  · rw [hsame]
    exact hact n
  · have hpres : isActive (deliverOne k s) p n = isActive (presented k s) p n := by rw [hdel]; cases p <;> rfl
    rw [hpres, presented_active, if_neg, hact]
    exact fun hc => by simp [targets_awake hc.1] at hawake

theorem fireMod_active (i : Fin 16) (s : State) : isActive (fireMod i s) q n = isActive s q n := by
  unfold fireMod
  exact (foldSt_keeps (isActive · q n) _ _ (fun k u => isActive_setReleased ..) _).trans (by cases q <;> rfl)

theorem syncMod_active (i : Fin 16) (s : State) : isActive (syncMod i s) q n = isActive s q n := by
  unfold syncMod
  dsimp only
  split
  · cases q <;> rfl
  · split
    · exact fireMod_active i s
    · split
      · cases q <;> rfl
      · rfl

theorem present_active (l : List Port) (hl : p ∉ l) (k : Fin 96) (s : State) : isActive (present l k s) p n = isActive s p n := by
  have hfold : isActive (foldSt (l.filter fun r => !isActive s r k) (fun r => setActive r k true) s) p n = isActive s p n := by
    rw [isActive_setAll, if_neg fun hc => hl (List.mem_filter.1 hc.1).1]
  unfold present
  dsimp only
  split
  · exact hfold
  · rw [isActive_setReleased, isActive_setPend]
    exact hfold

/-- The sources of a port have left it. -/
def unserved (p : Port) (s : State) : State :=
  foldSt (sources.filter (isActive s p)) (fun n => setActive p n false) (modPort p (fun x => { x with awake := false }) s)

theorem sleepPort_eq (p : Port) (s : State) : sleepPort p s = deliver (syncMods (foldSt (sources.filter (isActive s p))
    (fun n s => if isActive s (pother p) n then s else present (if eligible s n (pother p) then [pother p] else []) n s)
    (unserved p s))) := rfl

theorem unserved_active (p : Port) (s : State) (n : Fin 96) : isActive (unserved p s) p n = false := by
  have fold : ∀ (l : List (Fin 96)) (s : State),
      isActive (foldSt l (fun n => setActive p n false) s) p n = (isActive s p n && decide (n ∉ l)) := by
    intro l
    induction l with
    | nil => simp [foldSt]
    | cons k l ih =>
      intro s
      rw [foldSt_cons, ih, isActive_setActive]
      by_cases hk : k = n
      · simp [hk]
      · simp [hk, Ne.symm hk]
  have hsame : isActive (modPort p (fun x => { x with awake := false }) s) p n = isActive s p n := by cases p <;> rfl
  rw [unserved, fold, hsame]
  cases hact : isActive s p n <;> simp [hact, sources]

/-- What follows the withdrawal of a sleeping port's sources changes the controller only. -/
theorem sleepPort_only (p : Port) (s : State) : sleepPort p s = { unserved p s with irq := (sleepPort p s).irq } := by
  refine IrqOnly.comp deliver_only (IrqOnly.comp syncMods_only (IrqOnly.fold _ fun n u => ?_)) (unserved p s)
  split
  · rfl
  · exact present_only ..

theorem unserved_ports (p : Port) (s : State) : unserved p s
    = { modPort p (fun x => { x with awake := false }) s with irq := (unserved p s).irq } :=
  IrqOnly.fold _ (fun n => setActive_only p n false) _

theorem sleepPort_asleep (p : Port) (s : State) : Asleep p (sleepPort p s) := by
  have hports : (unserved p s).ports = (modPort p (fun x => { x with awake := false }) s).ports := by rw [unserved_ports]
  have hsleep : Asleep p (unserved p s) := by
    refine ⟨?_, unserved_active p s⟩
    rw [portAwake_of_ports hports, portAwake, prt_modPort_same]
    exact Bool.and_false _
  have hpresent : ∀ (k : Fin 96) (u : State), Asleep p u → Asleep p (if isActive u (pother p) k then u
      else present (if eligible u k (pother p) then [pother p] else []) k u) := fun k u hu => by
    split
    · exact hu
    · have hl : p ∉ (if eligible u k (pother p) then [pother p] else []) := by
        split
        · exact fun hc => pother_ne p (List.mem_singleton.1 hc).symm
        · exact List.not_mem_nil
      refine ⟨(portAwake_of_ports (by rw [present_only]) p).trans hu.1, fun n => (present_active _ hl k u).trans (hu.2 n)⟩
  have hsync : ∀ (i : Fin 16) (u : State), Asleep p u → Asleep p (syncMod i u) := fun i u hu =>
    ⟨(portAwake_of_ports (by rw [syncMod_only]) p).trans hu.1, fun n => (syncMod_active i u).trans (hu.2 n)⟩
  rw [sleepPort_eq]
  refine deliver_keeps (fun k _ => deliverOne_asleep k) ?_
  refine List.foldlRecOn (motive := Asleep p) _ _ ?_ fun u hu i _ => hsync i u hu
  exact List.foldlRecOn (motive := Asleep p) _ _ hsleep fun u hu k _ => hpresent k u hu

/-! ### Moderators (R421, R422) -/

/-- A source that is PENDING has been released. -/
def PendReleased (n : Fin 96) (s : State) : Prop := isPend s n = true → relBit s n = true

theorem deliverOne_pendReleased (k : Fin 96) (h : PendReleased n s) : PendReleased n (deliverOne k s) := by
  rcases deliverOne_cases k s with ⟨-, hsame⟩ | ⟨-, rr, hdel⟩
  · rw [hsame]
    exact h
  · rw [hdel]
    intro hp
    have hp' : isPend (presented k s) n = true := hp
    refine Eq.trans (b := relBit (presented k s) n) rfl ?_
    rw [presented_pend] at hp'
    rw [presented_released]
    by_cases hk : k = n
    · simp [hk] at hp'
    · rw [if_neg hk] at hp' ⊢
      exact h hp'

theorem fireMod_mods (i : Fin 16) (s : State) : (fireMod i s).irq.mods = s.irq.mods.set i { count := 0, timer := none } :=
  foldSt_keeps (·.irq.mods) _ (fun n => setReleased n true) (fun _ _ => rfl) (setModr i { count := 0, timer := none } s)

theorem fireMod_pendReleased {i : Fin 16} (hn : intMod s n = i.val + 1) : PendReleased n (fireMod i s) := by
  have hrel : ∀ (l : List (Fin 96)) (u : State), relBit (foldSt l (fun k => setReleased k true) u) n = (decide (n ∈ l) || relBit u n) := by
    intro l
    induction l with
    | nil => simp [foldSt]
    | cons k l ih =>
      intro u
      rw [foldSt_cons, ih, relBit_setReleased]
      by_cases hk : k = n
      · simp [hk]
      · simp [hk, Ne.symm hk]
  intro hp
  unfold fireMod at hp ⊢
  dsimp only at hp ⊢
  rw [fold_setReleased_pend] at hp
  rw [hrel]
  have hmem : n ∈ (assigned (setModr i { count := 0, timer := none } s) i).filter
      (isPend (setModr i { count := 0, timer := none } s)) :=
    List.mem_filter.2 ⟨List.mem_filter.2 ⟨List.mem_finRange n, beq_iff_eq.2 hn⟩, hp⟩
  simp only [hmem, decide_true, Bool.true_or]

theorem deliver_mods (s : State) : (deliver s).irq.mods = s.irq.mods :=
  deliver_keeps (P := fun t => t.irq.mods = s.irq.mods) (fun k u h => (deliverOne_mods k u).trans h) rfl

/-! ### The statement -/

theorem exec_irqAck {w : Word} {ms : List Word} (h : PacketReady Op.irqAck m s) (hw : m.words = w :: ms) (hlen : ms.length ≤ 5)
    (hzero : fld w 3 17 = 0) (hsome : fld w 0 2 ≠ 0) (hlast : fld (ms.getD 4 0) 16 4 = 0) :
    exec (.irqAck m) s = .next (replied m stOk [] (irqAckGo m.port w ms (takenUp Op.irqAck m s))) := by
  have hpw : pword m 0 = w := by simp [pword, hw]
  have hpw' : pword m 5 = ms.getD 4 0 := by simp [pword, hw]
  have hrg : irqAckH.range (takenUp Op.irqAck m s) m = true := by simp only [irqAckH, hpw, hpw', hzero, hlast]; simpa using hsome
  refine h.answered rfl rfl (judge_ready h irqAckH _ rfl rfl (by simp [hw]) (fun _ => by simpa [hw] using Nat.lt_succ_of_le hlen) rfl rfl hrg rfl rfl) ?_ ?_
  · simp [irqAckH, hpw, hw]
  · rw [irqAckGo_only]

theorem exec_portSleep (h : PacketReady Op.portSleep m s) (hw : m.words = []) :
    exec (.portSleep m) s = .next (replied m stOk [] (sleepPort m.port (takenUp Op.portSleep m s))) := by
  refine h.answered rfl rfl (judge_ready h portSleepH _ rfl rfl (by simp [hw]) (by simp [hw]) rfl rfl rfl rfl rfl) rfl ?_
  rw [sleepPort_only, unserved_ports]
  rfl

/-- Settles O12: IRQ_ACK by the bits it leaves, PORT_SLEEP by `sleepPort_asleep`, the timers by their definitions. -/
theorem interruptsAreServed : Obligations.InterruptsAreServed := by
  unfold Obligations.InterruptsAreServed
  refine ⟨fun m w ms s h hw hlen _ hzero hsome hlast => ?_, fun m s h hw => ?_, fun i s hlive => ⟨fun t0 d htimer htime => ?_,
    fun b k htb hk hpos => ?_⟩⟩
  · have hpend : ∀ n : Fin 96, isPend (takenUp Op.irqAck m s) n = false ∨ (bit w 1 = true ∧ named ms n = true) →
        isPend (doneFor m.port (bit w 0) (bit w 2) ms (cancelled (bit w 1) ms (takenUp Op.irqAck m s))) n = false := fun n hn => by
      rw [doneFor_pend, cancelled_pend]
      rcases hn with hn | ⟨hc, hn⟩ <;> simp [*]
    refine ⟨irqAckGo m.port w ms (takenUp Op.irqAck m s), exec_irqAck h hw hlen hzero hsome hlast, irqAckGo_only .., fun n hc hn => ?_,
      fun n hd hn hidle => ?_⟩
    · exact deliver_pend_le (hpend n (.inr ⟨hc, hn⟩))
    · refine deliver_idle (hpend n hidle) ?_
      rw [hd]
      exact doneFor_active m.port hn _
  · have hports : (unserved m.port (takenUp Op.portSleep m s)).ports
        = (modPort m.port (fun x => { x with awake := false }) (takenUp Op.portSleep m s)).ports := by rw [unserved_ports]
    have hsleep : (sleepPort m.port (takenUp Op.portSleep m s)).ports = (unserved m.port (takenUp Op.portSleep m s)).ports := by
      rw [sleepPort_only]
    refine ⟨sleepPort m.port (takenUp Op.portSleep m s), exec_portSleep h hw, ?_, ?_, ?_, (sleepPort_asleep ..).2⟩
    · rw [sleepPort_only, unserved_ports]
      rfl
    · rw [prt_of_ports (hsleep.trans hports), prt_modPort_same]
    · rw [prt_of_ports (hsleep.trans hports), prt_modPort_other, takenUp_other]
  · have hexec : exec (.moderatorTimerFire i) s = .next (deliver (fireMod i (reach (t0 + d) s))) := by
      have hdef : exec (.moderatorTimerFire i) s = execModeratorTimerFire i s := rfl
      simp only [hdef, execModeratorTimerFire, htimer, htime, hlive, if_true]
    have honly := IrqOnly.comp deliver_only (fireMod_only i) (reach (t0 + d) s)
    refine ⟨_, hexec, honly, ?_, fun n hn => ?_⟩
    · rw [deliver_mods, fireMod_mods]
      exact Vector.getElem_set_self ..
    · have hrel : PendReleased n (deliver (fireMod i (reach (t0 + d) s))) :=
        deliver_keeps (fun k _ => deliverOne_pendReleased k) (fireMod_pendReleased hn)
      exact hrel
  · have hne : (cfgGet s .irqTimer).toNat ≠ 0 := fun h0 => hpos (by rw [hk, h0, Nat.zero_mul])
    have hexec : exec .irqTimerTick s = .next (raise 90 (nextGrid ((cfgGet s .irqTimer).toNat * 25000) s)) :=
      if_pos ⟨hne, hlive, by rw [htb]; rfl⟩
    have htick : tickOf s ((tbNow s / k + 1) * k) = b + (tbNow s / k + 1) * k := by simp [tickOf, htb]
    rw [hexec, ← hk, nextGrid, htick]
    rfl

end Sys2Proof.Machine
end

section
/-! CAL_SET (O26): 11_channels_analog R363 to R365, R369, R371. -/

namespace Sys2Proof.Machine

variable {s t : State} {m : Msg} {n : Chan} {k : Fin 6}

theorem Took.cal_eq (h : Took s t) : t.cal = s.cal := by rw [h.1]

/-- Trims of different sets have different keys. -/
theorem trimKey_ne {n n' : Chan} {k k' : Fin 6} (h : n' ≠ n ∨ k' ≠ k) : 6 * n'.val + k'.val ≠ 6 * n.val + k.val := by
  intro he
  rcases h with h | h
  · exact h (Fin.ext (by omega))
  · exact h (Fin.ext (by omega))

/-! ### New trims (R363, R371) -/

theorem sendConf_frame (g : Grp) (c : ConfMsg) (s : State) : sendConf g c s = { s with links := (sendConf g c s).links } := by
  unfold sendConf
  split <;> rfl

theorem setTrim_frame (n : Chan) (k : Fin 6) (x : BitVec 16 × Word) (s : State) : setTrim n k x s = { s with
    cal := { s.cal with trims := insertKey (6 * n.val + k.val) x (x != (0, 0)) s.cal.trims }
    links := (setTrim n k x s).links, mirrors := (setTrim n k x s).mirrors, irq := (setTrim n k x s).irq } := by
  unfold setTrim
  dsimp only
  rw [sendConf_frame]
  split
  · rfl
  · split
    · rw [raiseNat_only]
      rfl
    · rfl

theorem mir_modMir (n : Chan) (f : Mirror → Mirror) (s : State) : mir (modMir n f s) n = f (mir s n) :=
  Vector.getElem_set_self ..

theorem setTrim_event (x : BitVec 16 × Word) (h : trimOf s n k ≠ x) : bit (mir (setTrim n k x s) n).aevt 4 = true := by
  unfold setTrim
  dsimp only
  rw [if_neg h]
  split
  · rw [mir, raiseNat_mirrors]
    refine Eq.trans (b := bit (mir (modMir n _ _) n).aevt 4) rfl ?_
    rw [mir_modMir, bit_setBit _ _ _ _ (by omega), if_pos rfl]
  · rw [mir_modMir, bit_setBit _ _ _ _ (by omega), if_pos rfl]

/-! ### The store (R369) -/

theorem calStore_frame (n : Chan) (s : State) : calStore n s = { s with cal := (calStore n s).cal } := by
  unfold calStore
  split <;> rfl

theorem calStore_trims (n : Chan) (s : State) : (calStore n s).cal.trims = s.cal.trims := by
  unfold calStore
  split <;> rfl

theorem calStore_begins (h : s.cal.storing = none) :
    (calStore n s).cal.storing = some s.now ∧ bit (calStore n s).cal.want n.val = true := by
  simp only [calStore, h]
  refine ⟨rfl, ?_⟩
  exact (bit_setBit _ _ _ _ n.isLt).trans (if_pos rfl)

theorem calStore_waits (h : s.cal.storing.isSome = true) :
    (calStore n s).cal.again = true ∧ bit (calStore n s).cal.wantNext n.val = true := by
  obtain ⟨x, hx⟩ := Option.isSome_iff_exists.1 h
  simp only [calStore, hx]
  exact ⟨rfl, (bit_setBit _ _ _ _ n.isLt).trans (if_pos rfl)⟩

/-! ### The command (R365) -/

/-- What CAL_SET does. -/
def calSetDone (w : Word) (x : BitVec 16 × Word) (s : State) : State :=
  if bit w 10 then calStore (calChan w) (setTrim (calChan w) (calSetIx w) x s) else setTrim (calChan w) (calSetIx w) x s

theorem calSetDone_frame (w : Word) (x : BitVec 16 × Word) (s : State) : calSetDone w x s = { s with
    cal := (calSetDone w x s).cal, links := (calSetDone w x s).links, mirrors := (calSetDone w x s).mirrors
    irq := (calSetDone w x s).irq } := by
  unfold calSetDone
  split
  · rw [calStore_frame, setTrim_frame]
  · rw [setTrim_frame]

theorem calSetDone_trims (w : Word) (x : BitVec 16 × Word) (s : State) : (calSetDone w x s).cal.trims
    = insertKey (6 * (calChan w).val + (calSetIx w).val) x (x != (0, 0)) s.cal.trims := by
  have hset : (setTrim (calChan w) (calSetIx w) x s).cal.trims
      = insertKey (6 * (calChan w).val + (calSetIx w).val) x (x != (0, 0)) s.cal.trims := by rw [setTrim_frame]
  unfold calSetDone
  split
  · rw [calStore_trims, hset]
  · exact hset

theorem exec_calSet {w z k : Word} (h : PacketReady Op.calSet m s)
    (hw : m.words = [w, z, k] ∧ bit w 9 = false ∨ m.words = [w, 0] ∧ bit w 9 = true ∧ z = 0 ∧ k = 0)
    (hplace : calPlace w = true) (hzero : fld w 11 9 = 0) (hzero' : fld z 16 4 = 0) (hauth : calAuth s (calChan w) m.port = true) :
    exec (.calSet m) s = .next (replied m stOk [z, k]
      (calSetDone w (z.extractLsb' 0 16, k) (takenUp Op.calSet m s))) := by
  have htook := takenUp_took Op.calSet m s
  have hauth' : calAuth (takenUp Op.calSet m s) (calChan w) m.port = true := by
    simpa only [calAuth, cfgBit, cfgGet, htook.cfg_eq] using hauth
  have hz : (z.extractLsb' 0 16).setWidth 20 = z := by
    have hlow : (z.extractLsb' 0 16).toNat = z.toNat :=
      (BitVec.extractLsb'_toNat 0 16 z).trans (fld_eq_toNat (n := 20) (k := 16) (l := 4) rfl hzero')
    apply BitVec.eq_of_toNat_eq
    rw [BitVec.toNat_setWidth, hlow, Nat.mod_eq_of_lt z.isLt]
  have hpw : pword m 0 = w := by rcases hw with ⟨hw, -⟩ | ⟨hw, -⟩ <;> simp [pword, hw]
  have hpw' : pword m 1 = z := by rcases hw with ⟨hw, -⟩ | ⟨hw, -, hz, -⟩ <;> simp [pword, *]
  have hrun : calSetH.run m (takenUp Op.calSet m s) = (.reply stOk [z, k], calSetDone w (z.extractLsb' 0 16, k) (takenUp Op.calSet m s)) := by
    rcases hw with ⟨hw, hclear⟩ | ⟨hw, hclear, rfl, rfl⟩
    · have hpw2 : pword m 2 = k := by simp [pword, hw]
      simp [calSetH, calSetDone, hpw, hpw', hpw2, hclear, hz]
    · simp [calSetH, calSetDone, hpw, hclear]
  have hlen : 2 ≤ m.words.length ∧ m.words.length ≤ 8 := by rcases hw with ⟨hw, -⟩ | ⟨hw, -⟩ <;> simp [hw]
  have hsh : calSetH.shape m = true := by rcases hw with ⟨hw, hc⟩ | ⟨hw, hc, -⟩ <;> simp [calSetH, hpw, hw, hc]
  have hrg : calSetH.range (takenUp Op.calSet m s) m = true := by
    have hclear : (!bit w 9 || z == 0) = true := by rcases hw with ⟨-, hc⟩ | ⟨-, -, rfl, -⟩ <;> simp [*]
    simp only [calSetH, hpw, hpw', hplace, hzero, hzero', hclear]
    rfl
  have hau : calSetH.auth (takenUp Op.calSet m s) m = true := by simp [calSetH, hpw, hauth']
  exact h.answered rfl rfl (judge_ready h calSetH _ rfl rfl hlen.1 (fun _ => hlen.2) hsh rfl hrg rfl hau) hrun
    (by rw [calSetDone_frame])

/-- Settles O26: the trims by the laws of `insertKey`, the store by whether an operation runs. -/
theorem calSetWritesTrims : Obligations.CalSetWritesTrims := by
  unfold Obligations.CalSetWritesTrims
  intro m w z k s h hrise hw hplace hzero hzero' hauth
  have hcal := (takenUp_took Op.calSet m s).cal_eq
  have htrims := calSetDone_trims w (z.extractLsb' 0 16, k) (takenUp Op.calSet m s)
  rw [hcal] at htrims
  refine ⟨_, exec_calSet h hw hplace hzero hzero' hauth, calSetDone_frame .., ?_, fun n' e' hne => ?_, fun hnew => ?_, fun hno => ?_,
    fun hst hnone => ?_, fun hst hsome => ?_⟩
  · rw [trimOf, htrims]
    exact lookupD_insertKey_same _ _ _ _ (by simp) _ hrise
  · rw [trimOf, htrims]
    exact lookupD_insertKey_other _ _ _ _ _ (trimKey_ne hne) _
  · have hmir : mir (calSetDone w (z.extractLsb' 0 16, k) (takenUp Op.calSet m s)) (calChan w)
        = mir (setTrim (calChan w) (calSetIx w) (z.extractLsb' 0 16, k) (takenUp Op.calSet m s)) (calChan w) := by
      unfold calSetDone
      split
      · rw [mir, calStore_frame]
        rfl
      · rfl
    rw [hmir]
    exact setTrim_event _ (by simpa only [trimOf, hcal] using hnew)
  · simp only [calSetDone, hno, Bool.false_eq_true, if_false]
    rw [setTrim_frame, hcal]
  · have hstore := calStore_begins (n := calChan w) (s := setTrim (calChan w) (calSetIx w) (z.extractLsb' 0 16, k) (takenUp Op.calSet m s))
      (by rw [setTrim_frame, hcal]; exact hnone)
    have hnow : (setTrim (calChan w) (calSetIx w) (z.extractLsb' 0 16, k) (takenUp Op.calSet m s)).now = s.now := by
      rw [setTrim_frame]
      exact (takenUp_took ..).now_eq
    rw [hnow] at hstore
    simpa only [calSetDone, hst, if_true] using hstore
  · have hstore := calStore_waits (n := calChan w) (s := setTrim (calChan w) (calSetIx w) (z.extractLsb' 0 16, k) (takenUp Op.calSet m s))
      (by rw [setTrim_frame, hcal]; exact hsome)
    simpa only [calSetDone, hst, if_true] using hstore

end Sys2Proof.Machine
end

section
/-! Analog events (O51): 11_channels_analog R346 to R348, R357 to R361. With no injection armed each event is an operation on one
slice, or on the slices of one field die. The headroom controller's readings are those before its step. -/

namespace Sys2Proof.Machine

variable {s t : State} {n k : Chan} {g : Grp} {c : AnaDiag} {b : Bool}

theorem injRuns_unarmed (h : s.inj.armed = none) (d c unit : Nat) : injRuns s d c unit = false := by
  simp only [injRuns, injAt_unarmed h]

/-! ### Timed indications (R348, R357) -/

theorem slc_anaEvt (b : Fin 5) : slc (anaEvt n b s) k = slc s k :=
  slc_modField (f := fun d => { d with reports := d.reports ++ [.ana (chanLidx n) b] }) (fun _ => rfl) ..

theorem reports_anaEvt (b : Fin 5) :
    (fdie (anaEvt n b s) (chanGrp n)).reports = (fdie s (chanGrp n)).reports ++ [.ana (chanLidx n) b] := by
  rw [anaEvt, fdie_addReport]

/-- The event of an analog condition. -/
def anaEvent (c : AnaDiag) : Fin 5 := match c with | .opened => 0 | .shorted => 1

/-- An analog condition has been found. -/
def anaFound (n : Chan) (c : AnaDiag) (s : State) : State := anaEvt n (anaEvent c) (modSlice n (setAna c true) s)

theorem exec_analogDiagTimer_present (hpow : (fdie s (chanGrp n)).powered = true) (hjudged : anaJudged s n c = true)
    (hflag : anaFlag (slc s n) c = false) : exec (.analogDiagTimer n c true) s = .next (anaFound n c s) :=
  onSlice_acts (f := anaFound n c) hpow (by rw [hjudged, hflag]; rfl)

theorem exec_analogDiagTimer_absent (hpow : (fdie s (chanGrp n)).powered = true) (hinj : s.inj.armed = none)
    (hflag : anaFlag (slc s n) c = true) : exec (.analogDiagTimer n c false) s = .next (modSlice n (setAna c false) s) :=
  (if_neg (by simp [injRuns_unarmed hinj])).trans (onSlice_acts hpow hflag)

/-- The output stage has been saturated, or out of saturation, for its time. -/
def complTaken (n : Chan) (b : Bool) (s : State) : State :=
  if b then anaEvt n 2 (modSlice n (fun x => { x with compl := b }) s) else modSlice n (fun x => { x with compl := b }) s

theorem exec_complianceTimer (hpow : (fdie s (chanGrp n)).powered = true) (hmode : dieMode s n = mAoI)
    (hcompl : (slc s n).compl = !b) : exec (.complianceTimer n b) s = .next (complTaken n b s) :=
  onSlice_acts (f := complTaken n b) hpow (by rw [hmode, hcompl]; cases b <;> rfl)

theorem complTaken_acts (n : Chan) (b : Bool) (s : State) : complTaken n b s = { s with fields := (complTaken n b s).fields }
    ∧ slc (complTaken n b s) n = { slc s n with compl := b }
    ∧ (fdie (complTaken n b s) (chanGrp n)).reports
      = (fdie s (chanGrp n)).reports ++ (if b then [.ana (chanLidx n) 2] else []) := by
  cases b with
  | true => exact ⟨rfl, (slc_anaEvt 2).trans (slc_modSlice ..), (reports_anaEvt 2).trans (by rw [reports_modSlice]; rfl)⟩
  | false => exact ⟨rfl, slc_modSlice .., (reports_modSlice (f := fun x => { x with compl := false })).trans (List.append_nil _).symm⟩

/-! ### Headroom control (R359 to R361) -/

/-- The headroom limit of every channel of a group is noted. -/
def hrLimits (g : Grp) (v : Chan → Bool) (s : State) : State :=
  foldSt (lidxs.map (chanOf g)) (fun n s => modSlice n (fun x => { x with hrLim := v n }) s) s

theorem hrLimits_frame (g : Grp) (v : Chan → Bool) (s : State) : DieStep s (hrLimits g v s) :=
  List.foldlRecOn (motive := DieStep s) _ _ (DieStep.refl s) fun _ h _ _ => h.modSlice ..

theorem hrLim_foldSt (l : List Chan) (v : Chan → Bool) (s : State) (n : Chan) :
    (slc (foldSt l (fun n s => modSlice n (fun x => { x with hrLim := v n }) s) s) n).hrLim
      = if n ∈ l then v n else (slc s n).hrLim := by
  induction l generalizing s with
  | nil => rfl
  | cons k l ih =>
    rw [foldSt_cons, ih]
    by_cases hl : n ∈ l
    · simp [hl]
    · by_cases hk : n = k
      · subst hk
        simp [hl, slc_modSlice]
      · simp [hl, hk, slc_modSlice_other hk]

theorem hrLimits_hrLim (hg : chanGrp n = g) (v : Chan → Bool) (s : State) : (slc (hrLimits g v s) n).hrLim = v n := by
  have hmem : n ∈ lidxs.map (chanOf g) := List.mem_map.2 ⟨chanLidx n, by generalize chanLidx n = l; decide +revert, by
    rw [← hg, chanOf_parts]⟩
  exact (hrLim_foldSt _ v s n).trans (if_pos hmem)

/-- The step of the headroom controller that is on. -/
def hrDriven (g : Grp) (v : BitVec 8) (d : BitVec 12) (s : State) : State :=
  let w := dieReg s g (.grp g .hrcfg)
  let need := maxNat ((hrChans s g).map fun k => needOf (slc s k))
  modField g (fun x => { x with
    vfg := v, target := BitVec.ofNat 8 (min (max (need + 10) (hrMin w)) (hrMax w)), drive := d, driven := true
    atMax := decide (hrMax w < need + 10) })
    (hrLimits g (fun n => (hrChans s g).contains n && decide (hrMax w < needOf (slc s n) + 10)) s)

/-- The step of the headroom controller that is off. -/
def hrReleased (g : Grp) (v : BitVec 8) (s : State) : State :=
  modField g (fun x => { x with vfg := v, target := 0, drive := 0, driven := false, atMax := false })
    (hrLimits g (fun _ => false) s)

theorem exec_headroomStep {v : BitVec 8} {d : BitVec 12} (hpow : (fdie s g).powered = true) (hinj : s.inj.armed = none) :
    exec (.headroomStep g v d) s = .next (if hrOn s g then hrDriven g v d s else hrReleased g v s) := by
  have hexec : exec (.headroomStep g v d) s = execHeadroomStep g v d s := rfl
  rw [hexec, execHeadroomStep, injRuns_unarmed hinj, onDie, hpow]
  rfl

theorem hrLim_modField {f : Field → Field} (hf : ∀ d, (f d).slices = d.slices) (hg : chanGrp n = g) (v : Chan → Bool) (s : State) :
    (slc (modField g f (hrLimits g v s)) n).hrLim = v n := by
  rw [slc_modField hf, hrLimits_hrLim hg]

theorem hrDriven_hrLim {v : BitVec 8} {d : BitVec 12} (hg : chanGrp n = g) : (slc (hrDriven g v d s) n).hrLim
    = ((hrChans s g).contains n && decide (hrMax (dieReg s g (.grp g .hrcfg)) < needOf (slc s n) + 10)) := by
  unfold hrDriven
  refine (hrLim_modField ?_ hg _ s).trans rfl
  exact fun _ => rfl

theorem hrReleased_hrLim {v : BitVec 8} (hg : chanGrp n = g) : (slc (hrReleased g v s) n).hrLim = false := by
  unfold hrReleased
  refine (hrLim_modField ?_ hg _ s).trans rfl
  exact fun _ => rfl

theorem modField_modField (f f' : Field → Field) (s : State) :
    modField g f' (modField g f s) = modField g (fun x => f' (f x)) s := by simp [modField, vmod]

theorem modField_congr {f f' : Field → Field} (h : f (fdie s g) = f' (fdie s g)) : modField g f s = modField g f' s := by
  unfold modField vmod
  rw [show f s.fields[g] = f' s.fields[g] from h]

theorem exec_hrErrTimer (hpow : (fdie s g).powered = true) (hon : hrOn s g = true) (herr : (fdie s g).hrErr = !b) :
    exec (.hrErrTimer g b) s = .next (modField g (fun x => { x with
      hrErr := b, reports := x.reports ++ (if b then [.grp 5] else []) }) s) := by
  have hexec : exec (.hrErrTimer g b) s = execHrErrTimer g b s := rfl
  have hcond : (hrOn s g && (fdie s g).hrErr != b) = true := by rw [hon, herr]; cases b <;> rfl
  rw [hexec, execHrErrTimer, onDie, hpow, hcond]
  cases b with
  | true =>
    exact congrArg Host.Outcome.next (modField_modField ..)
  | false =>
    refine congrArg Host.Outcome.next (modField_congr ?_)
    exact congrArg (fun l => ({ fdie s g with hrErr := false, reports := l } : Field)) (List.append_nil _).symm

/-! ### The statement -/

/-- Settles O51: each event by the lemma of its operation. -/
theorem analogEvents : Obligations.AnalogEvents := by
  unfold Obligations.AnalogEvents
  rintro n g i v d c b s hpow rfl
  refine ⟨fun hmode => ?_, fun hinj => ⟨fun hjudged hflag => ?_, fun hflag => exec_analogDiagTimer_absent hpow hinj hflag⟩,
    fun hmode hcompl => ⟨_, exec_complianceTimer hpow hmode hcompl, complTaken_acts n b s⟩, fun hinj => ⟨fun hon => ?_, fun hoff => ?_⟩,
    fun hon herr => exec_hrErrTimer hpow hon herr⟩
  · exact onSlice_acts hpow (by rcases hmode with h | h <;> simp [h])
  · refine ⟨_, exec_analogDiagTimer_present hpow hjudged hflag, rfl, (slc_anaEvt _).trans (slc_modSlice ..), (reports_anaEvt _).trans ?_⟩
    rw [reports_modSlice]
    cases c <;> rfl
  · have hexec := exec_headroomStep (v := v) (d := d) hpow hinj
    rw [hon, if_pos rfl] at hexec
    refine ⟨_, hexec, (hrLimits_frame ..).modField .., ?_⟩
    refine ⟨?_, ?_, ?_, ?_, ?_, (hrDriven_hrLim rfl).trans (by rw [List.contains_eq_mem])⟩
    all_goals rw [hrDriven, fdie_modField_same]
  · have hexec := exec_headroomStep (v := v) (d := d) hpow hinj
    rw [hoff, if_neg Bool.false_ne_true] at hexec
    refine ⟨_, hexec, (hrLimits_frame ..).modField .., ?_⟩
    have hlim : (slc (hrReleased (chanGrp n) v s) n).hrLim = false := hrReleased_hrLim rfl
    refine ⟨?_, ?_, ?_, hlim⟩
    all_goals rw [hrReleased, fdie_modField_same]

end Sys2Proof.Machine
end

section
/-! The governor (O52): 13_power_thermal_governor R401 to R407, R411, R412. What one part of a step leaves alone is said by
`TempStep`; the estimate and the budget of the end state are those the overload test used. -/

namespace Sys2Proof.Machine

variable {s t u : State} {g : Grp} {raw : Int} {w : Start}

/-! ### The temperature step (R401, R402, R411) -/

/-- From `s` to `t` nothing has changed that the governor's temperature step reads or keeps, but the sensor's readings. -/
structure TempStep (s t : State) : Prop where
  now : t.now = s.now
  cfg : t.cfg = s.cfg
  fields : t.fields = s.fields
  dev : t.pw.dev = s.pw.dev
  waiting : t.gov.waiting = s.gov.waiting
  overAt : t.gov.overAt = s.gov.overAt
  cntOver : t.gov.cntOver = s.gov.cntOver

theorem TempStep.refl (s : State) : TempStep s s := ⟨rfl, rfl, rfl, rfl, rfl, rfl, rfl⟩

theorem TempStep.trans (h : TempStep s t) (k : TempStep t u) : TempStep s u :=
  ⟨k.now.trans h.now, k.cfg.trans h.cfg, k.fields.trans h.fields, k.dev.trans h.dev, k.waiting.trans h.waiting,
    k.overAt.trans h.overAt, k.cntOver.trans h.cntOver⟩

theorem gov_report {d : Fin 12} (hd : d.val ≠ 9) (c unit : Nat) (s : State) : (report d c unit s).gov = s.gov := by
  rw [((FltStep.refl s).report (.inl hd) c unit).1]

theorem TempStep.report {d : Fin 12} (h : TempStep s t) (hd : d.val ≠ 9) (c unit : Nat) : TempStep s (report d c unit t) := by
  have hstep := (FltStep.refl t).report (.inl hd) c unit
  have hgov := gov_report hd c unit t
  refine h.trans ⟨?_, ?_, ?_, hstep.dev, ?_, ?_, ?_⟩
  · rw [hstep.1]
  · rw [hstep.1]
  · rw [hstep.1]
  all_goals rw [hgov]

/-- A reading enters the mean of sixteen; one out of range is a failed sensor (R402). -/
theorem sensorStep_acts (raw : Int) (s : State) : TempStep s (sensorStep raw s)
    ∧ (sensorStep raw s).gov.samples = (raw :: s.gov.samples).take 16 ∧ (sensorStep raw s).gov.lastRaw = raw
    ∧ ((raw < -240 ∨ 640 < raw) → (sensorStep raw s).gov.sensorFail = true) := by
  unfold sensorStep
  extract_lets g fresh v bad on t
  have hv : TempStep s v := ⟨rfl, rfl, rfl, rfl, rfl, rfl, rfl⟩
  split
  next hbad =>
    have ht : TempStep s t := hv.trans ⟨rfl, rfl, rfl, rfl, rfl, rfl, rfl⟩
    split
    · exact ⟨ht.report (by decide) .., by rw [gov_report (by decide)]; exact ⟨rfl, rfl, fun _ => rfl⟩⟩
    · exact ⟨ht, rfl, rfl, fun _ => rfl⟩
  next hbad =>
    have hgood : ¬ (raw < -240 ∨ 640 < raw) := fun h => hbad (by simp only [bad, h, decide_true, Bool.true_or])
    have hno (P : Prop) : (raw < -240 ∨ 640 < raw) → P := fun h => absurd h hgood
    split
    · split
      · exact ⟨hv.trans ⟨rfl, rfl, rfl, rfl, rfl, rfl, rfl⟩, rfl, rfl, hno _⟩
      · split
        · exact ⟨hv.trans ⟨rfl, rfl, rfl, rfl, rfl, rfl, rfl⟩, rfl, rfl, hno _⟩
        · exact ⟨hv, rfl, rfl, hno _⟩
    · exact ⟨hv, rfl, rfl, hno _⟩

/-- The test of the high temperature leaves the readings alone. -/
theorem highStep_keeps (s : State) : TempStep s (highStep s) ∧ (highStep s).gov.samples = s.gov.samples
    ∧ (highStep s).gov.lastRaw = s.gov.lastRaw ∧ (highStep s).gov.sensorFail = s.gov.sensorFail := by
  have hv (b : Bool) : TempStep s (modGov (fun g => { g with tcHigh := b }) s) := ⟨rfl, rfl, rfl, rfl, rfl, rfl, rfl⟩
  have hs : TempStep s s ∧ s.gov.samples = s.gov.samples ∧ s.gov.lastRaw = s.gov.lastRaw ∧ s.gov.sensorFail = s.gov.sensorFail :=
    ⟨.refl s, rfl, rfl, rfl⟩
  unfold highStep
  dsimp only
  split
  · split
    · exact ⟨hv false, rfl, rfl, rfl⟩
    · exact hs
  · split
    · exact ⟨(hv true).report (by decide) .., by rw [gov_report (by decide)]; exact ⟨rfl, rfl, rfl⟩⟩
    · exact hs

/-- The overload test changes nothing but the controller and what it notes of OVER (R411). -/
theorem overStep_frame (s : State) : overStep s = { s with
    irq := (overStep s).irq
    gov := { s.gov with overAt := (overStep s).gov.overAt, overNext := (overStep s).gov.overNext,
                        cntOver := (overStep s).gov.cntOver } } := by
  unfold overStep
  split
  · split
    · rfl
    · rw [raise_only]
      rfl
  · rfl

theorem overStep_estModule (s : State) : estModule (overStep s) = estModule s := by
  rw [overStep_frame]
  rfl

theorem overStep_budgetUw (s : State) : budgetUw (overStep s) = budgetUw s := by
  rw [overStep_frame]
  rfl

theorem overStep_over (h : budgetUw s < estModule s) : (overStep s).gov.overAt.isSome = true
    ∧ (s.gov.overAt = none → (overStep s).gov.cntOver = satInc s.gov.cntOver ∧ (isLive s = true → shows (overStep s) 85 = true)) := by
  unfold overStep
  rw [if_pos h]
  split
  next k hk => exact ⟨by rw [hk]; rfl, fun hn => absurd (hk.symm.trans hn) (Option.some_ne_none k)⟩
  next => exact ⟨by rw [raise_gov]; rfl, fun _ => ⟨by rw [raise_gov]; rfl, fun hlive => raise_shows 85 _ hlive⟩⟩

theorem overStep_within (h : estModule s ≤ budgetUw s) : (overStep s).gov.overAt = none := by
  unfold overStep
  rw [if_neg (by omega)]
  rfl

/-- The mean and the budget, from the readings. -/
def govMean (s : State) : State := modGov (fun g => { g with tc := roundDiv (tcSum g) (tcLen g), budget := budgetOf g }) s

theorem exec_govTempStep (hrun : govRuns s = true) (hinj : s.inj.armed = none) :
    exec (.govTempStep raw) s = .next (overStep (govMean (highStep (sensorStep raw (nextGrid ms s))))) := by
  have hread : sensorRead raw (nextGrid ms s) = raw := by
    have hinj' : (nextGrid ms s).inj.armed = none := hinj
    simp [sensorRead, injRuns_unarmed hinj']
  have hexec : exec (.govTempStep raw) s = execGovTempStep raw s := rfl
  rw [hexec, execGovTempStep, if_pos hrun]
  dsimp only
  rw [hread]
  rfl

theorem govTempStep_acts (raw : Int) (s : State) : let v := govMean (highStep (sensorStep raw s)); TempStep s v
    ∧ v.gov.samples = (raw :: s.gov.samples).take 16 ∧ v.gov.lastRaw = raw ∧ v.gov.tc = roundDiv (tcSum v.gov) (tcLen v.gov)
    ∧ v.gov.budget = budgetOf v.gov ∧ ((raw < -240 ∨ 640 < raw) → v.gov.sensorFail = true) := by
  obtain ⟨hs, hsamples, hraw, hfail⟩ := sensorStep_acts raw s
  obtain ⟨hh, hsamples', hraw', hfail'⟩ := highStep_keeps (sensorStep raw s)
  exact ⟨(hs.trans hh).trans ⟨rfl, rfl, rfl, rfl, rfl, rfl, rfl⟩, hsamples'.trans hsamples, hraw'.trans hraw, rfl, rfl,
    fun h => hfail'.trans (hfail h)⟩

theorem budgetOf_failed {x : Gov} (h : x.sensorFail = true) : budgetOf x = 4000 := if_pos h

/-! ### Waiting starts (R405 to R407) -/

theorem exec_govReleaseStep (hdev : s.pw.dev = .run) (hreset : s.pw.resetSeq = none) (htb : s.pw.tb0.isSome = true)
    (hwait : s.gov.waiting = [w]) : exec .govReleaseStep s = .next (judgeStart w (nextGrid 2500 s)) := by
  have hexec : exec .govReleaseStep s = execGovReleaseStep s := rfl
  have hwait' : (nextGrid 2500 s).gov.waiting = [w] := hwait
  rw [hexec, execGovReleaseStep, if_pos ⟨hdev, by simp [resetting, hreset], htb⟩]
  dsimp only
  rw [hwait']
  rfl

/-- The group has kept its distance from its last release (R407). -/
def staggered (s : State) (g : Grp) : Bool :=
  match s.gov.lastRel[g] with | some t => decide (t + staggerTicks s ≤ s.now) | none => true

/-- The judgement of one start, in its two outcomes. -/
theorem judgeStart_eq (w : Start) (s : State) : judgeStart w s =
    if staggered s (chanGrp w.n) && startFits s w then releaseStart w s
    else
      let c := (bif startFits s w then w.counted else w.counted ||| 1) ||| (bif staggered s (chanGrp w.n) then 0 else 2)
      let v := modGov (fun x => { x with
        waiting := x.waiting.map fun y => if y.n = w.n then { y with counted := c } else y }) s
      if !startFits s w ∧ !bit w.counted 0 then raise 85 (modGov (fun x => { x with cntDef := satInc x.cntDef }) v) else v := rfl

theorem judgeStart_releases (hstag : staggered s (chanGrp w.n) = true) (hfits : startFits s w = true) :
    judgeStart w s = releaseStart w s := by
  rw [judgeStart_eq, hstag, hfits]
  rfl

theorem releaseStart_acts (hwait : s.gov.waiting = [w]) : releaseStart w s = { s with
      gov := (releaseStart w s).gov, links := (releaseStart w s).links }
    ∧ (releaseStart w s).gov.waiting = [] ∧ (releaseStart w s).gov.lastRel[chanGrp w.n] = some s.now
    ∧ (w.op = .on → (lnk s (chanGrp w.n)).st = .up →
      (lnk (releaseStart w s) (chanGrp w.n)).conf = (lnk s (chanGrp w.n)).conf ++ [.host (chanLidx w.n) .on]) := by
  unfold releaseStart
  extract_lets g k sw op v
  have hgov : (sendConf g (.host (chanLidx w.n) op) v).gov = v.gov := by rw [sendConf_frame]
  refine ⟨?_, ?_, ?_, fun hop hup => ?_⟩
  · rw [sendConf_frame]
    rfl
  · rw [hgov]
    simp [v, modGov, hwait]
  · rw [hgov]
    simp [v, modGov, g]
  · have hop' : op = .on := by simp only [op, hop]
    have hup' : (lnk v g).st = .up := hup
    rw [hop', sendConf, if_pos hup', lnk_modLink_same]
    rfl

theorem judgeStart_defers (hwait : s.gov.waiting = [w]) (hfits : startFits s w = false) :
    judgeStart w s = { s with gov := (judgeStart w s).gov, irq := (judgeStart w s).irq }
    ∧ (judgeStart w s).gov.waiting.map (·.n) = [w.n]
    ∧ (judgeStart w s).gov.cntDef = (if bit w.counted 0 then s.gov.cntDef else satInc s.gov.cntDef) := by
  rw [judgeStart_eq, hfits, Bool.and_false, if_neg Bool.false_ne_true]
  by_cases hcounted : bit w.counted 0 = true
  · rw [if_neg (by simp [hcounted]), if_pos hcounted]
    exact ⟨rfl, by simp [modGov, hwait], rfl⟩
  · rw [if_pos (by simp [hcounted]), if_neg hcounted]
    refine ⟨?_, ?_, ?_⟩
    · rw [raise_only]
      rfl
    · rw [raise_gov]
      simp [modGov, hwait]
    · rw [raise_gov]
      rfl

theorem judgeStart_staggers (hwait : s.gov.waiting = [w]) (hstag : staggered s (chanGrp w.n) = false) (hfits : startFits s w = true) :
    judgeStart w s = modGov (fun x => { x with waiting := [{ w with counted := w.counted ||| 2 }] }) s := by
  rw [judgeStart_eq, hstag, hfits]
  simp [modGov, hwait]

/-! ### The statement -/

theorem exec_fieldTempEvent {hot : Bool} (hpow : (fdie s g).powered = true) (harmed : (fdie s g).tempArmed = hot) :
    exec (.fieldTempEvent g hot) s = .next (modField g (fun d => { d with
      tempArmed := !hot, reports := d.reports ++ (if hot then [.grp 7] else []) }) s) := by
  have hexec : exec (.fieldTempEvent g hot) s = execFieldTempEvent g hot s := rfl
  rw [hexec, execFieldTempEvent, onDie, hpow, harmed, beq_self_eq_true]
  cases hot with
  | true => exact congrArg Host.Outcome.next (modField_modField ..)
  | false =>
    refine congrArg Host.Outcome.next (modField_congr ?_)
    exact congrArg (fun l => ({ fdie s g with tempArmed := true, reports := l } : Field)) (List.append_nil _).symm

theorem exec_govDeferTimeout {n : Chan} (hfind : s.gov.waiting.find? (fun x => decide (x.n = n)) = some w)
    (hmax : cfgFld s .govCfg 6 4 ≠ 0) : exec (.govDeferTimeout n) s = .next (modGov (fun x => { x with
      waiting := x.waiting.filter (fun y => y.n != n), cntDrop := satInc x.cntDrop })
      { s with now := max s.now (w.since + cfgFld s .govCfg 6 4 * 25000000) }) := by
  have hexec : exec (.govDeferTimeout n) s = execGovDeferTimeout n s := rfl
  rw [hexec, execGovDeferTimeout, hfind]
  dsimp only
  rw [if_neg hmax, Nat.mul_assoc]
  rfl

/-- Settles O52: the temperature step by its three parts, the releases by the judgement of the one start that waits. -/
theorem governorActs : Obligations.GovernorActs := by
  unfold Obligations.GovernorActs
  intro raw g hot w s
  refine ⟨fun hrun hinj => ?_, fun k hover hlive => ?_, exec_fieldTempEvent, fun hdev hreset htb hwait => ?_, exec_govDeferTimeout⟩
  · obtain ⟨hstep, hsamples, hraw, htc, hbudget, hfail⟩ := govTempStep_acts raw (nextGrid ms s)
    refine ⟨_, exec_govTempStep hrun hinj, ?_⟩
    generalize govMean (highStep (sensorStep raw (nextGrid ms s))) = v at *
    have hlive : isLive v = isLive s := by simp only [isLive, hstep.dev]; rfl
    have hframe := overStep_frame v
    refine ⟨?_, ?_, ?_, ?_, ?_, fun hbad => ⟨?_, ?_⟩, fun hover => ?_, fun hwithin => ?_, ?_, ?_, ?_⟩
    · rw [hframe]
      exact hstep.now
    · rw [hframe]
      exact hsamples
    · rw [hframe]
      exact htc
    · rw [hframe]
      exact hbudget
    · rw [hframe]
      exact hraw
    · rw [hframe]
      exact hfail hbad
    · rw [hframe]
      exact hbudget.trans (budgetOf_failed (hfail hbad))
    · rw [overStep_budgetUw, overStep_estModule] at hover
      obtain ⟨hat, hfirst⟩ := overStep_over hover
      refine ⟨hat, fun hnone => ?_⟩
      obtain ⟨hcnt, hshows⟩ := hfirst (hstep.overAt.trans hnone)
      exact ⟨hcnt.trans (congrArg satInc hstep.cntOver), fun h => hshows (hlive.trans h)⟩
    · rw [overStep_budgetUw, overStep_estModule] at hwithin
      exact overStep_within hwithin
    · rw [hframe]
      exact hstep.waiting
    · rw [hframe]
      exact hstep.cfg
    · rw [hframe]
      exact hstep.fields
  · have hexec : exec .govOverTimer s = execGovOverTimer s := rfl
    rw [hexec, execGovOverTimer, hover]
    exact if_pos hlive
  · have hexec := exec_govReleaseStep hdev hreset htb hwait
    refine ⟨fun hstag hfits => ?_, fun hfits => ?_, fun hstag hfits => ?_⟩
    · replace hstag : staggered (nextGrid 2500 s) (chanGrp w.n) = true := hstag
      rw [judgeStart_releases hstag hfits] at hexec
      exact ⟨_, hexec, releaseStart_acts (s := nextGrid 2500 s) hwait⟩
    · exact ⟨_, hexec, judgeStart_defers (s := nextGrid 2500 s) hwait hfits⟩
    · replace hstag : staggered (nextGrid 2500 s) (chanGrp w.n) = false := hstag
      rw [judgeStart_staggers (s := nextGrid 2500 s) hwait hstag hfits] at hexec
      exact ⟨_, hexec, rfl, rfl, rfl⟩

end Sys2Proof.Machine
end

section
/-! INJECT (O32): 20_fault_injection R557 to R560. The point is armed with what the state before the packet gives; what it sets going
at once follows. -/

namespace Sys2Proof.Machine

variable {s t u : State} {m : Msg} {r : InjRow}

/-- What is armed for a payload. -/
def injArmOf (m : Msg) (r : InjRow) (s : State) : InjArm where
  dom := BitVec.ofNat 4 (injDom m)
  cause := BitVec.ofNat 5 (injCause m)
  unit := BitVec.ofNat 6 (injUnit m)
  arg := injArg m r
  left := injLeft (injDom m) (injCause m) (injArg m r)
  since := tbNow s
  until_ := injUntil s r (injArg m r)

/-- The point of a payload is armed (R557, R559). -/
def injArmed (m : Msg) (r : InjRow) (s : State) : State := modInj (fun i => { i with
  armed := some (injArmOf m r s), done := false, num := i.num + 1, runCnt := if s.pw.dev = .run then i.runCnt + 1 else i.runCnt
  point := pword m 0, arg := injArg m r }) s

theorem injectGo_point (hp : injPoint m = some r) (s : State) : injectGo m s = (.reply stOk [(s.inj.num + 1).setWidth 20],
    let v := injAct (injDom m) (injCause m) (injUnit m) (injArmed m r s)
    if injAtOnce (injDom m) (injCause m) then injDone (injArmOf m r s) v else v) := by
  unfold injectGo
  rw [hp]
  rfl

theorem Took.injArmOf_eq (h : Took s t) : injArmOf m r t = injArmOf m r s := by
  unfold injArmOf injUntil
  rw [tbNow_congr h.now_eq h.pw_eq, h.now_eq]

theorem injSeq_congr (h : t.flt = s.flt) (dom : BitVec 4) (since : Nat) : injSeq t dom since = injSeq s dom since := by
  simp only [injSeq, h]

/-- INJECT that passes its checks is answered with the number of the injection; no point that leaves the power controller alone
keeps the reply back. -/
theorem exec_inject (h : PacketReady Op.inject m s) (hlo : 1 ≤ m.words.length) (hhi : m.words.length ≤ 8)
    (hp : injPoint m = some r) (hst : injStateOk (takenUp Op.inject m s) m = true) (hau : injAuth (takenUp Op.inject m s) m = true)
    (hgo : (injectGo m (takenUp Op.inject m s)).2 = t) (hpw : t.pw = (takenUp Op.inject m s).pw) :
    exec (.inject m) s = .next (replied m stOk [(s.inj.num + 1).setWidth 20] t) := by
  have hj : judge Op.inject injectH m false (takenUp Op.inject m s) = none :=
    judge_ready h injectH _ rfl hst hlo (fun _ => hhi) rfl rfl (by simp [injectH, hp]) rfl hau
  have hrun : injectH.run m (takenUp Op.inject m s) = (.reply stOk [(s.inj.num + 1).setWidth 20], t) := by
    have hnum : (injectGo m (takenUp Op.inject m s)).1 = .reply stOk [(s.inj.num + 1).setWidth 20] := by
      rw [injectGo_point hp, (takenUp_took Op.inject m s).inj_eq]
    exact Prod.ext hnum hgo
  exact h.answered rfl rfl hj hrun hpw

/-- Settles O32: by the payload's point, which is at once complete or not. -/
theorem injectionsAreArmed : Obligations.InjectionsAreArmed := by
  unfold Obligations.InjectionsAreArmed
  intro m r s u arm armed
  have htook : Took s u := takenUp_took Op.inject m s
  have harm : injArmOf m r u = arm := htook.injArmOf_eq
  have harmed : injArmed m r u = armed := by simp only [injArmed, harm, htook.pw_eq, armed]
  have hseq (v : State) (hv : v.flt = u.flt) : injSeq v arm.dom arm.since = injSeq s arm.dom arm.since :=
    injSeq_congr (hv.trans htook.flt_eq) ..
  refine ⟨fun h hlo hhi hp hst hau => ⟨fun honce hact => ?_, fun hd hc => ?_, fun hd hc => ?_⟩, fun a k harmed' huntil => ?_⟩
  · refine exec_inject h hlo hhi hp hst hau ?_ rfl
    rw [injectGo_point hp]
    dsimp only
    rw [honce, hact, harmed]
    rfl
  · refine exec_inject h hlo hhi hp hst hau ?_ (raise_pw ..)
    rw [injectGo_point hp]
    dsimp only
    rw [hd, hc, harm, harmed]
    show injDone arm (injAct 7 6 (injUnit m) armed) = _
    rw [injDone, hseq (injAct 7 6 (injUnit m) armed) rfl]
    rfl
  · refine ⟨injDone arm (modWd (fun w => { w with base := w.timeout.toNat - 1, zero := u.now }) armed),
      exec_inject h hlo hhi hp hst hau ?_ (raise_pw ..), ?_, ?_, ?_⟩
    · rw [injectGo_point hp]
      dsimp only
      rw [hd, hc, harm, harmed]
      rfl
    · rw [injDone, raise_wd, ← htook.wd_eq, ← htook.now_eq]
      rfl
    · rw [injDone, raise_inj]
      rfl
    · rw [injDone, raise_inj]
      rfl
  · have hexec : exec .injectTimedEnd s = execInjectTimedEnd s := rfl
    have hreach : (reach k s).inj.armed = some a := harmed'
    rw [hexec, execInjectTimedEnd, harmed']
    dsimp only
    rw [huntil]
    dsimp only
    rw [injApplied, hreach]
    rfl

end Sys2Proof.Machine
end

section
/-! Segments of the cask as the recorder's operations move them, and CASK_CTRL (O21): 18_recording_replay R514 to R522. Records
and hashes leave the ring of slots alone. -/

namespace Sys2Proof.Machine

variable {s t u : State} {m : Msg} {w : Word} {l : List Word} {code : Nat} {last : Bool}

/-! ### The ring of slots -/

/-- The cask without the content of its open segment, what hashes and signatures wait for, and the slot being racked. -/
def Cask.ring (k : Cask) : Cask :=
  { k with used := 0, base := 0, hi := 0, overwrite := 0, toHash := [], prevHash := [], toSign := [], held := [], autoSlot := none }

@[simp] theorem recWords_ring (ws : List Word) : (recWords ws s).cask.ring = s.cask.ring := by simp [recWords, Cask.ring]

@[simp] theorem recRaw_ring (type arg stamp : Nat) (ws : List Word) : (recRaw type arg stamp ws s).cask.ring = s.cask.ring := by
  unfold recRaw
  dsimp only
  rw [recWords_ring]
  split
  · simp [recWords, Cask.ring]
  · rfl

@[simp] theorem recSession_ring : (recSession s).cask.ring = s.cask.ring := recRaw_ring ..

@[simp] theorem recCheckpoint_ring : (recCheckpoint s).cask.ring = s.cask.ring :=
  (foldSt_keeps (·.cask.ring) _ _ (fun _ _ => recRaw_ring ..) _).trans (recRaw_ring ..)

@[simp] theorem recHeld_ring : (recHeld s).cask.ring = s.cask.ring :=
  foldSt_keeps (·.cask.ring) _ _ (fun _ _ => recRaw_ring ..) _

theorem ring_iteSession {c : Prop} [Decidable c] : (if c then recSession s else s).cask.ring = s.cask.ring := by
  split
  · exact recSession_ring
  · rfl

theorem ring_iteCheckpoint {c : Prop} [Decidable c] : (if c then recCheckpoint s else s).cask.ring = s.cask.ring := by
  split
  · exact recCheckpoint_ring
  · rfl

@[simp] theorem hashHead_ring : (hashHead s).cask.ring = s.cask.ring := by
  unfold hashHead
  split
  · rfl
  · simp [whenSt, Cask.ring]

@[simp] theorem hashBefore_ring (slot n : Nat) : (hashBefore slot n s).cask.ring = s.cask.ring := by
  induction n generalizing s with
  | zero => rfl
  | succ n ih =>
    unfold hashBefore
    split
    · split
      · exact ih.trans hashHead_ring
      · rfl
    · rfl

@[simp] theorem autoKick_ring : (autoKick s).cask.ring = s.cask.ring := by
  unfold autoKick
  split
  · rfl
  · split
    · exact hashBefore_ring ..
    · rfl

/-- A segment that is closed: its slot joins the closed ones, and the next slot and number are up (R515). -/
theorem segClose_ring (h : s.cask.opened = true) : (segClose code last s).cask.ring = { s.cask.ring with
    opened := false, closed := s.cask.closed ++ [s.cask.slot], slot := (s.cask.slot + 1) % 256, seg := s.cask.seg + 1 } := by
  unfold segClose
  dsimp only
  rw [if_pos h, autoKick_ring, highWater_cask]
  simp [Cask.ring]

/-- A segment is opened in the slot that is up; no closed segment is left there (R514). -/
theorem segOpen_ring (first last : Bool) : (segOpen first last s).cask.ring = { s.cask.ring with
    opened := true, closed := s.cask.closed.filter (· != s.cask.slot) } := by
  unfold segOpen
  simp [Cask.ring]

/-- The next segment waits while its slot is not free in hold mode (R514). -/
theorem segNext_paused (h : s.cask.closed.contains s.cask.slot ∧ cfgBit s .caskCfg 0) :
    segNext s = modCask (fun k => { k with paused := true }) s := if_pos h

theorem segNext_ring (h : ¬ (s.cask.closed.contains s.cask.slot ∧ cfgBit s .caskCfg 0)) : (segNext s).cask.ring
    = { s.cask.ring with paused := false, opened := true, closed := s.cask.closed.filter (· != s.cask.slot) } := by
  unfold segNext
  rw [if_neg h]
  dsimp only
  rw [recHeld_ring, ring_iteCheckpoint, ring_iteSession, segOpen_ring]
  rfl

/-- The next segment is open, or recording waits for its slot; number and slot are those that are up. -/
theorem segNext_next (s : State) : ((segNext s).cask.opened = true ∨ (segNext s).cask.paused = true)
    ∧ (segNext s).cask.seg = s.cask.seg ∧ (segNext s).cask.slot = s.cask.slot
    ∧ ∀ k ≠ s.cask.slot, k ∈ s.cask.closed → k ∈ (segNext s).cask.closed := by
  by_cases h : s.cask.closed.contains s.cask.slot ∧ cfgBit s .caskCfg 0
  · rw [segNext_paused h]
    exact ⟨.inr rfl, rfl, rfl, fun _ _ hk => hk⟩
  · have hring := segNext_ring h
    have hclosed : (segNext s).cask.closed = s.cask.closed.filter (· != s.cask.slot) := congrArg Cask.closed hring
    refine ⟨.inl (congrArg Cask.opened hring :), (congrArg Cask.seg hring :), (congrArg Cask.slot hring :), fun k hne hk => ?_⟩
    rw [hclosed]
    exact List.mem_filter.2 ⟨hk, by simp [hne]⟩

/-! ### Ops that are answered at once (R517, R521, R522) -/

section
variable (h : PacketReady Op.caskCtrl m s) (hw : m.words = w :: l) (hzero : fld w 11 9 = 0)
include h hw hzero

/-- CASK_CTRL in a state that accepts its op passes its checks. -/
theorem judge_caskCtrl (hop : fld w 0 3 < 6) (hacc : caskAccepts (takenUp Op.caskCtrl m s) (fld w 0 3) = true)
    (hshape : if fld w 0 3 = 5 then 1 ≤ l.length ∧ l.length ≤ 7 else l = []) :
    judge Op.caskCtrl caskCtrlH m false (takenUp Op.caskCtrl m s) = none := by
  have hword : pword m 0 = w := by simp [pword, hw]
  have hlen : l.length ≤ 7 := by
    split at hshape
    · exact hshape.2
    · simp [hshape]
  refine judge_ready h caskCtrlH _ rfl ?_ ?_ ?_ ?_ rfl ?_ rfl rfl
  · simp [caskCtrlH, caskOp, hword, hacc]
  · simp [hw]
  · intro _
    rw [hw, List.length_cons]
    exact Nat.succ_le_succ hlen
  · simp only [caskCtrlH, caskOp, hword, hw, List.length_cons]
    split_ifs at hshape ⊢ with h5
    · simp
      omega
    · simp [hshape]
  · simp [caskCtrlH, caskOp, hword, hzero, hop]

/-- An op other than STOP and FREEZE is answered at once with the state it leaves. -/
theorem caskCtrl_answered (hop : fld w 0 3 < 6) (hacc : caskAccepts (takenUp Op.caskCtrl m s) (fld w 0 3) = true)
    (hshape : if fld w 0 3 = 5 then 1 ≤ l.length ∧ l.length ≤ 7 else l = [])
    (hgo : caskCtrlGo m (takenUp Op.caskCtrl m s) = (.reply stOk (caskReply t), t)) (hpw : t.pw = (takenUp Op.caskCtrl m s).pw) :
    interp Op.caskCtrl caskCtrlH m s = .next (replied m stOk (caskReply t) t) :=
  h.answered rfl rfl (judge_caskCtrl h hw hzero hop hacc hshape) hgo hpw

/-- STOP and FREEZE are answered later. -/
theorem caskCtrl_later (hop : fld w 0 3 < 6) (hacc : caskAccepts (takenUp Op.caskCtrl m s) (fld w 0 3) = true)
    (hshape : if fld w 0 3 = 5 then 1 ≤ l.length ∧ l.length ≤ 7 else l = [])
    (hgo : caskCtrlGo m (takenUp Op.caskCtrl m s) = (.later, t)) : interp Op.caskCtrl caskCtrlH m s = .next t := by
  have hrun : caskCtrlH.run m (takenUp Op.caskCtrl m s) = (.later, t) := hgo
  rw [interp_ready h.toPacketHead caskCtrlH _ rfl (judge_caskCtrl h hw hzero hop hacc hshape), hrun]
  rfl

theorem exec_caskStatus (hop : fld w 0 3 = 0) (hl : l = []) :
    exec (.caskStatus m) s = .next (replied m stOk (caskReply (takenUp Op.caskCtrl m s)) (takenUp Op.caskCtrl m s)) := by
  have hword : pword m 0 = w := by simp [pword, hw]
  refine caskCtrl_answered h hw hzero (by simp [hop]) ?_ (by simp [hop, hl]) ?_ rfl
  · rw [hop, caskAccepts]
    split <;> simp
  · simp only [caskCtrlGo, caskOp, hword, hop]

theorem exec_caskClear (hop : fld w 0 3 = 4) (hl : l = []) (hidle : (takenUp Op.caskCtrl m s).cask.st = .idle) :
    exec (.caskClear m) s = .next (replied m stOk (caskReply (caskClear (takenUp Op.caskCtrl m s)))
      (caskClear (takenUp Op.caskCtrl m s))) := by
  have hword : pword m 0 = w := by simp [pword, hw]
  refine caskCtrl_answered h hw hzero (by simp [hop]) ?_ (by simp [hop, hl]) ?_ rfl
  · rw [hop, caskAccepts, hidle]
    rfl
  · simp only [caskCtrlGo, caskOp, hword, hop]

theorem exec_caskNote (hop : fld w 0 3 = 5) (hlo : 1 ≤ l.length) (hhi : l.length ≤ 7)
    (hend : (takenUp Op.caskCtrl m s).cask.ending = none)
    (hst : (takenUp Op.caskCtrl m s).cask.st = .recording ∨ (takenUp Op.caskCtrl m s).cask.st = .freezing) :
    exec (.caskNote m) s
      = .next (let t := recNow 0x10 0 l (takenUp Op.caskCtrl m s); replied m stOk (caskReply t) t) := by
  have hword : pword m 0 = w := by simp [pword, hw]
  refine caskCtrl_answered h hw hzero (by simp [hop]) ?_ (by simp [hop, hlo, hhi]) ?_ ((RecStep.refl _).recNow ..).pw_eq
  · rcases hst with hst | hst <;> rw [hop, caskAccepts, hst, hend] <;> rfl
  · simp only [caskCtrlGo, caskOp, hword, hop, hw, List.drop_succ_cons, List.drop_zero]

end

/-- CLEAR frees the closed slots and drops the requests of automatic racking (R521). -/
theorem caskClear_acts (s : State) : caskClear s = { s with
      mmp := (caskClear s).mmp
      cask := { s.cask with closed := [], rnext := cfgGet s .caskRbase, autoSlot := none, tries := 0 } }
    ∧ ∀ q ∈ (caskClear s).mmp.reqs, q ∈ s.mmp.reqs ∧ (q.user = .rack → q.reply.isSome = true) := by
  refine ⟨rfl, fun q hq => ?_⟩
  obtain ⟨hmem, hkeep⟩ := List.mem_filter.1 (hq : q ∈ s.mmp.reqs.filter fun q => !(q.user == .rack && q.reply.isNone))
  refine ⟨hmem, fun huser => ?_⟩
  rw [huser] at hkeep
  cases hreply : q.reply with
  | none => rw [hreply] at hkeep; exact absurd hkeep (by decide)
  | some _ => rfl

/-! ### START, STOP and FREEZE (R514, R515, R521) -/

/-- The number of the next session. -/
def nextSess (s : State) : Word := if s.aon.caskSess = 0xFFFFF then 1 else s.aon.caskSess + 1

/-- The session is begun; its first segment is still to be opened. -/
def sessBegun (s : State) : State :=
  modCask (fun k => { k with
    st := .recording, sess := nextSess s, seg := 0, shadow := false, paused := false, freeze := none, ending := none
    prevHash := [], toHash := [], toSign := [], held := [], since := (0, 0, 0), dec := Vector.replicate 6 0 })
    (modAon (fun a => { a with caskSess := nextSess s }) s)

theorem caskBegin_eq (s : State) : caskBegin s
    = modCask (fun k => { k with cfgHash := cfgHash (segNext (sessBegun s)) }) (segNext (sessBegun s)) := rfl

/-- Beginning a session changes the always-on session number, and what a record can change. -/
theorem caskBegin_frame (s : State) : caskBegin s = { s with
      aon := { s.aon with caskSess := nextSess s }, cask := (caskBegin s).cask, mems := (caskBegin s).mems, mi := (caskBegin s).mi
      irq := (caskBegin s).irq, mmp := (caskBegin s).mmp }
    ∧ ∀ k : Fin 16, k ≠ 8 → (caskBegin s).mems[k] = s.mems[k] := by
  have hstep : RecStep (sessBegun s) (caskBegin s) := by
    rw [caskBegin_eq]
    exact (RecStep.refl (sessBegun s)).segNext.cask _
  refine ⟨?_, fun k hk => hstep.2.2.1 k hk⟩
  rw [hstep.1]
  rfl

theorem caskBegin_session (s : State) : (caskBegin s).cask.st = .recording ∧ (caskBegin s).cask.sess = nextSess s
    ∧ (caskBegin s).cask.seg = 0 ∧ (caskBegin s).cask.slot = s.cask.slot
    ∧ ((caskBegin s).cask.opened = true ∨ (caskBegin s).cask.paused = true)
    ∧ (s.cask.closed.contains s.cask.slot = false ∨ cfgBit s .caskCfg 0 = false → (caskBegin s).cask.opened = true) := by
  obtain ⟨hopen, hseg, hslot, -⟩ := segNext_next (sessBegun s)
  have hsess : (segNext (sessBegun s)).cask.sess = nextSess s := by
    by_cases h : (sessBegun s).cask.closed.contains (sessBegun s).cask.slot ∧ cfgBit (sessBegun s) .caskCfg 0
    · rw [segNext_paused h]
      rfl
    · exact congrArg Cask.sess (segNext_ring h)
  refine ⟨(segNext_caskSt (s := sessBegun s) :), hsess, hseg, hslot, hopen, fun hfree => ?_⟩
  have h : ¬ ((sessBegun s).cask.closed.contains (sessBegun s).cask.slot ∧ cfgBit (sessBegun s) .caskCfg 0) := by
    rintro ⟨hfull, hhold⟩
    rcases hfree with hfree | hfree
    · exact Bool.false_ne_true (hfree.symm.trans hfull)
    · exact Bool.false_ne_true (hfree.symm.trans hhold)
  exact congrArg Cask.opened (segNext_ring h)

/-- The session's last data segment closes with its code (R521). -/
theorem sessionEnding_opened (h : s.cask.opened = true) : sessionEnding code s
    = modCask (fun k => { k with ending := some (BitVec.ofNat 3 code), freeze := none }) (segClose code false s) := by
  unfold sessionEnding
  dsimp only
  rw [h, Bool.true_or, Bool.true_or, if_pos rfl]

theorem sessionEnding_ring (h : s.cask.opened = true) : (sessionEnding code s).cask.ring = { s.cask.ring with
    opened := false, closed := s.cask.closed ++ [s.cask.slot], slot := (s.cask.slot + 1) % 256, seg := s.cask.seg + 1
    ending := some (BitVec.ofNat 3 code), freeze := none } := by
  have hclose := segClose_ring (code := code) (last := false) h
  rw [sessionEnding_opened h]
  exact congrArg (fun k => ({ k with ending := some (BitVec.ofNat 3 code), freeze := none } : Cask)) hclose

theorem doneIfEmpty_of_seg (h : s.cask.seg ≠ 0) : doneIfEmpty s = s := if_neg fun hempty => h hempty.1

section
variable (h : PacketReady Op.caskCtrl m s) (hw : m.words = [w]) (hzero : fld w 11 9 = 0)
include h hw hzero

theorem exec_caskStart (hop : fld w 0 3 = 1) (hidle : (takenUp Op.caskCtrl m s).cask.st = .idle) :
    exec (.caskStart m) s = .next (replied m stOk (caskReply (caskBegin (takenUp Op.caskCtrl m s)))
      (caskBegin (takenUp Op.caskCtrl m s))) := by
  have hword : pword m 0 = w := by simp [pword, hw]
  refine caskCtrl_answered h hw hzero (by simp [hop]) ?_ (by simp [hop]) ?_ caskBegin_clock.2
  · rw [hop, caskAccepts, hidle]
    rfl
  · simp only [caskCtrlGo, caskOp, hword, hop]

theorem exec_caskStop (hop : fld w 0 3 = 2)
    (hst : (takenUp Op.caskCtrl m s).cask.st = .recording ∨ (takenUp Op.caskCtrl m s).cask.st = .freezing)
    (hend : (takenUp Op.caskCtrl m s).cask.ending = none) :
    exec (.caskStop m) s = .next (doneIfEmpty (sessionEnding 2
      (modCask (fun k => { k with reply := k.reply ++ [defOf Op.caskCtrl m] }) (takenUp Op.caskCtrl m s)))) := by
  have hword : pword m 0 = w := by simp [pword, hw]
  refine caskCtrl_later h hw hzero (by simp [hop]) ?_ (by simp [hop]) ?_
  · rcases hst with hst | hst <;> rw [hop, caskAccepts, hst, hend] <;> rfl
  · simp only [caskCtrlGo, caskOp, hword, hop]

theorem exec_caskFreeze (hop : fld w 0 3 = 3) (hst : (takenUp Op.caskCtrl m s).cask.st = .recording)
    (hend : (takenUp Op.caskCtrl m s).cask.ending = none) : exec (.caskFreeze m) s = .next (modCask (fun k => { k with
      st := .freezing, freeze := some (fld w 3 8), reply := k.reply ++ [defOf Op.caskCtrl m] }) (takenUp Op.caskCtrl m s)) := by
  have hword : pword m 0 = w := by simp [pword, hw]
  refine caskCtrl_later h hw hzero (by simp [hop]) ?_ (by simp [hop]) ?_
  · rw [hop, caskAccepts, hst, hend]
    rfl
  · simp only [caskCtrlGo, caskOp, hword, hop]
    rfl

end

/-! ### The statement -/

theorem caskReply_eq (t : State) : caskReply t
    = [pack [(0, match t.cask.st with | .idle => 0 | .recording => 1 | .freezing => 2 | .replaying => 3), (2, t.cask.slot),
        (10, t.cask.closed.length)], t.aon.caskSess] := rfl

/-- Settles O21: each op by its execution, START and STOP by what they do to the ring of slots. -/
theorem caskCommands : Obligations.CaskCommands := by
  unfold Obligations.CaskCommands
  refine ⟨fun m w l s h hw hzero => ?_, fun m w s h hw hzero => ?_⟩
  · refine ⟨exec_caskStatus h hw hzero, fun hop hl hidle => ?_, exec_caskNote h hw hzero, caskReply_eq⟩
    obtain ⟨hframe, hreqs⟩ := caskClear_acts (takenUp Op.caskCtrl m s)
    have hcfg : cfgGet (takenUp Op.caskCtrl m s) .caskRbase = cfgGet s .caskRbase := by
      rw [cfgGet, (takenUp_took Op.caskCtrl m s).cfg_eq, cfgGet]
    rw [hcfg] at hframe
    exact ⟨_, exec_caskClear h hw hzero hop hl hidle, hframe, hreqs⟩
  · have htook := takenUp_took Op.caskCtrl m s
    refine ⟨fun hop hidle => ?_, fun hop hst hend hopen => ?_, fun hop hst hend => exec_caskFreeze h hw hzero hop hst hend⟩
    · have hsess : nextSess (takenUp Op.caskCtrl m s) = nextSess s := by rw [nextSess, htook.aon_eq, nextSess]
      have hhold : cfgBit (takenUp Op.caskCtrl m s) .caskCfg 0 = cfgBit s .caskCfg 0 := by
        rw [cfgBit, cfgGet, htook.cfg_eq, cfgBit, cfgGet]
      obtain ⟨hframe, hmems⟩ := caskBegin_frame (takenUp Op.caskCtrl m s)
      have hsession := caskBegin_session (takenUp Op.caskCtrl m s)
      rw [hsess] at hframe hsession
      rw [hhold] at hsession
      exact ⟨_, exec_caskStart h hw hzero hop hidle, hframe, fun k hk => (hmems k hk).trans (htook.2 k hk), hsession⟩
    · have hexec := exec_caskStop h hw hzero hop hst hend
      generalize takenUp Op.caskCtrl m s = u at *
      have hopen' : (modCask (fun k => { k with reply := k.reply ++ [defOf Op.caskCtrl m] }) u).cask.opened = true := hopen
      have hring := sessionEnding_ring (code := 2) hopen'
      have hstep : RecStep u (sessionEnding 2 (modCask (fun k => { k with reply := k.reply ++ [defOf Op.caskCtrl m] }) u)) :=
        ((RecStep.refl u).cask _).sessionEnding 2
      generalize sessionEnding 2 (modCask (fun k => { k with reply := k.reply ++ [defOf Op.caskCtrl m] }) u) = t at *
      have hseg : t.cask.seg = u.cask.seg + 1 := congrArg Cask.seg hring
      rw [doneIfEmpty_of_seg (by omega)] at hexec
      refine ⟨t, hexec, ?_, (congrArg Cask.opened hring :), (congrArg Cask.ending hring :), hseg, (congrArg Cask.closed hring :),
        (congrArg Cask.reply hring :)⟩
      exact hstep.1

end Sys2Proof.Machine
end

section
/-! Segments roll, are hashed and signed (O24): 18_recording_replay R509, R519, R520, R523. -/

namespace Sys2Proof.Machine

variable {s t : State} {code seg slot : Nat} {h : List Word}

/-- A roll with no FREEZE under way closes the open segment and opens the next (R523). -/
theorem segRoll_recording (hfreeze : s.cask.freeze = none) : segRoll code s = segNext (segClose code false s) := by
  unfold segRoll
  rw [hfreeze]

theorem segRoll_next (hfreeze : s.cask.freeze = none) (hopen : s.cask.opened = true) :
    (segRoll code s).cask.seg = s.cask.seg + 1 ∧ (segRoll code s).cask.slot = (s.cask.slot + 1) % 256
      ∧ s.cask.slot ∈ (segRoll code s).cask.closed
      ∧ ((segRoll code s).cask.opened = true ∨ (segRoll code s).cask.paused = true) := by
  have hring := segClose_ring (code := code) (last := false) hopen
  have hslot : (segClose code false s).cask.slot = (s.cask.slot + 1) % 256 := congrArg Cask.slot hring
  have hclosed : (segClose code false s).cask.closed = s.cask.closed ++ [s.cask.slot] := congrArg Cask.closed hring
  obtain ⟨hopen', hseg, hslot', hkept⟩ := segNext_next (segClose code false s)
  rw [segRoll_recording hfreeze]
  exact ⟨hseg.trans (congrArg Cask.seg hring), hslot'.trans hslot, hkept _ (by omega) (by simp [hclosed]), hopen'⟩

theorem exec_segmentTimer {k : Nat} (hk : segTicks s = some k) (hrec : recOn s = true) (hopen : s.cask.opened = true) :
    exec .segmentTimer s = .next (segRoll 1 (reach (tickOf s (s.cask.base + k)) s)) := by
  have hend : s.cask.ending.isNone = true := (Bool.and_eq_true_iff.1 hrec).2
  have hrec' : recOn (reach (tickOf s (s.cask.base + k)) s) = true := hrec
  have hexec : exec .segmentTimer s = execSegmentTimer s := rfl
  rw [hexec, execSegmentTimer, hk]
  dsimp only
  rw [if_pos ⟨hopen, hend⟩, if_pos hrec']

/-- The hash of the oldest segment that waits for it leaves the memory master port alone. -/
theorem hashHead_frame (s : State) : hashHead s = { s with
    cask := (hashHead s).cask, mems := (hashHead s).mems, mi := (hashHead s).mi, irq := (hashHead s).irq } := by
  have hmmp : (hashHead s).mmp = s.mmp := congrArg (·.2.2.2) (hashHead_racking (s := s))
  rw [← hmmp]
  exact ((RecStep.refl s).hashHead).1

theorem hashHead_acts {l : List (Nat × Nat)} (hwait : s.cask.toHash = (slot, seg) :: l) : (hashHead s).cask.toHash = l
    ∧ (hashHead s).cask.prevHash = word256 (shaOf (slotStored s slot))
    ∧ (seg % 64 = 0 → (hashHead s).cask.toSign = s.cask.toSign ++ [(seg, word256 (shaOf (slotStored s slot)))]) := by
  unfold hashHead
  rw [hwait]
  refine ⟨rfl, rfl, fun hseg => ?_⟩
  simp [hseg, whenSt]

/-- A signature that comes while no segment is open and the session goes on is held (R520). -/
theorem exec_anchorSigned_held {l : List (Nat × List Word)} (hsign : s.cask.toSign = (seg, h) :: l) (hend : s.cask.ending = none)
    (hopen : s.cask.opened = false) : exec .anchorSigned s = .next (
      let r := anchorSign seg h (modCask (fun k => { k with toSign := l }) s)
      modCask (fun k => { k with held := k.held ++ [r.1] }) r.2) := by
  have hexec : exec .anchorSigned s = execAnchorSigned s := rfl
  rw [hexec, execAnchorSigned, hsign]
  simp [hend, hopen, anchorSign, devSign, nextFree]

/-- Settles O24: the timer by the roll of a recording cask, the hash and the signature by the heads of their queues. -/
theorem segmentsRollHashAndSign : Obligations.SegmentsRollHashAndSign := by
  unfold Obligations.SegmentsRollHashAndSign
  intro s
  refine ⟨fun k hk hrec hopen hfreeze => ?_, fun hrec hne => if_pos ⟨hrec, hne⟩, fun slot seg l hwait => ?_,
    fun seg h l hsign hend hopen => ?_⟩
  · refine ⟨_, exec_segmentTimer hk hrec hopen, ?_, segRoll_next (s := reach _ s) hfreeze hopen⟩
    exact ((RecStep.refl (reach _ s)).segRoll 1).1
  · exact ⟨hashHead s, rfl, hashHead_frame s, hashHead_acts hwait⟩
  · exact ⟨_, _, exec_anchorSigned_held hsign hend hopen, rfl, rfl, rfl, rfl, rfl⟩

end Sys2Proof.Machine
end

section
/-! A replay as the recorder, the reports of faults and the end of a replay move it: 18_recording_replay R530 to R533. -/

namespace Sys2Proof.Machine

variable {s t u : State} {r : Replay} {b : Fin 2}

/-! ### A reply concerns its port, the check of its cells, and the interrupt controller -/

theorem queueReply_frame (p : Port) (st : Status) (tag : BitVec 7) (wake : Bool) (ws : List Word) (s : State) :
    queueReply p st tag wake ws s = { s with
      ports := (queueReply p st tag wake ws s).ports, irq := (queueReply p st tag wake ws s).irq
      mi := (queueReply p st tag wake ws s).mi } := by
  have hcells : ∃ c i k, encCells (replyM p) ws s = (c, { s with irq := i, mi := k }) := by
    unfold encCells
    split
    · rw [raise_only]
      exact ⟨_, _, _, rfl⟩
    · exact ⟨_, _, _, rfl⟩
  obtain ⟨c, i, k, hcells⟩ := hcells
  have hraise (n : Fin 96) (x : PortSt → PortSt) (v : State) : ∃ a b, raise n (modPort p x v) = { v with ports := a, irq := b } :=
    ⟨_, _, raise_only n (modPort p x v)⟩
  have hqueued : ∀ v : State, (∃ a b, v = { s with ports := a, irq := b, mi := k }) →
      (if wake then modPort p (fun x => { x with wakeLvl := true }) v else v)
        = { s with ports := (if wake then modPort p (fun x => { x with wakeLvl := true }) v else v).ports
                   irq := (if wake then modPort p (fun x => { x with wakeLvl := true }) v else v).irq
                   mi := (if wake then modPort p (fun x => { x with wakeLvl := true }) v else v).mi } := by
    rintro _ ⟨a, b, rfl⟩
    cases wake <;> rfl
  unfold queueReply
  rw [hcells]
  dsimp only
  refine hqueued _ ?_
  split
  · obtain ⟨a, b, h⟩ := hraise (srcReply p) _ _
    exact ⟨a, b, h⟩
  · obtain ⟨a, b, h⟩ := hraise (srcWaiting p) _ _
    exact ⟨a, b, h⟩

theorem completeDeferred_frame (d : Deferred) (st : Status) (ws : List Word) (s : State) : completeDeferred d st ws s = { s with
    deferred := s.deferred.filter (· != d), ports := (completeDeferred d st ws s).ports, irq := (completeDeferred d st ws s).irq
    mi := (completeDeferred d st ws s).mi } :=
  queueReply_frame d.port st d.tag d.wake ws (modDeferred (fun l => l.filter (· != d)) s)

/-! ### The recorder leaves the replay alone -/

/-- The replay that is under way. -/
def replayOf (s : State) : Option Replay := s.cask.replay

theorem replayOf_of_ring (h : t.cask.ring.replay = s.cask.ring.replay) : replayOf t = replayOf s := h

theorem replayOf_of_cask (h : t.cask = s.cask) : replayOf t = replayOf s := congrArg Cask.replay h

@[simp ↓] theorem replayOf_ite {c : Prop} [Decidable c] : replayOf (if c then s else t) = if c then replayOf s else replayOf t :=
  apply_ite ..

@[simp] theorem raise_replayOf (n : Fin 96) : replayOf (raise n s) = replayOf s := replayOf_of_cask (raise_cask ..)

@[simp] theorem recRaw_replayOf (type arg stamp : Nat) (ws : List Word) : replayOf (recRaw type arg stamp ws s) = replayOf s :=
  replayOf_of_ring (by rw [recRaw_ring])

@[simp] theorem segClose_replayOf (code : Nat) (last : Bool) : replayOf (segClose code last s) = replayOf s := by
  by_cases h : s.cask.opened = true
  · exact replayOf_of_ring (by rw [segClose_ring h])
  · exact congrArg replayOf (if_neg h)

@[simp] theorem segNext_replayOf : replayOf (segNext s) = replayOf s := by
  by_cases h : s.cask.closed.contains s.cask.slot ∧ cfgBit s .caskCfg 0
  · rw [segNext_paused h]
    rfl
  · exact replayOf_of_ring (by rw [segNext_ring h])

@[simp] theorem sessionEnding_replayOf (code : Nat) : replayOf (sessionEnding code s) = replayOf s := by
  unfold sessionEnding
  dsimp only
  split_ifs <;> exact segClose_replayOf ..

@[simp] theorem segRoll_replayOf (code : Nat) : replayOf (segRoll code s) = replayOf s := by
  unfold segRoll
  split
  · exact sessionEnding_replayOf ..
  · exact segNext_replayOf.trans (segClose_replayOf ..)
  · exact segNext_replayOf.trans (segClose_replayOf ..)

@[simp] theorem recDrop_replayOf (kind : Nat) : replayOf (recDrop kind s) = replayOf s := by
  simp only [replayOf, recDrop, modCask_cask]
  split <;> rfl

@[simp] theorem recLoss_replayOf : replayOf (recLoss s) = replayOf s := by
  unfold recLoss
  dsimp only
  split
  · rfl
  · exact recRaw_replayOf ..

/-- A record concerns the segments, never the replay. -/
@[simp] theorem recOffer_replayOf (type arg stamp : Nat) (ws : List Word) : replayOf (recOffer type arg stamp ws s) = replayOf s := by
  have hbuf (n k : Nat) (v : State) : replayOf (modCask (fun c => { c with buf := n, bufAt := k }) v) = replayOf v := rfl
  simp [recOffer, hbuf]

/-! ### A report of a fault leaves the replay alone -/

@[simp] theorem modFlt_replayOf (f : Faults → Faults) : replayOf (modFlt f s) = replayOf s := rfl

@[simp] theorem setFltCnt_replayOf (d c : Nat) (x : FltCnt) : replayOf (setFltCnt d c x s) = replayOf s := rfl

@[simp] theorem logAdd_replayOf (d c cls : Nat) (promoted : Bool) (unit : Nat) :
    replayOf (logAdd d c cls promoted unit s) = replayOf s := rfl

@[simp] theorem recFault_replayOf (d c cls : Nat) (promoted : Bool) (unit : Nat) :
    replayOf (recFault d c cls promoted unit s) = replayOf s := by simp [recFault, recNow]

@[simp] theorem holdFault_replayOf (d : Fin 12) (c unit : Nat) (promoted : Bool) :
    replayOf (holdFault d c unit promoted s) = replayOf s := by
  unfold holdFault
  split <;> rfl

@[simp] theorem fatal_replayOf (d : Fin 12) (c unit : Nat) (esc : Bool) (pc pu : Nat) :
    replayOf (fatal d c unit esc pc pu s) = replayOf s := by
  have hreset (a : BitVec 7) (f : Bool) (v : State) : replayOf (startReset a f v) = replayOf v := rfl
  have hfrec (x y z : Nat) (e : Bool) (p q : Nat) (v : State) : replayOf (writeFrec x y z e p q v) = replayOf v := rfl
  have haon (f : Aon → Aon) (v : State) : replayOf (modAon f v) = replayOf v := rfl
  have hidle (v : State) : replayOf (modCask (fun k => { k with st := .idle }) v) = replayOf v := rfl
  simp [fatal, hreset, hfrec, haon, hidle]

@[simp] theorem freezeOnFault_replayOf : replayOf (freezeOnFault s) = replayOf s := by
  unfold freezeOnFault
  split <;> rfl

section
variable {d : Fin 12} (hd : d.val ≠ 9)
include hd

theorem contain_replayOf (c unit : Nat) (promoted : Bool) : replayOf (contain d c unit promoted s) = replayOf s := by
  unfold contain
  split <;> simp [securityEvent, hd]

theorem report_replayOf (c unit : Nat) : replayOf (report d c unit s) = replayOf s := by
  unfold report
  split <;> simp [securityEvent, hd, contain_replayOf, countCorrected]

end

/-- A read of the cask's memory may report what it finds; the replay stays. -/
theorem memRead_caskM_replayOf (a : Nat) : replayOf (memRead .host caskM a s).2 = replayOf s := by
  have hset : ∀ c (v : State), replayOf (memSet caskM a c v) = replayOf v := fun _ _ => rfl
  have hcnt : ∀ f (v : State), replayOf (modCnt caskM f v) = replayOf v := fun _ _ => rfl
  have hreport : ∀ c unit (v : State), replayOf (report 7 c unit v) = replayOf v := fun _ _ _ => report_replayOf (by decide) ..
  have hreact : ∀ v : State, badReaction .host caskM a v = v := fun _ => rfl
  have hline : lineBank s caskM = none := rfl
  unfold memRead
  rw [hline]
  dsimp only
  split
  · rfl
  · simp [noteCorrected, hset, hcnt, hreport]
  · simp [noteBad, hreact, hcnt, hreport]

theorem slotScan_replayOf (slot : Nat) : replayOf (slotScan slot s).2 = replayOf s :=
  List.foldlRecOn (motive := fun x : Bool × State => replayOf x.2 = replayOf s) _ _ rfl
    fun _ hx _ _ => (memRead_caskM_replayOf _).trans hx

/-! ### The next segment is fetched (R524, R530) -/

theorem replayAsk_replay (h : s.cask.replay = some r) : ∃ x, (replayAsk s).cask.replay = some x := by
  unfold replayAsk
  rw [h]
  dsimp only
  split
  · exact ⟨_, by rw [modReplay, modCask_cask, mmpSubmit, modMmp_cask, h]; rfl⟩
  · exact ⟨_, h⟩

/-- The replay is still there when a segment has been fetched. -/
theorem replayFetch_replay {i : Nat} {f : Fetch} (h : s.cask.replay = some r) (hf : replayFetch i s = (f, u)) :
    ∃ x, u.cask.replay = some x := by
  have hu : u = (replayFetch i s).2 := (congrArg Prod.snd hf).symm
  rw [hu]
  unfold replayFetch
  rw [h]
  dsimp only
  split
  · split
    · exact replayAsk_replay (r := { r with source := _ }) (by rw [modReplay, modCask_cask, h]; rfl)
    · exact ⟨_, h⟩
  · exact ⟨_, (slotScan_replayOf ..).trans h⟩

/-! ### The tracker restarts with no bank walked -/

theorem activeBank_unarmed (h : ∀ k, (bnk s k).st = .unarmed) : activeBank s = none := by
  simp [activeBank, h]

theorem dropActs_cask (e : Extent) (s : State) : (dropActs e s).cask = s.cask := foldSt_keeps State.cask _ _ (by intros; rfl) _

theorem withdraw_cask (h : replaying s = false) (e : Extent) : (withdraw e s).cask = s.cask := by
  have hlive : (dropActs e s).cask.st ≠ .replaying := by simpa [replaying, dropActs_cask] using h
  have hlinks := foldSt_keeps State.cask (groups.filter fun g => (lnk (dropActs e s) g).st = .up)
    (fun g => modLink g fun l => { l with withdraw := some (joinExtent e l.withdraw) }) (by intros; rfl) (dropActs e s)
  unfold withdraw
  dsimp only
  rw [modSeq_cask, if_neg hlive, hlinks, dropActs_cask]

/-- From `s` to `t` the cask and the banks have not changed. -/
def Rests (s t : State) : Prop := t.cask = s.cask ∧ t.seq.banks = s.seq.banks

theorem Rests.trans (h : Rests s t) (k : Rests t u) : Rests s u := ⟨k.1.trans h.1, k.2.trans h.2⟩

theorem Rests.replaying (h : Rests s t) : replaying t = replaying s := replaying_of_caskSt (by rw [h.1])

theorem Rests.unarmed (h : Rests s t) (hbanks : ∀ k, (bnk s k).st = .unarmed) (k : Fin 2) : (bnk t k).st = .unarmed := by
  rw [bnk_of_banks h.2 k]
  exact hbanks k

theorem raiseTrk_rests (n : Fin 96) (s : State) : Rests s (raiseTrk n s) := by
  unfold raiseTrk
  split
  · exact ⟨rfl, rfl⟩
  · rw [raise_only]
    exact ⟨rfl, rfl⟩

theorem trkValid_rests (was : Bool) (s : State) : Rests s (trkValid was s) := by
  unfold trkValid
  split
  · exact raiseTrk_rests ..
  · split
    · exact raiseTrk_rests ..
    · exact ⟨rfl, rfl⟩

theorem syncWait_rests (s : State) : Rests s (syncWait s) := ⟨rfl, rfl⟩

section
variable (h : replaying s = false)
include h

theorem trkLeave_rests (fell stopped : Bool) (hbanks : ∀ k, (bnk s k).st = .unarmed) : Rests s (trkLeave fell stopped s) := by
  unfold trkLeave
  split
  · have hdrawn : Rests s (withdraw .angle s) := ⟨withdraw_cask h _, by rw [withdraw_seq h]⟩
    rw [parkActive, activeBank_unarmed (hdrawn.unarmed hbanks)]
    exact hdrawn
  · exact ⟨rfl, rfl⟩

theorem trkShadow_live : trkShadow s = s := if_neg fun hst => by simp [replaying, hst] at h

theorem trkEnter_rests (hbanks : ∀ k, (bnk s k).st = .unarmed) (st : TrkState) (posHeld : Bool) :
    Rests s (trkEnter st posHeld s) := by
  have hvalid : Rests s (trkValid (angValid s) (modTrk (trkTake st posHeld) s)) := trkValid_rests ..
  have hleave (fell stopped : Bool) :=
    hvalid.trans (trkLeave_rests (hvalid.replaying.trans h) fell stopped (hvalid.unarmed hbanks))
  unfold trkEnter
  dsimp only
  rw [trkShadow_live ((hleave ..).replaying.trans h)]
  exact (hleave ..).trans (syncWait_rests _)

theorem trkRestart_rests (hbanks : ∀ k, (bnk s k).st = .unarmed) : Rests s (trkRestart s) := by
  have henter := trkEnter_rests h hbanks .stopped false
  unfold trkRestart
  dsimp only
  generalize trkEnter .stopped false s = v at henter ⊢
  exact henter

end

end Sys2Proof.Machine
end

section
/-! REPLAY (O25): 18_recording_replay R530 to R533. START, ABORT and the end over the state of the cask; the beginning at a
CHECKPOINT; and the records that act. -/

namespace Sys2Proof.Machine

variable {s t u : State} {r : Replay} {m : Msg} {op : Op} {hd : Handler} {w a b : Word}

/-! ### Deferred commands (R157) -/

/-- A ready packet of a deferred opcode that passes its checks is executed with its reply to come. -/
theorem PacketReady.deferred (h : PacketReady op m s) {i : OpInfo} (hi : opInfo op = some i) (hlate : i.deferred = true)
    (hj : judge op hd m false (takenUp op m s) = none) :
    interp op hd m s = .next (answerDeferred op m (hd.run m (addDeferred (defOf op m) (takenUp op m s)))) := by
  rw [interp_ready h.toPacketHead hd i hi hj, hlate, if_pos rfl]

/-- A deferred command that is done at once is no longer deferred, and is answered. -/
theorem answerDeferred_atOnce {st : Status} {ws : List Word} (hnot : defOf op m ∉ u.deferred) (hu : resetting u = false) :
    answerDeferred op m (.reply st ws, addDeferred (defOf op m) u) = replied m st ws u := by
  have hall : (u.deferred ++ [defOf op m]).filter (· != defOf op m) = u.deferred := by
    rw [List.filter_append, List.filter_eq_self.2 fun x hx => by simpa using fun hxd : x = defOf op m => hnot (hxd ▸ hx)]
    simp
  have hback : modDeferred (fun l => l.filter (· != defOf op m)) (addDeferred (defOf op m) u) = u := by
    rw [addDeferred, modDeferred, modDeferred]
    dsimp only
    rw [hall]
  have hin : (addDeferred (defOf op m) u).deferred.contains (defOf op m) = true := by simp [addDeferred, modDeferred]
  rw [answerDeferred, if_pos hin]
  dsimp only
  rw [hback, answer_reply hu]

/-- The reply of a command leaves all but the ports, the deferred commands, the controller and the check of its cells alone. -/
theorem answerDeferred_frame {st : Status} {ws : List Word} (op : Op) (m : Msg) (u : State) :
    let t := answerDeferred op m (.reply st ws, u)
    t = { u with deferred := t.deferred, ports := t.ports, irq := t.irq, mi := t.mi } ∧ ∀ d ∈ t.deferred, d ∈ u.deferred := by
  unfold answerDeferred
  dsimp only
  split
  · unfold answer
    dsimp only
    have hsub : ∀ d ∈ u.deferred.filter (· != defOf op m), d ∈ u.deferred := fun d hd => List.mem_of_mem_filter hd
    split
    · exact ⟨rfl, hsub⟩
    · rw [queueReply_frame]
      exact ⟨rfl, hsub⟩
  · exact ⟨rfl, fun _ h => h⟩

/-! ### The end of a replay (R531, R533) -/

theorem hashAll_replayOf (n : Nat) (s : State) : replayOf (hashAll n s) = replayOf s := by
  induction n generalizing s with
  | zero => rfl
  | succ n ih =>
    unfold hashAll
    split
    · rfl
    · exact (ih _).trans (replayOf_of_ring (by rw [hashHead_ring]))

theorem signAll_replayOf : replayOf (signAll s) = replayOf s :=
  List.foldlRecOn (motive := fun v => replayOf v = replayOf s) _ _ rfl fun _ hv _ _ => hv

theorem recHeld_replayOf : replayOf (recHeld s) = replayOf s := replayOf_of_ring (by rw [recHeld_ring])

theorem segOpen_replayOf (first last : Bool) : replayOf (segOpen first last s) = replayOf s :=
  replayOf_of_ring (by rw [segOpen_ring])

theorem closingSegment_replayOf (code : Nat) : replayOf (closingSegment code s) = replayOf s :=
  (segClose_replayOf ..).trans (recHeld_replayOf.trans (segOpen_replayOf ..))

/-- The end of the shadow session counts its segments in the replay, and changes nothing else of it. -/
theorem shadowEnd_replayOf (h : replayOf s = some r) : ∃ k, replayOf (shadowEnd s) = some { r with shadowSegs := k } := by
  have hclosed : replayOf (hashAll 300 (if (modCask (fun k => { k with ending := some 5 }) s).cask.opened then
      segClose 5 false (modCask (fun k => { k with ending := some 5 }) s) else modCask (fun k => { k with ending := some 5 }) s))
      = some r := by
    rw [hashAll_replayOf, replayOf_ite, segClose_replayOf, ite_self]
    exact h
  unfold shadowEnd
  dsimp only
  generalize hashAll 300 _ = v at hclosed ⊢
  split
  · have hend : replayOf (closingSegment 5 (signAll v)) = some r := (closingSegment_replayOf 5).trans (signAll_replayOf.trans hclosed)
    exact ⟨r.shadowSegs + 1, congrArg (Option.map _) hend⟩
  · exact ⟨r.shadowSegs, hclosed⟩

theorem closePans_cask (g : Grp) (n : Nat) (reason : BitVec 3) (which : Pan → Bool) (s : State) :
    (closePans g n reason which s).cask = s.cask := by
  unfold closePans
  refine foldSt_keeps State.cask _ _ (fun p v => ?_) s
  split <;> rfl

/-- Where a replay has been released: the cask is IDLE, the tracker STOPPED, both banks UNARMED (R531). -/
structure Released (s t : State) : Prop where
  idle : t.cask.st = .idle
  none : t.cask.replay = none
  res : t.cask.rpRes = s.cask.rpRes
  matched : t.cask.rpMatch = s.cask.rpMatch
  stopped : t.trk.st = .stopped
  unarmed : ∀ k, (bnk t k).st = .unarmed

theorem replayRelease_released (s : State) : Released s (replayRelease s) := by
  have hpans : (foldSt groups (fun g v => closePans g (tbNow s) 6 (fun k => k.replay) v) s).cask = s.cask :=
    foldSt_keeps State.cask _ _ (fun g v => closePans_cask ..) s
  unfold replayRelease
  dsimp only
  generalize foldSt groups (fun g v => closePans g (tbNow s) 6 (fun k => k.replay) v) s = v at hpans ⊢
  have hacts : (dropActs .all v).cask = s.cask := (dropActs_cask ..).trans hpans
  generalize dropActs .all v = x at hacts ⊢
  have hbanks (k : Fin 2) : (bnk (setBank 1 .unarmed (setBank 0 .unarmed x)) k).st = .unarmed := by
    match k with
    | 0 => rw [bnk_setBank_other (by decide), bnk_setBank_same]
    | 1 => rw [bnk_setBank_same]
  have hcask : (setBank 1 .unarmed (setBank 0 .unarmed x)).cask = s.cask := hacts
  generalize setBank 1 .unarmed (setBank 0 .unarmed x) = y at hbanks hcask ⊢
  have hrest := trkRestart_rests (s := modCask (fun k => { k with
      st := .idle, replay := none, shadow := false, ending := none, toHash := [], toSign := [], held := [] })
      (modMmp (fun m => { m with
        reqs := m.reqs.filter fun r => r.user != .replay
        bus := match m.bus with | some (.replay, _) => none | b => b }) (stopWalk y))) rfl hbanks
  refine ⟨?_, ?_, ?_, ?_, trkRestart_st _, hrest.unarmed hbanks⟩
  · exact congrArg Cask.st hrest.1
  · exact congrArg Cask.replay hrest.1
  · exact (congrArg Cask.rpRes hrest.1).trans (congrArg Cask.rpRes hcask :)
  · exact (congrArg Cask.rpMatch hrest.1).trans (congrArg Cask.rpMatch hcask :)

/-- Only what a reply changes, and the deferred commands, may differ. -/
theorem Released.of_frame (h : Released s t) (hcask : u.cask = t.cask) (htrk : u.trk = t.trk) (hseq : u.seq = t.seq) :
    Released s u := by
  refine ⟨by rw [hcask, h.idle], by rw [hcask, h.none], by rw [hcask, h.res], by rw [hcask, h.matched], by rw [htrk, h.stopped],
    fun k => ?_⟩
  rw [bnk_of_banks (congrArg Seq.banks hseq) k, h.unarmed]

/-- What a replay leaves behind when it has ended with a RESULT. -/
structure ReplayEnds (r : Replay) (res : BitVec 3) (t : State) : Prop where
  idle : t.cask.st = .idle
  none : t.cask.replay = none
  res : t.cask.rpRes = res
  matched : t.cask.rpMatch = r.matched
  stopped : t.trk.st = .stopped
  unarmed : ∀ k, (bnk t k).st = .unarmed
  answered : r.cmd ∉ t.deferred

theorem replayFinish_ends (h : s.cask.replay = some r) (res : Nat) : ReplayEnds r (BitVec.ofNat 3 res) (replayFinish res s) := by
  have hshadow : ∃ k, replayOf (if r.began then shadowEnd s else s) = some { r with shadowSegs := k } := by
    rw [replayOf_ite]
    split
    · exact shadowEnd_replayOf h
    · exact ⟨r.shadowSegs, h⟩
  unfold replayFinish
  rw [h]
  dsimp only
  generalize (if r.began then shadowEnd s else s : State) = v at hshadow ⊢
  obtain ⟨k, hv⟩ := hshadow
  rw [show v.cask.replay = some { r with shadowSegs := k } from hv]
  dsimp only
  have hrel := replayRelease_released (modCask (fun k => { k with rpRes := BitVec.ofNat 3 res, rpMatch := r.matched }) v)
  generalize replayRelease (modCask (fun k => { k with rpRes := BitVec.ofNat 3 res, rpMatch := r.matched }) v) = x at hrel ⊢
  have hdone : ∀ y : State, y.cask = x.cask → y.trk = x.trk → y.seq = x.seq → r.cmd ∉ y.deferred →
      ReplayEnds r (BitVec.ofNat 3 res) (raise 89 y) := by
    intro y hcask htrk hseq hnot
    have hy := hrel.of_frame (u := raise 89 y) ((raise_cask ..).trans hcask) ((raise_trk ..).trans htrk) ((raise_seq ..).trans hseq)
    exact ⟨hy.idle, hy.none, hy.res, hy.matched, hy.stopped, hy.unarmed, by rw [raise_deferred]; exact hnot⟩
  split
  · rw [completeDeferred_frame]
    exact hdone _ rfl rfl rfl (by simp)
  next hnot => exact hdone _ rfl rfl rfl (by simpa using hnot)

/-! ### REPLAY (R530, R531) -/

/-- The replay that a START makes. -/
def replayMade (m : Msg) (s : State) : Replay :=
  { cmd := defOf Op.replay m, pages := bit (pword m 0) 1, strict := bit (pword m 0) 2, first := (pword m 1).toNat
    count := (pword m 2).toNat, earliest := tbNow s + 10 * ms, began := false, seg := 0, words := [], pos := 0, hi := 0
    result := none, matched := 0, cfgHash := [], prevHash := [], recState := 0, shadowSegs := 0, lastEnd := 0, asked := 0
    source := [], failed := false }

/-- The cask becomes that of a replay. -/
def replaySet (r : Replay) (s : State) : State := modCask (fun k => { k with
  st := .replaying, replay := some r, rpRes := 0, rpMatch := 0, rpTrunc := false, shadow := false }) s

/-- A read of the first rack page may be asked for at once (R543). -/
theorem replayAsk_set (r : Replay) (s : State) : ∃ n, replayAsk (replaySet r s) = { s with
      cask := (replaySet { r with asked := n } s).cask, mmp := (replayAsk (replaySet r s)).mmp }
    ∧ (r.pages = false → (replayAsk (replaySet r s)).mmp = s.mmp) := by
  unfold replayAsk
  dsimp only [replaySet, modCask_cask]
  split
  next hask => exact ⟨r.asked + 1, rfl, fun hno => absurd hask.1 (by simp [hno])⟩
  next => exact ⟨r.asked, rfl, fun _ => rfl⟩

theorem exec_replayStart (h : PacketReady Op.replay m s) (hw : m.words = [w, a, b]) (hstart : bit w 0 = false)
    (hzero : fld w 3 17 = 0) (hcount : b ≠ 0) (hfirst : bit w 1 = true ∨ a.toNat < 256)
    (hidle : (takenUp Op.replay m s).cask.st = .idle) (hpans : noOpenPan s = true) :
    exec (.replayStart m) s = .next (replayAsk (replaySet (replayMade m (takenUp Op.replay m s))
      (addDeferred (defOf Op.replay m) (takenUp Op.replay m s)))) := by
  have hw0 : pword m 0 = w := by simp [pword, hw]
  have habort : replayAborts m = false := by rw [replayAborts, hw0, hstart]
  have hpans' : noOpenPan (takenUp Op.replay m s) = true := by rw [noOpenPan, (takenUp_took Op.replay m s).smp_eq]; exact hpans
  have hj : judge Op.replay replayH m false (takenUp Op.replay m s) = none := by
    refine judge_ready h replayH _ rfl ?_ ?_ ?_ ?_ rfl ?_ rfl rfl
    · simp [replayH, hidle, hpans']
    · simp [hw]
    · exact fun _ => by simp [hw]
    · simp [replayH, hw, habort]
    · rcases hfirst with hf | hf <;> simpa [replayH, habort, hzero, hf, hw, pword] using hcount
  have hrun : replayH.run m (addDeferred (defOf Op.replay m) (takenUp Op.replay m s)) = (.later,
      replayAsk (replaySet (replayMade m (takenUp Op.replay m s)) (addDeferred (defOf Op.replay m) (takenUp Op.replay m s)))) := by
    simp only [replayH, replayGo, habort]
    rfl
  have hexec : exec (.replayStart m) s = interp Op.replay replayH m s := rfl
  rw [hexec, h.deferred rfl rfl hj, hrun, answerDeferred_later]

theorem exec_replayAbort (h : PacketReady Op.replay m s) (hw : m.words = [w]) (habort : bit w 0 = true) (hzero : fld w 3 17 = 0) :
    let v := addDeferred (defOf Op.replay m) (takenUp Op.replay m s)
    exec (.replayAbort m) s = .next (answerDeferred Op.replay m (.reply stOk [], if replaying v then replayFinish 1 v else v)) := by
  have hw0 : pword m 0 = w := by simp [pword, hw]
  have habort' : replayAborts m = true := by rw [replayAborts, hw0, habort]
  have hj : judge Op.replay replayH m false (takenUp Op.replay m s) = none := by
    refine judge_ready h replayH _ rfl ?_ ?_ ?_ ?_ rfl ?_ rfl rfl
    · simp [replayH, habort']
    · simp [hw]
    · exact fun _ => by simp [hw]
    · simp [replayH, hw, habort']
    · simp [replayH, habort', hw0, hzero]
  have hrun (v : State) : replayH.run m v = (.reply stOk [], if replaying v then replayFinish 1 v else v) := by
    simp only [replayH, replayGo, habort', if_true]
  have hexec : exec (.replayAbort m) s = interp Op.replay replayH m s := rfl
  intro v
  rw [hexec, h.deferred rfl rfl hj, hrun]

theorem replayAbort_none (h : PacketReady Op.replay m s) (hw : m.words = [w]) (habort : bit w 0 = true) (hzero : fld w 3 17 = 0)
    (hnot : defOf Op.replay m ∉ s.deferred) (hst : (takenUp Op.replay m s).cask.st ≠ .replaying) :
    exec (.replayAbort m) s = .next (replied m stOk [] (takenUp Op.replay m s)) := by
  have hlive : replaying (addDeferred (defOf Op.replay m) (takenUp Op.replay m s)) = false := decide_eq_false hst
  refine (exec_replayAbort h hw habort hzero).trans (congrArg _ ?_)
  rw [hlive, if_neg Bool.false_ne_true]
  exact answerDeferred_atOnce (by rwa [(takenUp_took Op.replay m s).deferred_eq]) (takenUp_noReset Op.replay m s h.noReset)

theorem replayAbort_ends (h : PacketReady Op.replay m s) (hw : m.words = [w]) (habort : bit w 0 = true) (hzero : fld w 3 17 = 0)
    (hr : (takenUp Op.replay m s).cask.replay = some r) (hst : (takenUp Op.replay m s).cask.st = .replaying) :
    ∃ t, exec (.replayAbort m) s = .next t ∧ ReplayEnds r 1 t := by
  have hlive : replaying (addDeferred (defOf Op.replay m) (takenUp Op.replay m s)) = true := by simp [replaying, hst]
  have hexec := exec_replayAbort h hw habort hzero
  have hends : ReplayEnds r 1 (replayFinish 1 (addDeferred (defOf Op.replay m) (takenUp Op.replay m s))) :=
    replayFinish_ends (s := addDeferred (defOf Op.replay m) (takenUp Op.replay m s)) hr 1
  dsimp only at hexec
  rw [hlive, if_pos rfl] at hexec
  generalize replayFinish 1 _ = v at hends hexec
  obtain ⟨hframe, hsub⟩ := answerDeferred_frame (st := stOk) (ws := []) Op.replay m v
  generalize answerDeferred Op.replay m (.reply stOk [], v) = t at hframe hsub hexec
  refine ⟨t, hexec, ?_⟩
  have hrel : Released v v := ⟨hends.idle, hends.none, rfl, rfl, hends.stopped, hends.unarmed⟩
  have ht : Released v t := hrel.of_frame (by rw [hframe]) (by rw [hframe]) (by rw [hframe])
  exact ⟨ht.idle, ht.none, ht.res.trans hends.res, ht.matched.trans hends.matched, ht.stopped, ht.unarmed,
    fun hd => hends.answered (hsub _ hd)⟩

theorem exec_replayEnd {x : BitVec 3} (hr : s.cask.replay = some r) (hx : r.result = some x) :
    exec .replayEnd s = .next (replayFinish x.toNat s) := by
  have hexec : exec .replayEnd s = execReplayEnd s := rfl
  rw [hexec, execReplayEnd, hr]
  dsimp only
  rw [hx]

/-! ### The beginning (R531, R532) -/

section
variable {ws : List Word} (hr : s.cask.replay = some r) (hres : r.result = none) (hbegan : r.began = false)
  (hf : replayFetch 0 s = (.words ws, u))
include hr hres hbegan hf

/-- A replay whose first segment is there begins at its CHECKPOINT, or ends with RESULT 5. -/
theorem exec_replayBegin : exec .replayBegin s = .next (match checkpointAt ws with
    | none => modReplay (fun x => { x with result := some 5 }) u
    | some c => replayBegin r ws c u) := by
  have hexec : exec .replayBegin s = execReplayBegin s := rfl
  rw [hexec, execReplayBegin, hr]
  dsimp only
  rw [if_neg (by simp [hbegan, hres]), hf]
  dsimp only
  cases checkpointAt ws <;> rfl

end

theorem restoreTracker_st (c : List Word) (s : State) : (restoreTracker c s).trk.st = trkOfCode (fld (c.getD 15 0) 0 4) := rfl

theorem restoreTracker_cask (c : List Word) (s : State) : (restoreTracker c s).cask = s.cask := rfl

/-- The banks take up their states; tracker and cask are left alone. -/
theorem restoreBanks_frame (c : List Word) (s : State) : restoreBanks c s = { s with seq := (restoreBanks c s).seq } := by
  unfold restoreBanks
  dsimp only
  split <;> rfl

/-- The shadow session is begun; its segments are counted in the replay. -/
theorem shadowBegin_replay (sess : Word) (hr : s.cask.replay = some r) :
    (shadowBegin sess s).trk = s.trk ∧ ∃ k, (shadowBegin sess s).cask.replay = some { r with shadowSegs := k } := by
  unfold shadowBegin
  extract_lets pages v
  have hv : replayOf v = some r := hr
  split
  · exact ⟨rfl, r.shadowSegs, hv⟩
  · have hopen : RecStep v (segOpen true false v) := (RecStep.refl v).segOpen ..
    have hreplay : replayOf (segOpen true false v) = some r := (segOpen_replayOf ..).trans hv
    have htrk : (segOpen true false v).trk = s.trk := hopen.trk_eq
    generalize segOpen true false v = x at hreplay htrk ⊢
    refine ⟨htrk, 1, ?_⟩
    exact congrArg (Option.map _) hreplay

/-- A replay that its match does not stop begins with the recorded tracker (R531, R534). -/
theorem replayBegin_begins {x : Replay} {ws : List Word} (c : Rec) (hr : s.cask.replay = some x)
    (hmatch : r.strict = false ∨ matchAtStart c.ws s = 15) :
    ∃ y, (replayBegin r ws c s).cask.replay = some y ∧ y.began = true ∧ y.words = ws
      ∧ (replayBegin r ws c s).trk.st = trkOfCode (fld (c.ws.getD 15 0) 0 4) := by
  have hgo : ¬ (r.strict = true ∧ matchAtStart c.ws s ≠ 15) := by
    rintro ⟨hstrict, hne⟩
    rcases hmatch with h | h
    · exact Bool.false_ne_true (h.symm.trans hstrict)
    · exact hne h
  unfold replayBegin
  dsimp only
  rw [if_neg hgo]
  generalize tcorAfter ws 8 c.next c.hi = tc
  obtain ⟨tcor, pos⟩ := tc
  dsimp only
  have hputs (v : State) : (foldSt tcor (fun x s => if x.1 < 1024 then memPut 15 x.1 x.2 s else s) v).cask = v.cask :=
    foldSt_keeps State.cask _ _ (fun x v => ite_keep State.cask (memPut_cask ..) rfl) v
  have hmade (v : State) (hv : v.cask.replay.isSome = true) (start : Nat) (f : Replay → Replay)
      (hbegan : ∀ z, (f z).began = true) (hwords : ∀ z, (f z).words = ws) :
      let x := syncWait (shadowBegin (ws.getD 1 0) (modReplay f (restoreBanks c.ws (restoreTracker c.ws
        (foldSt tcor (fun x s => if x.1 < 1024 then memPut 15 x.1 x.2 s else s) v)))))
      ∃ y, x.cask.replay = some y ∧ y.began = true ∧ y.words = ws ∧ x.trk.st = trkOfCode (fld (c.ws.getD 15 0) 0 4) := by
    obtain ⟨z, hz⟩ := Option.isSome_iff_exists.1 hv
    have hcask := hputs v
    generalize foldSt tcor (fun x s => if x.1 < 1024 then memPut 15 x.1 x.2 s else s) v = v' at hcask ⊢
    have hbanks := restoreBanks_frame c.ws (restoreTracker c.ws v')
    have hreplay : (modReplay f (restoreBanks c.ws (restoreTracker c.ws v'))).cask.replay = some (f z) := by
      rw [hbanks]
      show (v'.cask.replay).map f = _
      rw [hcask, hz]
      rfl
    have htrk : (modReplay f (restoreBanks c.ws (restoreTracker c.ws v'))).trk.st = trkOfCode (fld (c.ws.getD 15 0) 0 4) := by
      rw [hbanks]
      rfl
    obtain ⟨hsame, k, hk⟩ := shadowBegin_replay (ws.getD 1 0) hreplay
    exact ⟨_, hk, hbegan z, hwords z, (congrArg Tracker.st hsame).trans htrk⟩
  refine hmade _ ?_ 0 _ (fun _ => rfl) (fun _ => rfl)
  simp [modReplay, reach, hr]

/-! ### Records that act (R532, R533) -/

theorem exec_replayRecordAct (hr : s.cask.replay = some r) (hres : r.result = none) (hbegan : r.began = true)
    (hpos : r.pos < segEnd r.words) :
    let x := recAt r.words r.pos r.hi
    let v := recAct x (modReplay (fun y => { y with pos := x.next, hi := x.hi }) s)
    exec .replayRecordAct s = .next (modReplay (fun y => { y with lastEnd := max y.lastEnd (tbNow v) }) v) := by
  have hexec : exec .replayRecordAct s = execReplayRecordAct s := rfl
  intro x v
  rw [hexec, execReplayRecordAct, hr]
  dsimp only
  rw [if_neg (by simp [hbegan, hres]), if_neg (by omega)]

theorem recAct_di {x : Rec} {n : Chan} (htype : x.type = 4) (hn : x.arg % 64 = n.val) (s : State) :
    recAct x s = modSlice n (fun y => { y with comp := x.arg / 64 % 2 == 1 })
      (reach (tickOf s ((x.stamp + s.cask.rpOfs.toNat) % 2 ^ 60)) s) := by
  have hlt : x.arg % 64 < 48 := hn ▸ n.isLt
  have hchan : (⟨x.arg % 64, hlt⟩ : Chan) = n := Fin.ext hn
  unfold recAct
  rw [htype]
  dsimp only
  rw [actDi, dif_pos hlt, hchan]
  rfl

theorem recAct_edge {x : Rec} (htype : x.type = 3) (s : State) : ∃ e : Edge, e.stamp = (x.stamp + s.cask.rpOfs.toNat) % 2 ^ 60
    ∧ e.level = (x.arg / 4 % 2 == 1) ∧ recAct x s = meetEdge e
      (reach (tickOf s ((x.stamp + s.cask.rpOfs.toNat) % 2 ^ 60 + fld (x.ws.getD 0 0) 0 10)) s) := by
  unfold recAct
  rw [htype]
  exact ⟨_, rfl, rfl, rfl⟩

theorem recAct_idle {x : Rec} (htype : x.type = 6 ∨ x.type = 7 ∨ x.type = 8 ∨ x.type = 16) (s : State) : recAct x s = s := by
  unfold recAct
  rcases htype with h | h | h | h <;> (rw [h]; rfl)

/-- Settles O25: REPLAY by its two forms, the end by what it releases, the beginning by its CHECKPOINT, a record by its type. -/
theorem replaysRun : Obligations.ReplaysRun := by
  unfold Obligations.ReplaysRun
  refine ⟨fun m w a b s => ?_, fun r s hr hres => ?_⟩
  · intro d u
    have htook : Took s u := takenUp_took Op.replay m s
    refine ⟨fun h hw hstart hzero hcount hfirst hidle hpans => ?_, fun h hw habort hzero hnot _ hst =>
      replayAbort_none h hw habort hzero hnot hst, fun r h hw habort hzero hr hst _ => ?_, fun r x hr hx => ?_⟩
    · have hw0 : pword m 0 = w := by simp [pword, hw]
      obtain ⟨n, hask, hmmp⟩ := replayAsk_set (replayMade m u) (addDeferred (defOf Op.replay m) u)
      refine ⟨_, { replayMade m u with asked := n }, exec_replayStart h hw hstart hzero hcount hfirst hidle hpans, ?_, ?_, rfl, ?_,
        ?_, ?_, ?_, rfl, rfl, ?_, fun hno => hmmp ?_⟩
      · rw [hask, ← htook.deferred_eq]
        rfl
      · rw [hask]
        rfl
      · exact congrArg (bit · 1) hw0
      · exact congrArg (bit · 2) hw0
      · simp [replayMade, pword, hw]
      · simp [replayMade, pword, hw]
      · simp only [replayMade, htook.tbNow_eq]
        rfl
      · exact (congrArg (bit · 1) hw0).trans hno
    · obtain ⟨t, hexec, hends⟩ := replayAbort_ends h hw habort hzero hr hst
      exact ⟨t, hexec, hends.idle, hends.none, hends.res, hends.stopped, hends.unarmed, hends.answered⟩
    · have hends := replayFinish_ends hr x.toNat
      rw [BitVec.ofNat_toNat, BitVec.setWidth_eq] at hends
      exact ⟨_, exec_replayEnd hr hx, hends.idle, hends.none, hends.res, hends.matched, hends.stopped, hends.unarmed, hends.answered⟩
  · refine ⟨fun ws u hbegan hf => ?_, fun hbegan hpos => ?_⟩
    · have hexec := exec_replayBegin hr hres hbegan hf
      refine ⟨fun hnone => ?_, fun c hc hmatch => ?_⟩
      · rw [hexec, hnone]
      · obtain ⟨x, hx⟩ := replayFetch_replay hr hf
        obtain ⟨y, hy, hbegan', hwords, hst⟩ := replayBegin_begins (r := r) (ws := ws) c hx hmatch
        rw [hc] at hexec
        exact ⟨_, y, hexec, hy, hbegan', hwords, hst⟩
    · have hexec := exec_replayRecordAct hr hres hbegan hpos
      intro x u stamp last
      refine ⟨fun n htype hn => ?_, fun htype => ?_, fun htype => ?_⟩
      · rw [hexec, recAct_di htype hn]
        rfl
      · obtain ⟨e, hstamp, hlevel, hact⟩ := recAct_edge htype u
        refine ⟨e, hstamp, hlevel, ?_⟩
        rw [hexec, hact]
        rfl
      · rw [hexec, recAct_idle htype]

end Sys2Proof.Machine
end

section
/-! SEAL_LOAD (O29): 17_security R495 to R497. The bundle is judged over the configuration and the security state; when it comes
into force each sealed register is written with the value it gives. -/

namespace Sys2Proof.Machine

variable {s t u : State} {m : Msg} {w : Word} {raw : List Word} {b : Bundle} {j : SecJob} {d : Deferred}

/-! ### The engine's jobs (R485) -/

theorem injAt_congr (h : t.inj = s.inj) (x c : Nat) : injAt t x c = injAt s x c := by simp only [injAt, h]

/-- A good signature changes nothing (R485). -/
theorem sigJudge_good {ok : Bool} (hok : ok = true) (hinj : injAt s 9 1 = none) : sigJudge ok s = (true, s) := by
  unfold sigJudge
  rw [hok, hinj]
  rfl

/-- A job that takes nothing when it starts. -/
def SecJob.plain : SecJob → Bool
  | .attest .. => false
  | _ => true

theorem jobStart_plain {l : List SecJob} (hjobs : s.sec.jobs = j :: l) (hj : j.plain = true) : jobStart s = s := by
  unfold jobStart
  rw [hjobs]
  cases j with
  | attest => exact absurd hj Bool.false_ne_true
  | _ => rfl

/-- A job that takes nothing when it starts only joins the queue. -/
theorem addJob_plain (hj : j.plain = true) (s : State) : addJob j s = modSec (fun x => { x with jobs := x.jobs ++ [j] }) s := by
  unfold addJob
  dsimp only
  split
  next hone =>
    refine jobStart_plain (j := j) (l := []) ?_ hj
    have hnil : s.sec.jobs = [] := List.eq_nil_of_length_eq_zero (by simpa using hone)
    rw [modSec_sec, hnil]
    rfl
  · rfl

/-- The next job may take a snapshot when it starts; nothing else changes. -/
theorem jobStart_frame (s : State) : ∃ l, jobStart s = modSec (fun x => { x with jobs := l }) s ∧ l.length = s.sec.jobs.length := by
  unfold jobStart
  split
  next e ws l hjobs => exact ⟨_, rfl, by rw [hjobs]; rfl⟩
  · exact ⟨s.sec.jobs, rfl, rfl⟩

/-- The end of the job at the front: its command is answered, and the next job starts. -/
theorem endJob_frame (d : Deferred) (st : Status) (ws : List Word) (s : State) : ∃ l, endJob d st ws s = { s with
      sec := { s.sec with jobs := l }, deferred := (endJob d st ws s).deferred, ports := (endJob d st ws s).ports
      irq := (endJob d st ws s).irq, mi := (endJob d st ws s).mi } ∧ l.length = (s.sec.jobs.drop 1).length := by
  have hdone := completeDeferred_frame d st ws (modSec (fun x => { x with jobs := x.jobs.drop 1 }) s)
  unfold endJob
  dsimp only
  generalize completeDeferred d st ws (modSec (fun x => { x with jobs := x.jobs.drop 1 }) s) = v at hdone ⊢
  obtain ⟨l, hstart, hlen⟩ := jobStart_frame v
  rw [hstart]
  refine ⟨l, ?_, hlen.trans ?_⟩
  · rw [hdone]
    rfl
  · rw [hdone]
    rfl

/-! ### A bundle is judged (R496) -/

theorem foldSt_comm {α : Type} (g : State → State) (f : α → State → State) (h : ∀ a s, f a (g s) = g (f a s)) (l : List α) (s : State) :
    foldSt l f (g s) = g (foldSt l f s) := by
  induction l generalizing s with
  | nil => rfl
  | cons a l ih => rw [foldSt_cons, foldSt_cons, h, ih]

theorem withBundle_addDeferred (b : Bundle) (d : Deferred) (s : State) :
    withBundle b (addDeferred d s) = addDeferred d (withBundle b s) :=
  foldSt_comm (addDeferred d) _ (fun r u => by split <;> rfl) sealedRegs s

theorem regRange_addDeferred (d : Deferred) (t : State) (r : Reg) (v : Word) : regRange (addDeferred d t) r v = regRange t r v := rfl

/-- Test 2 of R496 over the state with the bundle's values, and these values. -/
def bundleRangeIn (t : State) (v : Reg → Word) (raw : List Word) (b : Bundle) : Bool :=
  fld (raw.getD 1 0) 0 20 == 1 && b.seq != 0 && bundlePairs raw ≤ 1023 && bundleBanks raw ≤ 8
    && b.pairs.all (fun p => match Reg.ofAddr p.1 with
      | some r => r.isSealed && regRange t r p.2
      | none => false)
    && decide (cfgFld t .spdMin 0 13 < cfgFld t .spdMax 0 13)
    && wdRegsOk (v .wdCfg) (v .wdClose) (v .wdTimeout) (v .wdWarn)

theorem bundleRange_eq (s : State) (raw : List Word) (b : Bundle) :
    bundleRange s raw b = bundleRangeIn (withBundle b s) (bundleValue s b) raw b := rfl

theorem bundleRangeIn_addDeferred (d : Deferred) (t : State) (v : Reg → Word) (raw : List Word) (b : Bundle) :
    bundleRangeIn (addDeferred d t) v raw b = bundleRangeIn t v raw b := by
  have hreg : regRange (addDeferred d t) = regRange t := funext₂ (regRange_addDeferred d t)
  have hfld (r : Reg) : cfgFld (addDeferred d t) r 0 13 = cfgFld t r 0 13 := rfl
  unfold bundleRangeIn
  rw [hreg, hfld, hfld]

theorem bundleRange_addDeferred (d : Deferred) (s : State) (raw : List Word) (b : Bundle) :
    bundleRange (addDeferred d s) raw b = bundleRange s raw b := by
  rw [bundleRange_eq, withBundle_addDeferred, bundleRangeIn_addDeferred, bundleRange_eq]
  rfl

/-- A command that is under way has no part in the judgement of a bundle. -/
theorem bundleRefused_addDeferred (d : Deferred) (s : State) (raw : List Word) (seqTest : Bool) :
    bundleRefused (addDeferred d s) raw seqTest = bundleRefused s raw seqTest := by
  unfold bundleRefused
  dsimp only
  rw [bundleRange_addDeferred]
  rfl

section
variable (h : PacketReady Op.sealLoad m s) (hw : m.words = w :: raw) (hmax : m.words.length ≤ 2046)
  (hlen : raw.length = bundleLen raw) (hzero : fld w 1 19 = 0) (hlive : replaying (takenUp Op.sealLoad m s) = false)
  (hsess : bit w 0 = true → confSession s = false)
include h hw hmax hlen hzero hlive hsess

/-- SEAL_LOAD that passes its own tests is judged by its bundle. -/
theorem exec_sealLoad : exec (.sealLoad m) s = .next (answerDeferred Op.sealLoad m
    (sealGo m (addDeferred (defOf Op.sealLoad m) (takenUp Op.sealLoad m s)))) := by
  have hw0 : pword m 0 = w := by simp [pword, hw]
  have hsess' : (bit w 0 && confSession (takenUp Op.sealLoad m s)) = false := by
    rw [confSession, (takenUp_took Op.sealLoad m s).sec_eq, ← confSession]
    cases hb : bit w 0 with
    | false => rfl
    | true => exact hsess hb
  have hj : judge Op.sealLoad sealH m false (takenUp Op.sealLoad m s) = none := by
    refine judge_ready h sealH _ rfl ?_ ?_ ?_ ?_ rfl ?_ rfl rfl
    · simp only [sealH]
      rw [hw0, hlive, hsess']
      rfl
    · simp [hw]
    · exact fun _ => hmax
    · simp only [sealH, hw, List.length_cons, List.drop_succ_cons, List.drop_zero, ← hlen]
      simp [Nat.add_comm]
    · simp [sealH, hw0, hzero]
  exact h.deferred rfl rfl hj

theorem sealLoad_refused (hnot : defOf Op.sealLoad m ∉ s.deferred) {st : Status}
    (hst : bundleRefused (takenUp Op.sealLoad m s) raw true = some st) :
    exec (.sealLoad m) s = .next (replied m st [] (takenUp Op.sealLoad m s)) := by
  have hraw : m.words.drop 1 = raw := by rw [hw]; rfl
  rw [exec_sealLoad h hw hmax hlen hzero hlive hsess, sealGo, hraw, bundleRefused_addDeferred, hst]
  exact congrArg _ (answerDeferred_atOnce (by rwa [(takenUp_took Op.sealLoad m s).deferred_eq])
    (takenUp_noReset Op.sealLoad m s h.noReset))

theorem sealLoad_accepted (hgood : bundleRefused (takenUp Op.sealLoad m s) raw true = none)
    (hsigned : bundleSigned (takenUp Op.sealLoad m s) raw = true) (hinj : injAt s 9 1 = none) :
    exec (.sealLoad m) s = .next (modSec (fun x => { x with
      jobs := x.jobs ++ [.sealing (defOf Op.sealLoad m) (parseBundle raw) (bit w 0)] })
      (addDeferred (defOf Op.sealLoad m) (takenUp Op.sealLoad m s))) := by
  have hraw : m.words.drop 1 = raw := by rw [hw]; rfl
  have hw0 : pword m 0 = w := by simp [pword, hw]
  have hsigned' : bundleSigned (addDeferred (defOf Op.sealLoad m) (takenUp Op.sealLoad m s)) raw = true := hsigned
  have hinj' : injAt (addDeferred (defOf Op.sealLoad m) (takenUp Op.sealLoad m s)) 9 1 = none :=
    (injAt_congr (takenUp_took Op.sealLoad m s).inj_eq ..).trans hinj
  rw [exec_sealLoad h hw hmax hlen hzero hlive hsess, sealGo, hraw, bundleRefused_addDeferred, hgood]
  dsimp only
  rw [sigJudge_good hsigned' hinj', hw0]
  dsimp only
  rw [if_pos rfl, answerDeferred_later, addJob_plain rfl]

end

/-! ### A bundle comes into force (R497) -/

/-- The four registers that go to the watchdog. -/
def wdRegs : List Reg := [.wdCfg, .wdClose, .wdTimeout, .wdWarn]

/-- One sealed register takes the value of the bundle. -/
def sealReg (v : Reg → Word) (r : Reg) (s : State) : State :=
  match r with
  | .wdCfg | .wdClose | .wdTimeout | .wdWarn => s
  | r => if v r = cfgGet s r then s else putReg r (v r) s

theorem sealReg_watchdog (v : Reg → Word) {r : Reg} (h : r ∈ wdRegs) (s : State) : sealReg v r s = s := by
  simp only [wdRegs, List.mem_cons, List.not_mem_nil, or_false] at h
  rcases h with rfl | rfl | rfl | rfl <;> rfl

theorem sealReg_other (v : Reg → Word) {r : Reg} (h : r ∉ wdRegs) (s : State) :
    sealReg v r s = if v r = cfgGet s r then s else putReg r (v r) s := by
  unfold sealReg
  split
  iterate 4 · simp [wdRegs] at h
  · rfl

theorem sealReg_canonical (v : Reg → Word) (r : Reg) (h : s.canonical = true) : (sealReg v r s).canonical = true := by
  by_cases hr : r ∈ wdRegs
  · rwa [sealReg_watchdog v hr]
  · rw [sealReg_other v hr]
    split
    · exact h
    · exact putReg_canonical h ..

/-- The register holds its value, and a register of another address what it held. -/
theorem sealReg_cfgGet (v : Reg → Word) {r : Reg} (hr : r ∉ wdRegs) (h : s.canonical = true) (q : Reg) :
    cfgGet (sealReg v r s) q = if q = r then v r else cfgGet s q := by
  rw [sealReg_other v hr]
  split_ifs with hsame hq hq
  · rw [hq, hsame]
  · rfl
  · rw [hq, cfgGet_of_cfg (putReg_cfg ..), cfgGet_cfgSet_same h]
  · rw [cfgGet_of_cfg (putReg_cfg ..), cfgGet_cfgSet_other (Reg.addr_ne hq)]

/-- All registers of a list hold their values. -/
theorem sealRegs_hold (v : Reg → Word) (l : List Reg) (h : s.canonical = true) :
    (∀ r, r ∉ wdRegs → r ∈ l ∨ cfgGet s r = v r → cfgGet (foldSt l (sealReg v) s) r = v r) := by
  induction l generalizing s with
  | nil => exact fun r _ hr => hr.resolve_left List.not_mem_nil
  | cons q l ih =>
    intro r hr hin
    rw [foldSt_cons]
    refine ih (sealReg_canonical v q h) r hr ?_
    by_cases hq : q ∈ wdRegs
    · rw [sealReg_watchdog v hq]
      refine hin.imp_left fun hmem => (List.mem_cons.1 hmem).resolve_left ?_
      rintro rfl
      exact hr hq
    · rw [sealReg_cfgGet v hq h]
      rcases hin with hmem | hval
      · rcases List.mem_cons.1 hmem with rfl | hmem
        · exact .inr (if_pos rfl)
        · exact .inl hmem
      · refine .inr ?_
        split
        next heq => rw [heq]
        next => exact hval

theorem putReg_frame (r : Reg) (w : Word) (s : State) :
    putReg r w s = { s with cfg := (putReg r w s).cfg, links := (putReg r w s).links } := by
  have hfold : ∀ (l : List Grp) (u : State), foldSt l (fun g => sendConf g (.regs [(r.addr, w)] none)) u
      = { u with links := (foldSt l (fun g => sendConf g (.regs [(r.addr, w)] none)) u).links } := by
    intro l
    induction l with
    | nil => exact fun _ => rfl
    | cons g l ih =>
      intro u
      rw [foldSt_cons, ih, sendConf_frame]
  unfold putReg
  rw [hfold]
  rfl

theorem sealReg_frame (v : Reg → Word) (r : Reg) (s : State) :
    sealReg v r s = { s with cfg := (sealReg v r s).cfg, links := (sealReg v r s).links } := by
  by_cases hr : r ∈ wdRegs
  · rw [sealReg_watchdog v hr]
  · rw [sealReg_other v hr]
    split
    · rfl
    · rw [putReg_frame]

/-- The sealed registers and the watchdog have their values; the tracker may still have to restart. -/
def bundleSet (b : Bundle) (s : State) : State :=
  modSec (fun x => { x with bundle := some b, pending := none }) (foldSt sealedRegs (sealReg (bundleValue s b))
    (modWd (wdLoad (bundleValue s b .wdCfg) (bundleValue s b .wdClose) (bundleValue s b .wdTimeout) (bundleValue s b .wdWarn)) s))

theorem bundleApply_eq (b : Bundle) (s : State) : bundleApply b s =
    if trkRestartRegs.map (cfgGet (bundleSet b s)) = trkRestartRegs.map (cfgGet s) then bundleSet b s
    else trkRestart (bundleSet b s) := rfl

theorem bundleSet_sec (b : Bundle) (s : State) : (bundleSet b s).sec = { s.sec with bundle := some b, pending := none } := by
  rw [bundleSet, modSec_sec, foldSt_keeps State.sec _ _ (fun r u => by rw [sealReg_frame])]
  rfl

theorem bundleSet_wd (b : Bundle) (s : State) : (bundleSet b s).wd = wdLoad (bundleValue s b .wdCfg) (bundleValue s b .wdClose)
    (bundleValue s b .wdTimeout) (bundleValue s b .wdWarn) s.wd := by
  rw [bundleSet, modSec_wd, foldSt_keeps State.wd _ _ (fun r u => by rw [sealReg_frame])]
  rfl

theorem bundleSet_cfgGet (b : Bundle) (h : s.canonical = true) {r : Reg} (hr : r ∈ sealedRegs) (hn : r ∉ wdRegs) :
    cfgGet (bundleSet b s) r = bundleValue s b r := by
  refine (cfgGet_of_cfg (modSec_cfg ..) r).trans (sealRegs_hold _ sealedRegs ?_ r hn (.inl hr))
  exact (canonical_congr rfl rfl).trans h

/-- A restart of the tracker leaves registers, watchdog and security alone. -/
theorem trkRestart_seal (s : State) : (trkRestart s).sec = s.sec ∧ (trkRestart s).wd = s.wd ∧ (trkRestart s).cfg = s.cfg := by
  have hframe := ((TrkStep.refl s).trkRestart).1
  refine ⟨?_, ?_, ?_⟩ <;> rw [hframe]

theorem bundleApply_seal (b : Bundle) (s : State) : (bundleApply b s).sec = (bundleSet b s).sec
    ∧ (bundleApply b s).wd = (bundleSet b s).wd ∧ (bundleApply b s).cfg = (bundleSet b s).cfg := by
  rw [bundleApply_eq]
  split
  · exact ⟨rfl, rfl, rfl⟩
  · exact trkRestart_seal _

/-! ### The statement -/

theorem sealLoadComplete_waits {l : List SecJob} (hjobs : s.sec.jobs = .sealing d b false :: l) (hst : inConfMaint s = false) :
    exec .sealLoadComplete s = .next (jobStart (completeDeferred d stOk [0]
      (modSec (fun x => { x with pending := some b, jobs := l }) s))) := by
  have hexec : exec .sealLoadComplete s = execSealLoadComplete s := rfl
  have hdone : modSec (fun x => { x with jobs := x.jobs.drop 1 }) (modSec (fun x => { x with pending := some b }) s)
      = modSec (fun x => { x with pending := some b, jobs := l }) s := by
    simp only [modSec, hjobs, List.drop_succ_cons, List.drop_zero]
  rw [hexec, execSealLoadComplete, hjobs]
  dsimp only
  rw [hst, if_neg Bool.false_ne_true, if_neg Bool.false_ne_true, endJob, hdone]
  rfl

theorem sealLoadComplete_applies {l : List SecJob} (hjobs : s.sec.jobs = .sealing d b false :: l) (hst : inConfMaint s = true) :
    ∃ ws, exec .sealLoadComplete s = .next (endJob d stOk ws (bundleApply b s)) := by
  have hexec : exec .sealLoadComplete s = execSealLoadComplete s := rfl
  refine ⟨[pack [(0, 1), (1, 0)]], ?_⟩
  rw [hexec, execSealLoadComplete, hjobs]
  dsimp only
  rw [hst, if_pos rfl, if_neg Bool.false_ne_true]
  rfl

/-- Settles O29: the packet by its bundle's judgement, the finished job by what the bundle puts in force. -/
theorem sealBundlesTakeEffect : Obligations.SealBundlesTakeEffect := by
  unfold Obligations.SealBundlesTakeEffect
  intro m w raw s d u
  refine ⟨fun h hw hmax hlen hzero hlive hsess hnot => ⟨fun st hst =>
    sealLoad_refused h hw hmax hlen hzero hlive hsess hnot hst, fun hgood hsigned hinj =>
    sealLoad_accepted h hw hmax hlen hzero hlive hsess hgood hsigned hinj⟩, fun e b l hjobs =>
    ⟨sealLoadComplete_waits hjobs, fun hst hcanon => ?_⟩⟩
  obtain ⟨ws, hexec⟩ := sealLoadComplete_applies hjobs hst
  obtain ⟨hsec, hwd, hcfg⟩ := bundleApply_seal b s
  rw [bundleSet_sec] at hsec
  rw [bundleSet_wd] at hwd
  obtain ⟨l', hframe, -⟩ := endJob_frame e stOk ws (bundleApply b s)
  generalize endJob e stOk ws (bundleApply b s) = t at hframe hexec
  have hcfg' : t.cfg = (bundleSet b s).cfg := by rw [hframe, hcfg]
  have hwd' : t.wd = (bundleApply b s).wd := by rw [hframe]
  rw [hwd] at hwd'
  refine ⟨t, hexec, ?_, ?_, fun r hr hn => (cfgGet_of_cfg hcfg' r).trans (bundleSet_cfgGet b hcanon hr hn), ?_, ?_, ?_⟩
  · rw [hframe, hsec]
  · rw [hframe, hsec]
  · rw [hwd']
    rfl
  · rw [hwd']
    rfl
  · rw [hwd']
    rfl

end Sys2Proof.Machine
end

section
/-! OWNER_ENROLL and OWNER_RELEASE (O30): 17_security R490, R491, R493. Both judge a signature at their take-up and become a job;
the finished job programs the slot and rewrites the older copy of the configuration. -/

namespace Sys2Proof.Machine

variable {s t u : State} {m : Msg} {d : Deferred} {k : Fin 4} {fresh : Bool}

/-! ### The commands (R491, R493) -/

theorem enrollSlot_congr (h : t.sec = s.sec) (x : Nat) : enrollSlot t x = enrollSlot s x := by
  simp only [enrollSlot, emptySlot, curSlot, h]

theorem curSlot_congr (h : t.sec = s.sec) : curSlot t = curSlot s := by simp only [curSlot, h]

theorem ownerKey_congr (h : t.sec = s.sec) : ownerKey t = ownerKey s := by
  have hsec : ownerKey t = ownerKey { s with sec := t.sec } := rfl
  rw [hsec, h]

theorem confSession_congr (h : t.sec = s.sec) : confSession t = confSession s := by simp only [confSession, h]

theorem serial2_congr (h : t.sec = s.sec) : serial2 t = serial2 s := by simp only [serial2, h]

/-- The state in which a deferred command runs has the security state, and no more injections, than before its packet. -/
theorem deferred_sec (op : Op) (m : Msg) (s : State) : (addDeferred (defOf op m) (takenUp op m s)).sec = s.sec :=
  (takenUp_took op m s).sec_eq

theorem deferred_injAt (op : Op) (m : Msg) (s : State) (x c : Nat) :
    injAt (addDeferred (defOf op m) (takenUp op m s)) x c = injAt s x c :=
  injAt_congr (takenUp_took op m s).inj_eq x c

/-- A deferred command that is denied at once is answered, and nothing else has happened. -/
theorem PacketReady.denied {op : Op} {hd : Handler} (h : PacketReady op m s) {i : OpInfo} (hi : opInfo op = some i)
    (hlate : i.deferred = true) (hj : judge op hd m false (takenUp op m s) = none) (hnot : defOf op m ∉ s.deferred)
    (hrun : hd.run m (addDeferred (defOf op m) (takenUp op m s))
      = (.reply stDenied [], addDeferred (defOf op m) (takenUp op m s))) :
    interp op hd m s = .next (replied m stDenied [] (takenUp op m s)) := by
  rw [h.deferred hi hlate hj, hrun]
  exact congrArg _ (answerDeferred_atOnce (by rwa [(takenUp_took op m s).deferred_eq]) (takenUp_noReset op m s h.noReset))

section
variable (h : PacketReady Op.ownerEnroll m s) (hlen : m.words.length = 52) (hsess : confSession s = false)
include h hlen hsess

theorem judge_ownerEnroll : judge Op.ownerEnroll enrollH m false (takenUp Op.ownerEnroll m s) = none := by
  refine judge_ready h enrollH _ rfl ?_ ?_ ?_ ?_ rfl rfl rfl rfl
  · simp [enrollH, confSession_congr (takenUp_took Op.ownerEnroll m s).sec_eq, hsess]
  · simp [hlen]
  · exact fun _ => by simp [hlen]
  · simp [enrollH, hlen]

theorem ownerEnroll_denied (hnot : defOf Op.ownerEnroll m ∉ s.deferred)
    (hslot : enrollSlot s (keyHash (num256 ((m.words.take 26).take 13)) (num256 ((m.words.take 26).drop 13))) = none) :
    exec (.ownerEnroll m) s = .next (replied m stDenied [] (takenUp Op.ownerEnroll m s)) := by
  refine h.denied rfl rfl (judge_ownerEnroll h hlen hsess) hnot ?_
  show enrollGo m _ = _
  unfold enrollGo
  dsimp only
  rw [enrollSlot_congr (deferred_sec ..), hslot]

theorem ownerEnroll_accepted
    (hslot : enrollSlot s (keyHash (num256 ((m.words.take 26).take 13)) (num256 ((m.words.take 26).drop 13))) = some (k, fresh))
    (hinj : injAt s 9 1 = none)
    (hsig : ecdsaVerify (num256 ((m.words.take 26).take 13)) (num256 ((m.words.take 26).drop 13))
      ([0x13#20] ++ serial2 s ++ m.words.take 26) (sigOf (tailSig m.words)).1 (sigOf (tailSig m.words)).2 = true) :
    exec (.ownerEnroll m) s = .next (modSec (fun c => { c with jobs := c.jobs ++ [.enroll (defOf Op.ownerEnroll m)
        (num256 ((m.words.take 26).take 13)) (num256 ((m.words.take 26).drop 13)) (BitVec.ofNat 2 k.val) fresh] })
      (addDeferred (defOf Op.ownerEnroll m) (takenUp Op.ownerEnroll m s))) := by
  have hexec : exec (.ownerEnroll m) s = interp Op.ownerEnroll enrollH m s := rfl
  rw [hexec, h.deferred rfl rfl (judge_ownerEnroll h hlen hsess)]
  show Host.Outcome.next (answerDeferred Op.ownerEnroll m (enrollGo m _)) = _
  unfold enrollGo
  dsimp only
  rw [enrollSlot_congr (deferred_sec ..), hslot]
  dsimp only
  rw [verifyWith, serial2_congr (deferred_sec ..), sigJudge_good hsig ((deferred_injAt ..).trans hinj)]
  dsimp only
  rw [if_pos rfl, answerDeferred_later, addJob_plain rfl]

end

section
variable (h : PacketReady Op.ownerRelease m s) (hlen : m.words.length = 26) (hsess : confSession s = false)
include h hlen hsess

theorem judge_ownerRelease : judge Op.ownerRelease releaseH m false (takenUp Op.ownerRelease m s) = none := by
  refine judge_ready h releaseH _ rfl ?_ ?_ ?_ ?_ rfl rfl rfl rfl
  · simp [releaseH, confSession_congr (takenUp_took Op.ownerRelease m s).sec_eq, hsess]
  · simp [hlen]
  · exact fun _ => by simp [hlen]
  · simp [releaseH, hlen]

theorem ownerRelease_denied (hnot : defOf Op.ownerRelease m ∉ s.deferred) (hslot : curSlot s = none) :
    exec (.ownerRelease m) s = .next (replied m stDenied [] (takenUp Op.ownerRelease m s)) := by
  refine h.denied rfl rfl (judge_ownerRelease h hlen hsess) hnot ?_
  show releaseGo m _ = _
  unfold releaseGo
  rw [curSlot_congr (deferred_sec ..), hslot]

theorem ownerRelease_accepted {kx ky : Nat} (hslot : curSlot s = some k) (hkey : ownerKey s = some (kx, ky))
    (hinj : injAt s 9 1 = none)
    (hsig : ecdsaVerify kx ky ([0x12#20] ++ serial2 s ++ [BitVec.ofNat 20 k.val]) (sigOf m.words).1 (sigOf m.words).2 = true) :
    exec (.ownerRelease m) s = .next (modSec (fun c => { c with
        jobs := c.jobs ++ [.release (defOf Op.ownerRelease m) (BitVec.ofNat 2 k.val)] })
      (addDeferred (defOf Op.ownerRelease m) (takenUp Op.ownerRelease m s))) := by
  have hexec : exec (.ownerRelease m) s = interp Op.ownerRelease releaseH m s := rfl
  rw [hexec, h.deferred rfl rfl (judge_ownerRelease h hlen hsess)]
  show Host.Outcome.next (answerDeferred Op.ownerRelease m (releaseGo m _)) = _
  unfold releaseGo
  rw [curSlot_congr (deferred_sec ..), hslot, ownerKey_congr (deferred_sec ..), hkey]
  dsimp only
  rw [verifyWith, serial2_congr (deferred_sec ..), sigJudge_good hsig ((deferred_injAt ..).trans hinj)]
  dsimp only
  rw [if_pos rfl, answerDeferred_later, addJob_plain rfl]

end

/-! ### Their completion (R491, R493) -/

/-- The older copy is rewritten as the current one with a change; the rest of the security state stays. -/
theorem confStore_acts (f : ConfCopy → ConfCopy) (s : State) :
    (∃ n, (confStore f s).sec.confs[otherConf s] = { f (s.sec.confs[curConf s]) with seq := some n, good := true })
      ∧ (confStore f s).sec = { s.sec with confs := (confStore f s).sec.confs } := by
  exact ⟨⟨_, Vector.getElem_set_self ..⟩, rfl⟩

/-- The state after the end of a job and source 87: the job is gone from the queue. -/
theorem raise_endJob (d : Deferred) (st : Status) (ws : List Word) (hlive : isLive s = true) :
    let t := raise 87 (endJob d st ws s)
    (∃ l, t.sec = { s.sec with jobs := l } ∧ l.length = (s.sec.jobs.drop 1).length) ∧ shows t 87 = true ∧ t.cfg = s.cfg
      ∧ t.wd = s.wd := by
  obtain ⟨l, hframe, hlen⟩ := endJob_frame d st ws s
  generalize endJob d st ws s = v at hframe ⊢
  have hpw : v.pw = s.pw := by rw [hframe]
  refine ⟨⟨l, ?_, hlen⟩, raise_shows 87 v ?_, ?_, ?_⟩
  · rw [raise_sec, hframe]
  · rwa [isLive_of_pw hpw]
  · rw [raise_cfg, hframe]
  · rw [raise_wd, hframe]

/-- What a finished enrolment stores, with a new slot. -/
def enrolled (kx ky : Nat) (k : Fin 4) (s : State) : State :=
  modSlot k (fun o => { o with hash := some (keyHash kx ky) }) (modSec (fun x => { x with bundle := none, pending := none })
    (confStore (fun c => { c with key := some (kx, ky), bundle := [] }) s))

theorem exec_ownerEnrollComplete {kx ky : Nat} {x : BitVec 2} {l : List SecJob} (hjobs : s.sec.jobs = .enroll d kx ky x true :: l) :
    exec .ownerEnrollComplete s = .next (raise 87 (endJob d stOk [pack [(0, x.toNat), (2, 1)]]
      (enrolled kx ky ⟨x.toNat, x.isLt⟩ s))) := by
  have hexec : exec .ownerEnrollComplete s = execOwnerEnrollComplete s := rfl
  rw [hexec, execOwnerEnrollComplete, hjobs]
  rfl

/-- What a finished release stores. -/
def releasedOwner (k : Fin 4) (s : State) : State :=
  modSec (fun x => { x with bundle := none, pending := none }) (confStore (fun c => { c with key := none, bundle := [] })
    (modSlot k (fun o => { o with revoked := true }) s))

theorem exec_ownerReleaseComplete {x : BitVec 2} {l : List SecJob} (hjobs : s.sec.jobs = .release d x :: l) :
    exec .ownerReleaseComplete s = .next (raise 87 (endJob d stOk [] (releasedOwner ⟨x.toNat, x.isLt⟩ s))) := by
  have hexec : exec .ownerReleaseComplete s = execOwnerReleaseComplete s := rfl
  rw [hexec, execOwnerReleaseComplete, hjobs]
  rfl

theorem enrolled_acts (kx ky : Nat) (k : Fin 4) (s : State) : let v := enrolled kx ky k s
    v.sec.cellar.slots[k].hash = some (keyHash kx ky) ∧ v.sec.bundle = none ∧ v.sec.pending = none
      ∧ (v.sec.confs[otherConf s]).key = some (kx, ky) ∧ (v.sec.confs[otherConf s]).bundle = [] ∧ v.sec.jobs = s.sec.jobs := by
  obtain ⟨⟨n, hcopy⟩, -⟩ := confStore_acts (fun c => { c with key := some (kx, ky), bundle := [] }) s
  exact ⟨by simp [enrolled, modSlot, vmod], rfl, rfl, congrArg ConfCopy.key hcopy, congrArg ConfCopy.bundle hcopy, rfl⟩

theorem releasedOwner_acts (k : Fin 4) (s : State) : let v := releasedOwner k s
    v.sec.cellar.slots[k].revoked = true ∧ v.sec.bundle = none ∧ v.sec.pending = none
      ∧ (v.sec.confs[otherConf s]).key = none ∧ (v.sec.confs[otherConf s]).bundle = [] ∧ v.sec.jobs = s.sec.jobs := by
  obtain ⟨⟨n, hcopy⟩, hrest⟩ := confStore_acts (fun c => { c with key := none, bundle := [] })
    (modSlot k (fun o => { o with revoked := true }) s)
  refine ⟨?_, rfl, rfl, congrArg ConfCopy.key hcopy, congrArg ConfCopy.bundle hcopy, rfl⟩
  rw [releasedOwner, modSec_sec, hrest]
  simp [modSlot, vmod]

/-- Settles O30: the commands by their slot and signature, the finished jobs by what they store. -/
theorem ownersAreEnrolledAndReleased : Obligations.OwnersAreEnrolledAndReleased := by
  unfold Obligations.OwnersAreEnrolledAndReleased
  intro m s d e x y
  refine ⟨fun h hlen hsess hnot => ⟨ownerEnroll_denied h hlen hsess hnot, fun k fresh hslot hinj hsig =>
    ownerEnroll_accepted h hlen hsess hslot hinj hsig⟩, fun h hlen hsess hnot => ⟨ownerRelease_denied h hlen hsess hnot,
    fun k kx ky hslot hkey hinj hsig => ownerRelease_accepted h hlen hsess hslot hkey hinj hsig⟩,
    fun who kx ky k jobs hlive hjobs => ?_, fun who k jobs hlive hjobs => ?_⟩
  · obtain ⟨hhash, hbundle, hpending, hkey, hrec, hrest⟩ := enrolled_acts kx ky ⟨k.toNat, k.isLt⟩ s
    obtain ⟨⟨l, hsec, hlen⟩, hshows, hcfg, -⟩ := raise_endJob (s := enrolled kx ky ⟨k.toNat, k.isLt⟩ s) who stOk
      [pack [(0, k.toNat), (2, 1)]] hlive
    refine ⟨_, exec_ownerEnrollComplete hjobs, ?_, ?_, ?_, ?_, ?_, ?_, hshows, hcfg⟩ <;> rw [hsec]
    · exact hhash
    · exact hbundle
    · exact hpending
    · exact hkey
    · exact hrec
    · rw [hlen, hrest, hjobs]
      rfl
  · obtain ⟨hrevoked, hbundle, hpending, hkey, hrec, hrest⟩ := releasedOwner_acts ⟨k.toNat, k.isLt⟩ s
    obtain ⟨⟨l, hsec, hlen⟩, hshows, hcfg, hwd⟩ := raise_endJob (s := releasedOwner ⟨k.toNat, k.isLt⟩ s) who stOk [] hlive
    refine ⟨_, exec_ownerReleaseComplete hjobs, ?_, ?_, ?_, ?_, ?_, ?_, hshows, hcfg, hwd⟩ <;> rw [hsec]
    · exact hrevoked
    · exact hbundle
    · exact hpending
    · exact hkey
    · exact hrec
    · rw [hlen, hrest, hjobs]
      rfl

end Sys2Proof.Machine
end

section
/-! NV_UPDATE (O31): 17_security R503 to R507, from BEGIN to the reboot. -/

namespace Sys2Proof.Machine

variable {s t u : State} {m : Msg} {x : Session}

/-! ### BEGIN (R503) -/

/-- The session that a BEGIN opens. -/
def sessionMade (m : Msg) : Session :=
  { phase := .erasing, conf := updConf m, port := m.port, version := pword m 1, length := (pword m 2).toNat
    rollback := fld (pword m 3) 0 7, hash := num256 ((m.words.drop 4).take 13), data := [], sig := (0, 0), cmd := defOf Op.nvBegin m }

/-- The region is erased and the session is open. -/
def sessionBegun (m : Msg) (s : State) : State :=
  modAon (fun a => { a with updFlag := true }) (modSec (fun c => { c with sess := some (sessionMade m) }) (eraseTarget (updConf m) s))

theorem eraseTarget_frame (conf : Bool) (s : State) : eraseTarget conf s = { s with
      sec := { s.sec with banks := (eraseTarget conf s).sec.banks, confs := (eraseTarget conf s).sec.confs } }
    ∧ (conf = false → (eraseTarget conf s).sec.banks[spareBank s] = .blank ∧ (eraseTarget conf s).sec.confs = s.sec.confs)
    ∧ (conf = true → ((eraseTarget conf s).sec.confs[otherConf s]).good = false ∧ (eraseTarget conf s).sec.banks = s.sec.banks) := by
  cases conf with
  | false => exact ⟨rfl, fun _ => ⟨Vector.getElem_set_self .., rfl⟩, fun h => absurd h Bool.false_ne_true⟩
  | true => exact ⟨rfl, fun h => absurd h.symm Bool.false_ne_true, fun _ => ⟨congrArg ConfCopy.good (Vector.getElem_set_self ..), rfl⟩⟩

theorem sessionBegun_acts (m : Msg) (s : State) : let t := sessionBegun m s
    t = { s with sec := t.sec, aon := { s.aon with updFlag := true } }
      ∧ t.sec = { s.sec with sess := some (sessionMade m), banks := t.sec.banks, confs := t.sec.confs } := by
  have hframe := (eraseTarget_frame (updConf m) s).1
  unfold sessionBegun
  generalize eraseTarget (updConf m) s = v at hframe ⊢
  constructor <;> rw [hframe] <;> rfl

section
variable (h : PacketReady Op.nvBegin m s)
include h

theorem exec_nvUpdateBegin (hlen : m.words.length = 17) (hfree : isOwned s = false) (hnone : s.sec.sess = none)
    (hrange : updRange m = true) (hbegin : updAborts m = false) (hcount : updConf m = true ∨ rbCount s ≤ fld (pword m 3) 0 7) :
    exec (.nvUpdateBegin m) s = .next (sessionBegun m (addDeferred (defOf Op.nvBegin m) (takenUp Op.nvBegin m s))) := by
  have hsec := (takenUp_took Op.nvBegin m s).sec_eq
  have hfree' : isOwned (takenUp Op.nvBegin m s) = false := (isOwned_congr hsec).trans hfree
  have hcount' : updConf m = true ∨ rbCount (takenUp Op.nvBegin m s) ≤ fld (pword m 3) 0 7 := by
    rwa [rbCount, hsec, ← rbCount]
  have hj : judge Op.nvBegin beginH m false (takenUp Op.nvBegin m s) = none := by
    refine judge_ready h beginH _ rfl ?_ ?_ ?_ rfl ?_ hrange rfl ?_
    · simp [beginH, hsec, hnone]
    · simp [hlen]
    · exact fun _ => by simp [hlen]
    · simp [beginH, hbegin, hfree', hlen]
    · simpa [beginH, hbegin] using hcount'
  have hfree'' : isOwned (addDeferred (defOf Op.nvBegin m) (takenUp Op.nvBegin m s)) = false := hfree'
  have hexec : exec (.nvUpdateBegin m) s = interp Op.nvBegin beginH m s := rfl
  rw [hexec, h.deferred rfl rfl hj]
  show Host.Outcome.next (answerDeferred Op.nvBegin m (beginGo m _)) = _
  unfold beginGo
  rw [hbegin, if_neg Bool.false_ne_true, hfree'', if_neg Bool.false_ne_true]
  dsimp only
  rw [if_pos rfl, answerDeferred_later]
  rfl

/-- ABORT by the port of the session, or without one. -/
theorem exec_nvUpdateAbort (hw : m.words = [2]) (hport : ∀ x, s.sec.sess = some x → x.port = m.port) :
    exec (.nvUpdateAbort m) s = .next (answerDeferred Op.nvBegin m
      (.reply stOk [], updAbort (addDeferred (defOf Op.nvBegin m) (takenUp Op.nvBegin m s)))) := by
  have hsec := (takenUp_took Op.nvBegin m s).sec_eq
  have habort : updAborts m = true := by
    rw [updAborts, pword, hw]
    decide
  have hrange : updRange m = true := by
    have hbits : fld (pword m 0) 2 18 = 0 := by
      rw [pword, hw]
      decide
    simp [updRange, habort, hbits]
  have hj : judge Op.nvBegin beginH m false (takenUp Op.nvBegin m s) = none := by
    refine judge_ready h beginH _ rfl ?_ ?_ ?_ rfl ?_ hrange rfl ?_
    · simp [beginH, habort]
    · simp [hw]
    · exact fun _ => by simp [hw]
    · simp [beginH, habort, hw]
    · simp only [beginH, habort, if_true, hsec]
      cases hsess : s.sec.sess with
      | none => rfl
      | some x => exact beq_iff_eq.2 (hport x hsess)
  have hexec : exec (.nvUpdateAbort m) s = interp Op.nvBegin beginH m s := rfl
  rw [hexec, h.deferred rfl rfl hj]
  show Host.Outcome.next (answerDeferred Op.nvBegin m (beginGo m _)) = _
  unfold beginGo
  rw [habort, if_pos rfl]

end

/-! ### ABORT and the deferred commands that it ends (R507) -/

/-- Deferred commands are answered one after another; those named are gone, the others stay. -/
theorem completeAll_acts (st : Status) (l : List Deferred) (s : State) :
    let t := foldSt l (fun d s => completeDeferred d st [] s) s
    t = { s with deferred := t.deferred, ports := t.ports, irq := t.irq, mi := t.mi }
      ∧ ∀ e, e ∈ t.deferred ↔ e ∈ s.deferred ∧ e ∉ l := by
  induction l generalizing s with
  | nil => exact ⟨rfl, fun e => by simp [foldSt]⟩
  | cons d l ih =>
    have hone := completeDeferred_frame d st [] s
    obtain ⟨hframe, hmem⟩ := ih (completeDeferred d st [] s)
    rw [foldSt_cons]
    generalize completeDeferred d st [] s = v at hone hframe hmem ⊢
    generalize foldSt l _ v = y at hframe hmem ⊢
    refine ⟨?_, fun e => ?_⟩
    · rw [hone] at hframe
      exact hframe
    · rw [hmem, hone]
      simp only [List.mem_filter, bne_iff_ne, ne_eq, List.mem_cons, not_or]
      tauto

theorem closeSession_some (hsess : s.sec.sess = some x) (k : Nat) : closeSession k s
    = modAon (fun a => { a with updLast := BitVec.ofNat 3 k, updFlag := false }) (modSec (fun c => { c with sess := none }) s) := by
  unfold closeSession
  rw [hsess]

theorem updAbort_none (hsess : s.sec.sess = none) : updAbort s = s := by
  unfold updAbort
  rw [hsess]
  simp [foldSt, closeSession, hsess]

/-- ABORT closes the session; a BEGIN or COMMIT of it that is under way is ended. -/
theorem updAbort_some (hsess : s.sec.sess = some x) : let t := updAbort s
    t.sec = { s.sec with sess := none } ∧ t.aon = { s.aon with updLast := 2, updFlag := false } ∧ t.pw = s.pw
      ∧ ∀ e, e ∈ t.deferred ↔ e ∈ s.deferred ∧ ¬ (x.phase ≠ .opened ∧ x.cmd = e) := by
  obtain ⟨hframe, hmem⟩ := completeAll_acts stAborted (s.deferred.filter fun d => x.phase != .opened && x.cmd == d) s
  unfold updAbort
  rw [hsess]
  dsimp only
  generalize foldSt (s.deferred.filter fun d => x.phase != .opened && x.cmd == d) _ s = v at hframe hmem ⊢
  have hsec : v.sec = s.sec := by rw [hframe]
  rw [closeSession_some (by rw [hsec, hsess])]
  refine ⟨?_, ?_, ?_, fun e => ?_⟩
  · rw [modAon_sec, modSec_sec, hsec]
  · rw [modAon_aon, modSec_aon, hframe]
    rfl
  · rw [modAon_pw, modSec_pw, hframe]
  · rw [modAon_deferred, modSec_deferred, hmem]
    simp only [List.mem_filter, Bool.and_eq_true, bne_iff_ne, beq_iff_eq]
    tauto

/-- The reply of a command that is still deferred when it is done. -/
theorem answerDeferred_done {op : Op} {st : Status} {ws : List Word} (hin : defOf op m ∈ u.deferred) (hu : resetting u = false) :
    answerDeferred op m (.reply st ws, u) = replied m st ws (modDeferred (fun l => l.filter (· != defOf op m)) u) := by
  have hin' : u.deferred.contains (defOf op m) = true := by simpa using hin
  rw [answerDeferred, if_pos hin']
  exact answer_reply hu

theorem nvUpdateAbort_none (h : PacketReady Op.nvBegin m s) (hw : m.words = [2]) (hnot : defOf Op.nvBegin m ∉ s.deferred)
    (hsess : s.sec.sess = none) : exec (.nvUpdateAbort m) s = .next (replied m stOk [] (takenUp Op.nvBegin m s)) := by
  rw [exec_nvUpdateAbort h hw (by simp [hsess]), updAbort_none ((deferred_sec ..).symm ▸ hsess)]
  exact congrArg _ (answerDeferred_atOnce (by rwa [(takenUp_took Op.nvBegin m s).deferred_eq])
    (takenUp_noReset Op.nvBegin m s h.noReset))

theorem nvUpdateAbort_some (h : PacketReady Op.nvBegin m s) (hw : m.words = [2]) (hsess : s.sec.sess = some x)
    (hport : x.port = m.port) (hcmd : x.phase ≠ .opened → x.cmd ≠ defOf Op.nvBegin m) :
    ∃ t, exec (.nvUpdateAbort m) s = .next (replied m stOk [] t) ∧ t.sec = { s.sec with sess := none }
      ∧ t.aon = { s.aon with updLast := 2, updFlag := false } ∧ (x.phase ≠ .opened → x.cmd ∉ t.deferred) := by
  have htook := takenUp_took Op.nvBegin m s
  have hsess' : (addDeferred (defOf Op.nvBegin m) (takenUp Op.nvBegin m s)).sec.sess = some x := by rw [deferred_sec, hsess]
  obtain ⟨hsec, haon, hpw, hmem⟩ := updAbort_some hsess'
  have hexec := exec_nvUpdateAbort h hw (fun y hy => by rw [Option.some.inj (hsess.symm.trans hy)] at hport; exact hport)
  have hsec0 : (addDeferred (defOf Op.nvBegin m) (takenUp Op.nvBegin m s)).sec = s.sec := htook.sec_eq
  have haon0 : (addDeferred (defOf Op.nvBegin m) (takenUp Op.nvBegin m s)).aon = s.aon := htook.aon_eq
  have hpw0 : (addDeferred (defOf Op.nvBegin m) (takenUp Op.nvBegin m s)).pw = s.pw := htook.pw_eq
  have hself : defOf Op.nvBegin m ∈ (addDeferred (defOf Op.nvBegin m) (takenUp Op.nvBegin m s)).deferred := by
    simp [addDeferred, modDeferred]
  generalize addDeferred (defOf Op.nvBegin m) (takenUp Op.nvBegin m s) = v at *
  generalize updAbort v = y at *
  rw [hsec0] at hsec
  rw [haon0] at haon
  have hin : defOf Op.nvBegin m ∈ y.deferred := (hmem _).2 ⟨hself, fun hend => hcmd hend.1 hend.2⟩
  have hreset : resetting y = false := by rw [resetting, hpw, hpw0, h.noReset]; rfl
  rw [answerDeferred_done hin hreset] at hexec
  exact ⟨_, hexec, hsec, haon, fun hphase hin' => ((hmem _).1 (List.mem_of_mem_filter hin')).2 ⟨hphase, rfl⟩⟩

theorem exec_nvUpdateEraseDone (hsess : s.sec.sess = some x) (hphase : x.phase = .erasing) (hin : s.deferred.contains x.cmd = true) :
    exec .nvUpdateEraseDone s = .next (raise 93 (completeDeferred x.cmd stOk []
      (modSec (fun c => { c with sess := some { x with phase := .opened } }) s))) := by
  have hexec : exec .nvUpdateEraseDone s = execNvUpdateEraseDone s := rfl
  have hmod : modSess (fun u => { u with phase := .opened }) s = modSec (fun c => { c with sess := some { x with phase := .opened } }) s := by
    simp only [modSess, modSec, hsess, Option.map_some]
  rw [hexec, execNvUpdateEraseDone, hsess]
  dsimp only
  rw [if_pos hphase, hmod, if_pos (show (modSec _ s).deferred.contains x.cmd = true from hin)]

/-! ### DATA and COMMIT (R504, R505) -/

theorem sessOpen_some (hsess : s.sec.sess = some x) (hphase : x.phase = .opened) : sessOpen s = some x := by
  rw [sessOpen, hsess]
  simp [Option.filter, hphase]

section
variable (hsess : s.sec.sess = some x) (hphase : x.phase = .opened) (hport : x.port = m.port)
include hsess hphase hport

section
variable (h : PacketReady Op.nvData m s) (hne : m.words ≠ []) (hmax : m.words.length ≤ 2046)
include h hne hmax

/-- DATA passes every check but that of its length in the session. -/
theorem judge_nvData : judge Op.nvData { dataH with range := fun _ _ => true } m false (takenUp Op.nvData m s) = none := by
  have hsess' : (takenUp Op.nvData m s).sec.sess = some x := by rw [(takenUp_took Op.nvData m s).sec_eq, hsess]
  refine judge_ready h _ _ rfl ?_ (List.length_pos_iff.2 hne) (fun _ => hmax) rfl rfl rfl rfl ?_
  · simp [dataH, sessOpen_some hsess' hphase]
  · simp [dataH, ownSession, hsess', hport]

theorem exec_nvUpdateData (hfits : x.data.length + m.words.length ≤ x.length) :
    exec (.nvUpdateData m) s = .next (replied m stOk [BitVec.ofNat 20 (x.data.length + m.words.length)]
      (modSec (fun c => { c with sess := some { x with data := x.data ++ m.words } }) (takenUp Op.nvData m s))) := by
  have hsess' : (takenUp Op.nvData m s).sec.sess = some x := by rw [(takenUp_took Op.nvData m s).sec_eq, hsess]
  have hrange : dataH.range (takenUp Op.nvData m s) m = true := by
    simp only [dataH, hsess']
    exact decide_eq_true hfits
  have hj : judge Op.nvData dataH m false (takenUp Op.nvData m s) = none := by
    rw [judge_range (judge_nvData hsess hphase hport h hne hmax), hrange]
    rfl
  have hmod : modSess (fun u => { u with data := u.data ++ m.words }) (takenUp Op.nvData m s)
      = modSec (fun c => { c with sess := some { x with data := x.data ++ m.words } }) (takenUp Op.nvData m s) := by
    simp only [modSess, modSec, hsess', Option.map_some]
  have hexec : exec (.nvUpdateData m) s = interp Op.nvData dataH m s := rfl
  rw [hexec]
  refine h.answered rfl rfl hj ?_ (modSec_pw ..)
  simp only [dataH, hmod, modSec_sec, List.length_append]

theorem nvUpdateData_refused (hlong : x.length < x.data.length + m.words.length) :
    exec (.nvUpdateData m) s = .next (replied m stRange [] (takenUp Op.nvData m s)) := by
  have hsess' : (takenUp Op.nvData m s).sec.sess = some x := by rw [(takenUp_took Op.nvData m s).sec_eq, hsess]
  have hrange : dataH.range (takenUp Op.nvData m s) m = false := by
    simp only [dataH, hsess']
    exact decide_eq_false (by omega)
  exact h.refusedRange (judge_nvData hsess hphase hport h hne hmax) hrange rfl

end

theorem exec_nvUpdateCommit (h : PacketReady Op.nvCommit m s) (hlen : m.words.length = (if x.conf then 1 else 27))
    (hzero : pword m 0 = 0) (hfull : x.data.length = x.length) : exec (.nvUpdateCommit m) s = .next (modSec (fun c => { c with
        sess := some { x with phase := .committing, sig := sigOf (m.words.drop 1), cmd := defOf Op.nvCommit m } })
      (addDeferred (defOf Op.nvCommit m) (takenUp Op.nvCommit m s))) := by
  have hsess' : (takenUp Op.nvCommit m s).sec.sess = some x := by rw [(takenUp_took Op.nvCommit m s).sec_eq, hsess]
  have hbounds : 1 ≤ m.words.length ∧ m.words.length ≤ 64 := by
    rw [hlen]
    split <;> omega
  have hj : judge Op.nvCommit commitH m false (takenUp Op.nvCommit m s) = none := by
    refine judge_ready h commitH _ rfl ?_ hbounds.1 (fun _ => hbounds.2) rfl ?_ ?_ rfl ?_
    · simp [commitH, sessOpen_some hsess' hphase, hfull]
    · simp [commitH, hsess', hlen]
    · simp [commitH, hzero]
    · simp [commitH, ownSession, hsess', hport]
  have hmod : modSess (fun u => { u with phase := .committing, sig := sigOf (m.words.drop 1), cmd := defOf Op.nvCommit m })
      (addDeferred (defOf Op.nvCommit m) (takenUp Op.nvCommit m s)) = modSec (fun c => { c with
        sess := some { x with phase := .committing, sig := sigOf (m.words.drop 1), cmd := defOf Op.nvCommit m } })
      (addDeferred (defOf Op.nvCommit m) (takenUp Op.nvCommit m s)) := by
    have hsess'' : (addDeferred (defOf Op.nvCommit m) (takenUp Op.nvCommit m s)).sec.sess = some x := hsess'
    simp only [modSess, modSec, hsess'', Option.map_some]
  have hexec : exec (.nvUpdateCommit m) s = interp Op.nvCommit commitH m s := rfl
  have hrun : commitH.run m (addDeferred (defOf Op.nvCommit m) (takenUp Op.nvCommit m s)) = (.later, modSec (fun c => { c with
        sess := some { x with phase := .committing, sig := sigOf (m.words.drop 1), cmd := defOf Op.nvCommit m } })
      (addDeferred (defOf Op.nvCommit m) (takenUp Op.nvCommit m s))) := by
    rw [← hmod]
    rfl
  rw [hexec, h.deferred rfl rfl hj, hrun, answerDeferred_later]

end

/-! ### The end of a COMMIT (R505, R506) -/

section
variable (hsess : s.sec.sess = some x) (hphase : x.phase = .committing) (hin : s.deferred.contains x.cmd = true)
include hsess hphase hin

theorem commitDone_corrupt (hhash : shaOf x.data ≠ x.hash) : exec .nvUpdateCommitDone s = .next (completeDeferred x.cmd stCheck []
    (modAon (fun a => { a with updLast := 4, updFlag := false }) (modSec (fun c => { c with sess := none }) s))) := by
  have hexec : exec .nvUpdateCommitDone s = execNvUpdateCommitDone s := rfl
  rw [hexec, execNvUpdateCommitDone, hsess]
  dsimp only
  rw [if_neg (not_not_intro hphase), if_pos hhash, closeSession_some hsess, commitReply]
  exact congrArg _ (if_pos hin)

/-- The state in which a good COMMIT is answered. -/
def committed (x : Session) (s : State) : State :=
  modSec (fun c => { c with rebootDue := some (x.cmd.port, x.cmd.tag, s.now + 10 * ms) }) (closeSession 1 (commitRegion x s))

omit hsess hphase hin in
theorem commitRegion_frame (x : Session) (s : State) : commitRegion x s = { s with
      sec := { s.sec with banks := (commitRegion x s).sec.banks, confs := (commitRegion x s).sec.confs } }
    ∧ (x.conf = true → ((commitRegion x s).sec.confs[otherConf s]).image = x.data
      ∧ ((commitRegion x s).sec.confs[otherConf s]).good = true ∧ (commitRegion x s).sec.banks = s.sec.banks)
    ∧ (x.conf = false → ((commitRegion x s).sec.banks[spareBank s]).image = x.data
      ∧ ((commitRegion x s).sec.banks[spareBank s]).version = x.version
      ∧ ((commitRegion x s).sec.banks[spareBank s]).commitSeq = some (BitVec.ofNat 20 (topSeq s + 1))
      ∧ (commitRegion x s).sec.confs = s.sec.confs) := by
  unfold commitRegion
  cases x.conf with
  | true =>
    obtain ⟨⟨n, hcopy⟩, -⟩ := confStore_acts (fun c => { c with image := x.data }) s
    exact ⟨rfl, fun _ => ⟨congrArg ConfCopy.image hcopy, congrArg ConfCopy.good hcopy, rfl⟩, fun h => absurd h.symm Bool.false_ne_true⟩
  | false =>
    have hbank := Vector.getElem_set_self (xs := s.sec.banks) (i := (spareBank s).val) (x := ({
      version := x.version, rollback := x.rollback, hash := x.hash, sigR := x.sig.1, sigS := x.sig.2
      commitSeq := some (BitVec.ofNat 20 (topSeq s + 1)), crcOk := true, image := x.data } : FwBank)) (spareBank s).isLt
    exact ⟨rfl, fun h => absurd h Bool.false_ne_true, fun _ => ⟨congrArg FwBank.image hbank, congrArg FwBank.version hbank,
      congrArg FwBank.commitSeq hbank, rfl⟩⟩

theorem commitDone_good (hhash : shaOf x.data = x.hash) (hsig : x.conf = true ∨ injAt s 9 1 = none
      ∧ ecdsaVerify Config.knadinX Config.knadinY ([0x21#20, x.version, BitVec.ofNat 20 x.rollback, BitVec.ofNat 20 x.length]
        ++ word256 x.hash) x.sig.1 x.sig.2 = true) :
    exec .nvUpdateCommitDone s = .next (completeDeferred x.cmd stOk [] (committed x s)) := by
  have hexec : exec .nvUpdateCommitDone s = execNvUpdateCommitDone s := rfl
  have hjudge : (if x.conf = true then (true, s) else sigJudge (ecdsaVerify Config.knadinX Config.knadinY
      ([0x21#20, x.version, BitVec.ofNat 20 x.rollback, BitVec.ofNat 20 x.length] ++ word256 x.hash) x.sig.1 x.sig.2) s) = (true, s) := by
    split
    · rfl
    next hfirm =>
      obtain ⟨hinj, hver⟩ := hsig.resolve_left hfirm
      exact sigJudge_good hver hinj
  have hregion := (commitRegion_frame x s).1
  have hnow : (closeSession 1 (commitRegion x s)).now = s.now := by rw [(closeSession_clock 1).1, hregion]
  have hdeferred : (committed x s).deferred.contains x.cmd = true := by
    rw [committed, closeSession_some (by rw [hregion, hsess]), hregion]
    exact hin
  rw [hexec, execNvUpdateCommitDone, hsess]
  dsimp only
  rw [if_neg (not_not_intro hphase), if_neg (not_not_intro hhash), hjudge]
  dsimp only
  rw [hnow, ← committed, if_neg (by decide)]
  show Host.Outcome.next (commitReply x stOk (committed x s)) = _
  rw [commitReply, if_pos hdeferred]

omit hphase hin in
theorem committed_acts : (committed x s).aon = { s.aon with updLast := 1, updFlag := false } ∧ (committed x s).sec = { s.sec with
    sess := none, rebootDue := some (x.cmd.port, x.cmd.tag, s.now + 2500000)
    banks := (commitRegion x s).sec.banks, confs := (commitRegion x s).sec.confs } := by
  have hregion := (commitRegion_frame x s).1
  rw [committed, closeSession_some (by rw [hregion, hsess])]
  generalize commitRegion x s = v at hregion ⊢
  constructor <;> rw [hregion] <;> rfl

end

theorem exec_updateReboot {p : Port} {tag : BitVec 7} {k : Nat} (hdue : s.sec.rebootDue = some (p, tag, k))
    (hreset : s.pw.resetSeq = none) : exec .updateReboot s
      = .next (startReset 0x20 false (modSec (fun c => { c with rebootDue := none }) { s with now := max s.now k })) := by
  have hexec : exec .updateReboot s = execUpdateReboot s := rfl
  rw [hexec, execUpdateReboot, hdue]
  dsimp only
  rw [if_neg (by simp [resetting, hreset])]
  rfl

theorem spareBank_congr (h : t.pw = s.pw) : spareBank t = spareBank s := by
  have hbank : spareBank t = spareBank { s with pw := t.pw } := rfl
  rw [hbank, h]

theorem otherConf_congr (h : t.sec = s.sec) : otherConf t = otherConf s := by
  have hcopy : otherConf t = otherConf { s with sec := t.sec } := rfl
  rw [hcopy, h]

/-- Settles O31: each command by its execution, the end of a COMMIT by what its region and its reply leave. -/
theorem updateSessions : Obligations.UpdateSessions := by
  unfold Obligations.UpdateSessions
  refine ⟨fun m s => ?_, fun m x s hsess hphase hport => ?_, fun x s hsess hphase hin => ?_⟩
  · intro d u
    have htook : Took s u := takenUp_took Op.nvBegin m s
    refine ⟨fun h hlen hfree hnone hrange hbegin hcount => ?_, fun h hw hnot => ⟨nvUpdateAbort_none h hw hnot, fun x hsess hport hcmd =>
      nvUpdateAbort_some h hw hsess hport hcmd⟩, fun x hsess hphase hin => exec_nvUpdateEraseDone hsess hphase hin⟩
    obtain ⟨-, hfirm, hconf⟩ := eraseTarget_frame (updConf m) (addDeferred d u)
    have hsec : (addDeferred d u).sec = s.sec := htook.sec_eq
    have hspare : spareBank (addDeferred d u) = spareBank s := spareBank_congr htook.pw_eq
    have hother : otherConf (addDeferred d u) = otherConf s := otherConf_congr hsec
    rw [hsec] at hfirm hconf
    obtain ⟨hbegun, hbanks⟩ := sessionBegun_acts m (addDeferred d u)
    have hdeferred : addDeferred d u = { u with deferred := s.deferred ++ [d] } := by
      rw [← htook.deferred_eq]
      rfl
    refine ⟨_, sessionMade m, exec_nvUpdateBegin h hlen hfree hnone hrange hbegin hcount, ?_, ?_, rfl, rfl, rfl, rfl, rfl, rfl, rfl,
      fun hc => ?_, fun hc => ?_⟩
    · exact hbegun.trans (hdeferred ▸ rfl)
    · exact hbanks.trans (hsec ▸ rfl)
    · obtain ⟨hblank, hconfs⟩ := hfirm hc
      exact ⟨(congrArg (fun i => (eraseTarget (updConf m) (addDeferred d u)).sec.banks[i]) hspare.symm :).trans hblank, hconfs⟩
    · obtain ⟨hbad, hbanks⟩ := hconf hc
      exact ⟨(congrArg (fun i => ((eraseTarget (updConf m) (addDeferred d u)).sec.confs[i]).good) hother.symm :).trans hbad, hbanks⟩
  · intro d
    exact ⟨exec_nvUpdateData hsess hphase hport, nvUpdateData_refused hsess hphase hport, exec_nvUpdateCommit hsess hphase hport⟩
  · refine ⟨commitDone_corrupt hsess hphase hin, fun hhash hsig => ?_, fun v p tag k => exec_updateReboot⟩
    obtain ⟨haon, hsec⟩ := committed_acts hsess
    obtain ⟨-, hconf, hfirm⟩ := commitRegion_frame x s
    have hdone := completeDeferred_frame x.cmd stOk [] (committed x s)
    refine ⟨_, commitDone_good hsess hphase hin hhash hsig, ?_, ?_, ?_, ?_, ?_, ?_⟩
    all_goals rw [hdone]
    · rw [hsec]
    · exact haon
    · rw [hsec]
    · simp
    · rw [hsec]
      exact hconf
    · rw [hsec]
      exact hfirm

end Sys2Proof.Machine
end

section
/-! Register accesses (O7): 05_packet_protocol R165, R166, R169 to R173; 06_registers_taps R179 to R182; 19_memory_master_port
R552, R553. -/

namespace Sys2Proof.Machine

variable {p : Port} {m : Msg} {s u : State} {i : Fin 512} {v : Word} {cmd : Option Deferred}

/-! ### Host data addresses -/

theorem hdataIx_hdata (i : Fin 512) : hdataIx (0x8600 + i.val) = some i.val := by
  unfold hdataIx
  rw [if_pos (by omega), Nat.add_sub_cancel_left]

theorem ofAddr_hdata (i : Fin 512) : Reg.ofAddr (0x8600 + i.val) = some (.mmpHdata i) := Reg.ofAddr_eq (.mmpHdata i) rfl

theorem toNat_hdata (i : Fin 512) : (BitVec.ofNat 20 (0x8600 + i.val)).toNat = 0x8600 + i.val := by
  rw [BitVec.toNat_ofNat]
  omega

theorem fld_hdata (i : Fin 512) : fld (BitVec.ofNat 20 (0x8600 + i.val)) 16 4 = 0 := by
  rw [fld, toNat_hdata, Nat.shiftRight_eq_div_pow]
  omega

/-- No other register lies in the host data window. -/
theorem hdataIx_none {r : Reg} (h : ∀ i, r ≠ .mmpHdata i) : hdataIx r.addr = none := by
  unfold hdataIx
  split
  next hin =>
    have heq : r.addr = 0x8600 + (⟨r.addr - 0x8600, by omega⟩ : Fin 512).val := by
      show _ = 0x8600 + (r.addr - 0x8600)
      omega
    have hreg := Reg.ofAddr_eq r rfl
    rw [heq, ofAddr_hdata] at hreg
    exact absurd (Option.some.inj hreg).symm (h _)
  next => rfl

/-- What a word of a host data address asks of the memory master port. -/
def hostRun (s : State) (p : Port) (ref : Nat) (i : Fin 512) (w : Word) : RegRun :=
  { ref := ref, win := hostWin s p, word := hostWord s p i.val, data := [w] }

theorem readAll_hdata : readAll p [BitVec.ofNat 20 (0x8600 + i.val)] s = (([0], false), s) := by
  simp only [readAll, List.foldl_cons, List.foldl_nil, readAddr, toNat_hdata, ofAddr_hdata]
  rfl

theorem readRuns_hdata : readRuns s p [BitVec.ofNat 20 (0x8600 + i.val)] 0 [] = [hostRun s p 0 i 0] := by
  simp only [readRuns, toNat_hdata, hdataIx_hdata]
  rfl

/-- Addresses outside the host data window are no request. -/
theorem readRuns_none {l : List Word} (h : ∀ a ∈ l, hdataIx a.toNat = none) (k : Nat) (runs : List RegRun) :
    readRuns s p l k runs = runs := by
  induction l generalizing k with
  | nil => rfl
  | cons a l ih =>
    simp only [readRuns, h a (List.mem_cons_self ..)]
    exact ih (fun b hb => h b (List.mem_cons_of_mem a hb)) (k + 1)

/-- A read of a host data address becomes a request of the port's window (R552). -/
theorem regReadGo_hdata : regReadGo p cmd [BitVec.ofNat 20 (0x8600 + i.val)] s = (none,
    modMmp (fun m => { m with reqs := m.reqs ++ [mkReq .host (hostWin s p) false (hostWord s p i.val) 1 [] none] })
      (setRegJob (some {
        cmd := cmd, port := p, write := false, staged := false, words := [0], pairs := [], done := 0, bad := false
        runs := [{ ref := 0, win := hostWin s p, word := hostWord s p i.val, data := [0] }] }) s)) := by
  simp only [regReadGo, readAll_hdata, readRuns_hdata]
  rfl

theorem judgePair_hdata (h : RowReady Op.regWrite p s) (hin : hdataOk s p true i.val = true) (hcm : inConfMaint s = true) :
    judgePair Op.regWrite p (BitVec.ofNat 20 (0x8600 + i.val), v) s = none := by
  have htarget : targetOf (0x8600 + i.val) = some (.mmpHdata i) := by
    simp only [targetOf, ofAddr_hdata]
    rfl
  have hrule : regStateRule s (.mmpHdata i) (maskW (.mmpHdata i) v) = true := hcm
  have hstate : regStateOk s (.mmpHdata i) (maskW (.mmpHdata i) v) = true := by simp [regStateOk, hrule, Reg.isSealed]
  have hrange : ∀ t, regRange t (.mmpHdata i) (maskW (.mmpHdata i) v) = true := fun _ => rfl
  have hunit : judgeUnit Op.regWrite p [(0x8600 + i.val, v)] s = none := by
    simp [judgeUnit, htarget, hstate, hrange, opHeld, boundHeld_false h, addrFree_true h, sealHolds, Reg.isSealed]
  simp only [judgePair, fld_hdata, toNat_hdata, hunit, hdataIx_hdata, hin]
  rfl

/-- A write of a host data address becomes a request of the port's window (R553). -/
theorem writeUnits_hdata (h : RowReady Op.regWrite p s) (hin : hdataOk s p true i.val = true) (hcm : inConfMaint s = true) :
    writeUnits p none [(BitVec.ofNat 20 (0x8600 + i.val), v)] 0 s = (none,
      modMmp (fun m => { m with
          reqs := m.reqs ++ [mkReq .host (hostWin s p) true (hostWord s p i.val) 1 (wordBytes v) none] })
        (setRegJob (some {
          cmd := none, port := p, write := true, staged := false, words := [], pairs := [], done := 0, bad := false
          runs := [{ ref := 0x8600 + i.val, win := hostWin s p, word := hostWord s p i.val, data := [v] }] }) s)) := by
  have hrun : headRun Op.regWrite p s [(BitVec.ofNat 20 (0x8600 + i.val), v)] i.val = [v] := by
    simp only [headRun, toNat_hdata, hdataIx_hdata, judgePair_hdata h hin hcm, and_self, if_true]
  simp only [writeUnits, judgePair_hdata h hin hcm, toNat_hdata, hdataIx_hdata, hrun]
  rfl

theorem exec_mmpHostRead (h : RowReady Op.regRead p s) (hin : hdataOk s p false i.val = true) :
    exec (.mmpHostRead p i) s = .next (regReadGo p none [BitVec.ofNat 20 (0x8600 + i.val)] s).2 := by
  have hexec : exec (.mmpHostRead p i) s = execMmpHostRead p i s := rfl
  rw [hexec, execMmpHostRead, if_pos ⟨h.open, hin⟩, cfgWait_none h.noCfg]
  rfl

theorem exec_mmpHostWrite (h : RowReady Op.regWrite p s) :
    exec (.mmpHostWrite p i v) s = .next (writeUnits p none [(BitVec.ofNat 20 (0x8600 + i.val), v)] 0 s).2 := by
  have hexec : exec (.mmpHostWrite p i v) s = regRow p (.mmpHdata i) v s := rfl
  rw [hexec, regRow, if_pos h.open, cfgWait_none h.noCfg]
  rfl

/-! ### Snapshots and stages (R179, R182) -/

theorem fillLatch_tb : fillLatch p (.tb 0) s = modPort p (fun x => { x with
      latch := (fun h m => insertKey (Reg.tb 2).addr h (h != 0) (insertKey (Reg.tb 1).addr m (m != 0) x.latch))
        (BitVec.ofNat 20 (tbNow s >>> 40)) (BitVec.ofNat 20 (tbNow s >>> 20)) }) s := by
  have hhigher : snapHigher (.tb 0) = [.tb 1, .tb 2] := rfl
  rw [fillLatch, hhigher, foldSt_cons, foldSt_cons]
  exact modPort_modPort ..

theorem exec_snapshotRead_tb {a : BitVec 16} (h : RowReady Op.regRead p s) (ha : a.toNat = (Reg.tb 0).addr) :
    exec (.snapshotRead p a) s = .next (fillLatch p (.tb 0) s) := by
  have hexec : exec (.snapshotRead p a) s = execSnapshotRead p a s := rfl
  rw [hexec, execSnapshotRead, if_pos h.open, cfgWait_none h.noCfg, readAddr, Reg.ofAddr_eq _ ha]
  rfl

/-- No higher word of a snapshot value has a field that a write acts on. -/
theorem wmask_of_isHigher {r : Reg} (h : isHigher r = true) : r.wmask = 0 := by
  unfold isHigher at h
  split at h
  case h_20 => exact absurd h Bool.false_ne_true
  all_goals rfl

theorem toNat_address (a : BitVec 16) : (a.setWidth 20).toNat = a.toNat := by
  rw [BitVec.toNat_setWidth]
  omega

theorem judgePair_isHigher {r : Reg} {a : BitVec 16} (h : RowReady Op.regWrite p s) (ha : a.toNat = r.addr)
    (hhigh : isHigher r = true) : judgePair Op.regWrite p (a.setWidth 20, v) s = none ∧ hdataIx a.toNat = none := by
  have htarget : targetOf a.toNat = none := by simp only [targetOf, Reg.ofAddr_eq r ha, wmask_of_isHigher hhigh, if_true]
  have hdata : hdataIx a.toNat = none := by
    rw [ha]
    refine hdataIx_none fun i hi => ?_
    rw [hi] at hhigh
    exact Bool.false_ne_true hhigh
  have hzero : fld (a.setWidth 20) 16 4 = 0 := by
    rw [fld, toNat_address, Nat.shiftRight_eq_div_pow]
    omega
  have hunit : judgeUnit Op.regWrite p [(a.toNat, v)] s = none := by
    simp [judgeUnit, htarget, opHeld, boundHeld_false h, addrFree_true h]
  refine ⟨?_, hdata⟩
  simp only [judgePair, hzero, toNat_address, hunit, hdata]
  rfl

theorem exec_stagedWordWrite_isHigher {r : Reg} {a : BitVec 16} (h : RowReady Op.regWrite p s) (ha : a.toNat = r.addr)
    (hhigh : isHigher r = true) : exec (.stagedWordWrite p a v) s
      = .next (modPort p (fun x => { x with stage := insertKey r.addr v true x.stage }) s) := by
  have hexec : exec (.stagedWordWrite p a v) s = execStagedWordWrite p a v s := rfl
  obtain ⟨hjudge, hdata⟩ := judgePair_isHigher (v := v) h ha hhigh
  rw [hexec, execStagedWordWrite, if_pos h.open, cfgWait_none h.noCfg]
  simp only [writeUnits, hjudge, toNat_address, hdata, writeAddr, Reg.ofAddr_eq r ha, regWriteBy, hhigh, if_true]

/-! ### REG_READ (R165) -/

section
variable (h : PacketReady Op.regRead m s) (hne : m.words ≠ []) (hmax : m.words.length ≤ 2046)
include h hne hmax

/-- REG_READ passes every check but that of its addresses. -/
theorem judge_regRead : judge Op.regRead { regReadH with range := fun _ _ => true } m false (takenUp Op.regRead m s) = none :=
  judge_ready h _ _ rfl rfl (List.length_pos_iff.2 hne) (fun _ => hmax) rfl rfl rfl rfl rfl

theorem exec_regRead (hrange : regReadH.range (takenUp Op.regRead m s) m = true) : exec (.regRead m) s
      = .next (answer m (ansOf (regReadGo m.port (some (defOf Op.regRead m)) m.words (takenUp Op.regRead m s)))) := by
  have hexec : exec (.regRead m) s = interp Op.regRead regReadH m s := rfl
  have hj : judge Op.regRead regReadH m false (takenUp Op.regRead m s) = none := by
    rw [judge_range (judge_regRead h hne hmax), hrange]
    rfl
  rw [hexec, interp_runs h.toPacketHead rfl rfl hj]
  rfl

theorem exec_regRead_range (hbad : ∃ a ∈ m.words, fld a 16 4 ≠ 0) :
    exec (.regRead m) s = .next (replied m stRange [] (takenUp Op.regRead m s)) := by
  obtain ⟨a, hin, hfld⟩ := hbad
  have hrange : regReadH.range (takenUp Op.regRead m s) m = false := by
    refine List.all_eq_false.2 ⟨a, hin, ?_⟩
    simp [hfld]
  exact h.refusedRange (judge_regRead h hne hmax) hrange rfl

theorem exec_regRead_plain (hall : ∀ a ∈ m.words, fld a 16 4 = 0 ∧ hdataIx a.toNat = none) : exec (.regRead m) s = .next (
    let r := readAll m.port m.words (takenUp Op.regRead m s)
    answer m (.reply (if r.1.2 then stFault else stOk) r.1.1, r.2)) := by
  have hrange : regReadH.range (takenUp Op.regRead m s) m = true := by
    refine List.all_eq_true.2 fun a ha => ?_
    obtain ⟨hfld, hdata⟩ := hall a ha
    simp [hfld, hdata]
  rw [exec_regRead h hne hmax hrange]
  simp only [regReadGo, readRuns_none fun a ha => (hall a ha).2, ansOf]

end

theorem hostWin_takenUp (op : Op) (m : Msg) (s : State) : hostWin (takenUp op m s) m.port = hostWin s m.port := by
  simp only [hostWin, takenUp_port]

theorem hostWord_takenUp (op : Op) (m : Msg) (s : State) (i : Nat) :
    hostWord (takenUp op m s) m.port i = hostWord s m.port i := by
  simp only [hostWord, takenUp_port]

theorem hdataOk_takenUp (op : Op) (m : Msg) (s : State) (write : Bool) (i : Nat) :
    hdataOk (takenUp op m s) m.port write i = hdataOk s m.port write i := by
  have hcfg := (takenUp_took op m s).cfg_eq
  simp only [hdataOk, hostWin_takenUp, hostWord_takenUp, inWindowW_congr hcfg, cfgBit, cfgGet, hcfg]

theorem exec_regRead_hdata (h : PacketReady Op.regRead m s) (hw : m.words = [BitVec.ofNat 20 (0x8600 + i.val)])
    (hin : hdataOk s m.port false i.val = true) : exec (.regRead m) s
      = .next (regReadGo m.port (some (defOf Op.regRead m)) [BitVec.ofNat 20 (0x8600 + i.val)] (takenUp Op.regRead m s)).2 := by
  have hrange : regReadH.range (takenUp Op.regRead m s) m = true := by
    simp only [regReadH, hw, List.all_cons, List.all_nil, fld_hdata, toNat_hdata, hdataIx_hdata, hdataOk_takenUp, hin]
    rfl
  rw [exec_regRead h (by simp [hw]) (by simp [hw]) hrange, hw, regReadGo_hdata]
  rfl

/-! ### REG_WRITE (R166, R169 to R173) -/

theorem exec_regWrite (h : PacketReady Op.regWrite m s) (hodd : m.words.length % 2 = 1) (hlo : 3 ≤ m.words.length)
    (hhi : m.words.length ≤ 2045) (hstage : stageOk s m = true) : exec (.regWrite m) s = .next (answer m (ansOf
      (regWriteGo m.port (some (defOf Op.regWrite m)) (staged m) (pairsOf (m.words.drop 1)) (takenUp Op.regWrite m s)))) := by
  have hexec : exec (.regWrite m) s = interp Op.regWrite regWriteH m s := rfl
  have hstage' : stageOk (takenUp Op.regWrite m s) m = true := by rwa [stageOk, takenUp_vintage]
  have hj : judge Op.regWrite regWriteH m false (takenUp Op.regWrite m s) = none :=
    judge_ready h regWriteH _ rfl rfl hlo (fun _ => hhi) (beq_iff_eq.2 hodd) rfl hstage' rfl rfl
  rw [hexec, interp_runs h.toPacketHead rfl rfl hj]
  rfl

section
variable {a b w : Word} {st : Status} {l : List (Word × Word)} {n : Nat}

/-- A pair that fails stops the command. -/
theorem writeUnits_refused (hj : judgePair Op.regWrite p (a, v) s = some st) :
    writeUnits p cmd ((a, v) :: l) n s = (some (pairReply n (some (st, a))), s) := by
  simp only [writeUnits, hj]

/-- A pair that passes its checks is written and counted. -/
theorem writeUnits_written (hj : judgePair Op.regWrite p (a, v) s = none) (hdata : hdataIx a.toNat = none) :
    writeUnits p cmd ((a, v) :: l) n s = writeUnits p cmd l (n + 1) (writeAddr p a.toNat v s) := by
  simp only [writeUnits, hj, hdata]

/-- A staged command of one pair. -/
theorem regWriteGo_staged_written (hj : judgePair Op.regWrite p (a, v) s = none) (hdata : hdataIx a.toNat = none) :
    regWriteGo p cmd true [(a, v)] s = (some (pairReply 1 none), writeAddr p a.toNat v s) := by
  have hall : judgePairs Op.regWrite p [(a, v)] s = none := by simp only [judgePairs, hj]
  have hcommit : commitPairs p [(a, v)] [] s = ([], writeAddr p a.toNat v s) := by simp only [commitPairs, hdata]
  simp only [regWriteGo, if_true, hall, hcommit]
  rfl

/-- A staged command whose first pair fails has no effect. -/
theorem regWriteGo_staged_refused (hj : judgePair Op.regWrite p (a, v) s = some st) :
    regWriteGo p cmd true ((a, v) :: l) s = (some (st, splitReply 0 st a 0 false), s) := by
  have hall : judgePairs Op.regWrite p ((a, v) :: l) s = some (st, a) := by simp only [judgePairs, hj]
  simp only [regWriteGo, if_true, hall]

theorem stageOk_unstaged {ws : List Word} (hw : m.words = 0 :: ws) : stageOk s m = true := by simp [stageOk, pword, hw, fld, bit]

theorem stageOk_staged {ws : List Word} (hw : m.words = 1 :: ws) (hv : portVintage s m.port = 3) : stageOk s m = true := by
  simp [stageOk, pword, hw, fld, hv]

section
variable (h : PacketReady Op.regWrite m s)
include h

/-- An unstaged REG_WRITE of one or two pairs. -/
theorem exec_regWrite_unstaged {ws : List Word} (hw : m.words = 0 :: ws) (hlen : ws.length = 2 ∨ ws.length = 4) :
    exec (.regWrite m) s = .next (answer m (ansOf
      (writeUnits m.port (some (defOf Op.regWrite m)) (pairsOf ws) 0 (takenUp Op.regWrite m s)))) := by
  have hlength : m.words.length = ws.length + 1 := by rw [hw, List.length_cons]
  have hstaged : staged m = false := by simp [staged, pword, hw, bit]
  rw [exec_regWrite h (by omega) (by omega) (by omega) (stageOk_unstaged hw), hstaged, hw]
  rfl

/-- A staged REG_WRITE of one or two pairs. -/
theorem exec_regWrite_staged {ws : List Word} (hw : m.words = 1 :: ws) (hlen : ws.length = 2 ∨ ws.length = 4)
    (hv : portVintage s m.port = 3) : exec (.regWrite m) s = .next (answer m (ansOf
      (regWriteGo m.port (some (defOf Op.regWrite m)) true (pairsOf ws) (takenUp Op.regWrite m s)))) := by
  have hlength : m.words.length = ws.length + 1 := by rw [hw, List.length_cons]
  have hstaged : staged m = true := by simp [staged, pword, hw, bit]
  rw [exec_regWrite h (by omega) (by omega) (by omega) (stageOk_staged hw hv), hstaged, hw]
  rfl

theorem regWrite_refused {c : Word} (hw : m.words = [0, c, w, a, v])
    (hj : judgePair Op.regWrite m.port (c, w) (takenUp Op.regWrite m s) = some st) :
    exec (.regWrite m) s = .next (replied m st (splitReply 0 st c 0 false) (takenUp Op.regWrite m s)) := by
  rw [exec_regWrite_unstaged h hw (.inr rfl), pairsOf, writeUnits_refused hj]
  exact congrArg _ (answer_reply (takenUp_noReset _ m s h.noReset))

theorem regWrite_staged_refused {c : Word} (hw : m.words = [1, c, w, a, v]) (hv : portVintage s m.port = 3)
    (hj : judgePair Op.regWrite m.port (c, w) (takenUp Op.regWrite m s) = some st) :
    exec (.regWrite m) s = .next (replied m st (splitReply 0 st c 0 false) (takenUp Op.regWrite m s)) := by
  rw [exec_regWrite_staged h hw (.inr rfl) hv, pairsOf, regWriteGo_staged_refused hj]
  exact congrArg _ (answer_reply (takenUp_noReset _ m s h.noReset))

section
variable (hdata : hdataIx a.toNat = none) (hj : judgePair Op.regWrite m.port (a, v) (takenUp Op.regWrite m s) = none)
include hdata hj

theorem regWrite_one (hw : m.words = [0, a, v] ∨ m.words = [1, a, v] ∧ portVintage s m.port = 3) : exec (.regWrite m) s
    = .next (answer m (.reply stOk (splitReply 1 stOk 0 0 false), writeAddr m.port a.toNat v (takenUp Op.regWrite m s))) := by
  rcases hw with hw | ⟨hw, hv⟩
  · rw [exec_regWrite_unstaged h hw (.inl rfl), pairsOf, writeUnits_written hj hdata]
    rfl
  · rw [exec_regWrite_staged h hw (.inl rfl) hv]
    exact congrArg (fun r => Host.Outcome.next (answer m (ansOf r))) (regWriteGo_staged_written hj hdata)

theorem regWrite_two (hdata' : hdataIx b.toNat = none) (hw : m.words = [0, a, v, b, w])
    (hj' : judgePair Op.regWrite m.port (b, w) (writeAddr m.port a.toNat v (takenUp Op.regWrite m s)) = none) :
    exec (.regWrite m) s = .next (answer m (.reply stOk (splitReply 2 stOk 0 0 false),
      writeAddr m.port b.toNat w (writeAddr m.port a.toNat v (takenUp Op.regWrite m s)))) := by
  rw [exec_regWrite_unstaged h hw (.inr rfl), pairsOf, writeUnits_written hj hdata, pairsOf, writeUnits_written hj' hdata']
  rfl

theorem regWrite_partial (hw : m.words = [0, a, v, b, w])
    (hj' : judgePair Op.regWrite m.port (b, w) (writeAddr m.port a.toNat v (takenUp Op.regWrite m s)) = some st) :
    exec (.regWrite m) s = .next (answer m (.reply stPartial (splitReply 1 st b 0 false),
      writeAddr m.port a.toNat v (takenUp Op.regWrite m s))) := by
  rw [exec_regWrite_unstaged h hw (.inr rfl), pairsOf, writeUnits_written hj hdata, pairsOf, writeUnits_refused hj']
  rfl

end
end
end

/-- Settles O7: single accesses by their rows, REG_READ by its addresses, REG_WRITE pair by pair. -/
theorem registerAccesses : Obligations.RegisterAccesses := by
  unfold Obligations.RegisterAccesses
  refine ⟨fun p i v a s => ⟨fun h hin => ?_, fun h hin hcm => ?_, fun h ha => ?_, fun h r ha hhigh => ?_⟩,
    fun m s h _ hne hmax => ⟨exec_regRead_plain h hne hmax, exec_regRead_range h hne hmax, fun i hw hin => ?_⟩,
    fun m a v b w c s h hdata hdata' => ?_⟩
  · rw [exec_mmpHostRead h hin, regReadGo_hdata]
  · rw [exec_mmpHostWrite h, writeUnits_hdata h hin hcm]
  · rw [exec_snapshotRead_tb h ha, fillLatch_tb]
  · exact exec_stagedWordWrite_isHigher h ha hhigh
  · have hwin : hostWin (takenUp Op.regRead m s) m.port = hostWin s m.port := hostWin_takenUp ..
    have hword : hostWord (takenUp Op.regRead m s) m.port i.val = hostWord s m.port i.val := hostWord_takenUp ..
    rw [exec_regRead_hdata h hw hin, regReadGo_hdata, hwin, hword]
    rfl
  · intro u u1 hj
    exact ⟨regWrite_one h hdata hj, regWrite_two h hdata hj hdata', fun _ => regWrite_partial h hdata hj,
      fun _ => regWrite_refused h, fun _ => regWrite_staged_refused h⟩

end Sys2Proof.Machine
end
